-- ==== Sys2Proof/Word.lean ====
section
/-! DEFINITION. The word types of the module and nothing else: bits are numbered from 0 at the least significant end
(00 R7). Bit-field and byte-order helpers stand in Machine/Bits.lean. -/

namespace Sys2Proof

/-- One byte. -/
abbrev Byte := BitVec 8
/-- A two-byte field. -/
abbrev W16 := BitVec 16
/-- A four-byte field; also an FP32 bit pattern (03 R64). -/
abbrev W32 := BitVec 32
/-- An eight-byte field. -/
abbrev W64 := BitVec 64
/-- A SHA-384 value (12 R329, 16 R439). -/
abbrev Digest384 := BitVec 384

end Sys2Proof
end

