-- ==== Sys2Proof/Syntax.lean ====
section
/-! DEFINITION. The commands of the block: one constructor per row of spec/opcode_table.json, with the row's operands.
A row that stands for an Imger command carries the pair it was sent on, its header (02 R37) and its payload; a row that
stands for an event carries what the event brings from outside the module. -/

namespace Sys2Proof

/-- The request header of 02 R37 without its Code field, which the row gives. Reserved fields are kept because a
non-zero one makes the command complete with ST_INVALID (00 R11). -/
structure Header where
  seq : W32
  flags : Byte
  prio : Byte
  context : W16
  payLoc : Byte
  rsv0B : Byte
  payLen : W32
  payOffset : W32
  rsv14 : W32
  expDigest : W64
  rsv20 : BitVec 256
  deriving DecidableEq, Repr

/-- A command sent on a mailbox pair: header and payload bytes (02 R37, R39). On a peer pair `src` is the module the
command came from and `tag` the tag of its frames (14 R380); on a host-facing pair they are not read. -/
structure Req where
  pair : Nat
  hdr : Header
  pay : List Byte
  src : W16
  tag : W16
  deriving DecidableEq, Repr

/-- Frame kinds of 14 R371. -/
inductive FrameKind where
  | mboxWrite | mboxRead | readData | peerReq | peerData | message | hostWrite | hostRead | blaze
  deriving DecidableEq, Repr

/-- A frame (14 R369, R371): header fields of its flits, frame header and bytes. `linkSeq` is the LinkSeq of its first
flit on the link it arrived by. -/
structure Frame where
  kind : FrameKind
  dest : W16
  src : W16
  flowSeq : W16
  hops : Nat
  dstPart : Byte
  srcPart : Byte
  address : W64
  length : W32
  tag : W16
  data : List Byte
  linkSeq : BitVec 12
  deriving DecidableEq, Repr

/-- How a LINK_CTL message of a neighbour comes in: the port, and the LinkSeq of its first flit on that link (14 R369, R375). -/
structure CtlFrom where
  port : Nat
  linkSeq : BitVec 12
  deriving DecidableEq, Repr

/-- The shared units of 13 R344. -/
inductive EngineUnit where
  | traversal (i : Nat)
  | tally (i : Nat)
  | lane (i : Nat)
  | yarder
  | skidder
  deriving DecidableEq, Repr

/-- A unit that runs a self-test after a fault (15 R414). -/
inductive TestUnit where
  | stand (logical : Nat)
  | engine (u : EngineUnit)
  deriving DecidableEq, Repr

/-- Why a fill fails (05 R136). -/
inductive FillCause where
  | uncorrectable (page : Nat)
  | chipper
  | t2Source
  deriving DecidableEq, Repr

/-- What a patrol scrub finds in a page (05 R141, R142). -/
inductive ScrubResult where
  | clean | corrected (words : Nat) | uncorrectable
  deriving DecidableEq, Repr

/-- What a write to the endpoint's configuration space changes (14 R390, R395). -/
inductive CfgWrite where
  | numVFs (n : Nat)
  | busMaster (fn : Nat) (on : Bool)
  | msixEnable (fn : Nat) (on : Bool)
  | maxPayload (bytes : Nat)
  | maxRead (bytes : Nat)
  | aerClear (fn : Nat) (mask : W32)
  deriving DecidableEq, Repr

/-- Where a register write of REGISTER_WRITE goes: a slot page of a pair, page 0 of a function, or the side-band. -/
inductive RegSpace where
  | slot (pair : Nat)
  | page0 (fn : Nat)
  | sideband
  deriving DecidableEq, Repr

/-- The commands. -/
inductive Instr where
  -- power, pins, reset, boot
  | powerOn (straps : BitVec 3)
  | powerLoss
  | resetInput (lowNs : Nat)
  | resetRelease (selfTestsPass : Bool)
  | pcieDetectEnd (found : Bool)
  | moduleReady
  | firmwareWatchdog
  | coreRetire (core : Nat) (ctxs : List Nat) (tickets : List Nat)
  | lifecycleReset
  -- mailbox registers and events
  | doorbell (pair : Nat) (value : W32)
  | fencedCommandStart (pair : Nat)
  | imgCplHeadWrite (pair : Nat) (value : W32)
  | pendingRecordPost (pair : Nat)
  | resultRoomWaitEnd (ticket : Nat)
  -- registers
  | lcCountRead (high : Bool)
  | sbLcCountRead (high : Bool) (nbytes : Nat)
  | pwrMeasRead (nbytes : Nat)
  | pwrLimitWrite (value : W32)
  | sbModuleIdWrite (value : W32)
  | gateSwitchArm (port : Nat) (value : W32)
  | gateSwitchCancel (port : Nat) (value : W32)
  | gateBankSwitch (port : Nat)
  | flashRead
  | flashProgram
  | flashErase
  | flashOpDone (deviceOk : Bool)
  | registerWrite (space : RegSpace) (offset : Nat) (value : W32)
  -- mailbox and management class
  | nop (r : Req)
  | resultRelease (r : Req)
  | moduleQuery (r : Req)
  | healthRead (r : Req)
  | powerSet (r : Req)
  | partitionBind (r : Req)
  | partitionUnbind (r : Req)
  | partitionRebind (r : Req)
  | lifecycleAdvance (r : Req) (readBackOk : Bool)
  | attestGet (r : Req)
  | configExport (r : Req)
  | configImport (r : Req)
  | bridgeMap (r : Req)
  -- partition control
  | serveStart (r : Req)
  | warmupEnd (part : Nat)
  | serveStop (r : Req)
  | partitionStatus (r : Req)
  | digestRead (r : Req)
  | partitionRecover (r : Req)
  -- content
  | modelSwapIn (r : Req)
  | modelSwapOut (r : Req)
  | indexLoad (r : Req)
  | indexUnload (r : Req)
  | tableLoad (r : Req)
  | tokenizerLoad (r : Req)
  | grammarLoad (r : Req)
  | contentUnload (r : Req)
  -- request class
  | querySubmit (r : Req)
  | generateSubmit (r : Req)
  | requestCancel (r : Req)
  | requestPause (r : Req)
  | requestResume (r : Req)
  -- engine class
  | searchSubmit (r : Req)
  | gatherSubmit (r : Req)
  | updateSubmit (r : Req)
  | tallySubmit (r : Req)
  | tokenizeSubmit (r : Req)
  | detokenizeSubmit (r : Req)
  | searchInsert (r : Req)
  | searchDelete (r : Req)
  | plantStart (r : Req)
  | plantingDone (part : Nat) (index : Nat)
  -- global class
  | barrierJoin (r : Req)
  | broadcastSend (r : Req)
  | snapshotTake (r : Req)
  | groupReset (r : Req)
  | globalDeferredStart (part : Nat) (domain : Nat)
  -- test class
  | loopbackSet (r : Req)
  | selftestRun (r : Req)
  -- peer class
  | peerSearch (r : Req)
  | peerFetch (r : Req)
  | peerGather (r : Req)
  | peerUpdate (r : Req)
  -- serving and engine events
  | stepForm (part : Nat)
  | stepBoundary (part : Nat)
  | changeBoundary (part : Nat)
  | launchFire (launch : Nat)
  | standTaskComplete (stand : Nat)
  | arrayResidueFault (stand : Nat)
  | taskWatchdog (stand : Nat)
  | engineSliceEnd (unit : EngineUnit) (finished : Bool)
  | sliceWatchdog (unit : EngineUnit)
  | engineFault (unit : EngineUnit)
  | tallyFault (pipe : Nat)
  | sapwoodBudgetExpiry (job : Nat)
  | unitSelftestDone (unit : TestUnit) (pass : Bool)
  | spareSelftestDone (pass : Bool)
  | moveDescriptorStart (launch : Nat)
  | fillComplete (fill : Nat) (data : List Byte)
  | fillFailed (fill : Nat) (cause : FillCause)
  | t2FillTimeout (fill : Nat)
  | landingUe (segment : Nat) (ticket : Nat) (inputsSurvive : Bool)
  | segmentZeroed (segment : Nat)
  | patrolScrub (page : Nat) (found : ScrubResult)
  | channelRetire (channel : Nat) (dead : Bool)
  | channelCopyComplete (channel : Nat)
  | cacheCountHalve (part : Nat)
  -- power events
  | cutMainRound
  | cutLateRound
  | epochBoundary
  | budgetUpdate (pavg : Nat) (peak : Nat)
  | thermalSample (temps : List Int) (milliVolts milliAmps coreMilliVolts : Nat)
  -- host bridge
  | hostWindowWrite (fn : Nat) (bar : Nat) (offset : Nat) (data : List Byte)
  | hostWindowRead (fn : Nat) (bar : Nat) (offset : Nat) (len : Nat)
  | relayReadTimeout (tag : Nat)
  | functionLevelReset (fn : Nat)
  | pcieLinkDown
  -- frames received
  | mboxWrite (port : Nat) (f : Frame)
  | mboxRead (port : Nat) (f : Frame)
  | readData (port : Nat) (f : Frame)
  | peerReq (port : Nat) (f : Frame)
  | peerData (port : Nat) (f : Frame)
  | message (port : Nat) (f : Frame)
  | hostWrite (port : Nat) (f : Frame)
  | hostRead (port : Nat) (f : Frame)
  | blazeUp (port : Nat) (f : Frame)
  | blazeDown (port : Nat) (f : Frame)
  | blazeChildTimeout (part : Nat) (domain : Nat)
  | blazeDownTimeout (part : Nat) (domain : Nat)
  -- link events
  | frameTransmit (port : Nat)
  | nak (port : Nat) (seq : BitVec 12)
  | hello (link : CtlFrom) (neighbour : W16) (theirPort : Nat) (lanes : Nat)
  | distanceVector (link : CtlFrom) (vec : List (W16 × Nat))
  | distanceVectorSend
  | laneRetire (port : Nat) (lane : Nat)
  | retire (link : CtlFrom) (lane : Nat)
  | portUp (port : Nat)
  | peerLost (peer : W16)
  | peerReinstated (peer : W16)
  | flitDiscard (port : Nat) (uncorrectable : Bool)
  | creditReturn (port : Nat) (ack : BitVec 12) (channel : Nat) (hopClass : Nat) (flits : Nat)
  -- ends of tests, bridge events, management bus
  | loopbackTestEnd (part : Nat) (results : List (W64 × W64))
  | selftestRunEnd (part : Nat) (failed : List Nat)
  | configurationSpaceWrite (w : CfgWrite)
  | pcieLinkUp (gtps : Nat) (width : Nat)
  | hostCompletion (tag : Nat) (ok : Bool) (data : List Byte)
  | setdasa (addr : BitVec 7)
  deriving DecidableEq, Repr

end Sys2Proof
end

