-- ==== Sys2Proof/Config.lean ====
section
/-! DEFINITION. What the spec leaves open, or names by an outside standard without giving its tables: uninterpreted
constants without a body. No proof can evaluate one or assume a value of it (logs 10, 12, 14, 15, 16, 24). -/

namespace Sys2Proof.Config

/-- ECDSA P-384 verification of a signature (r, s) by a key (x, y) over a message (16 R433). Log 10. -/
opaque ecdsaVerify : List Byte → List Byte → List Byte → Bool
/-- LMS verification of a signature by a public key over a message (16 R433, RFC 8554). Log 10. -/
opaque lmsVerify : List Byte → List Byte → List Byte → Bool
/-- The ECDSA signature bytes (96) that the private key named by the first argument makes over a message. Log 10. -/
opaque ecdsaSign : Digest384 → List Byte → List Byte
/-- The LMS signature bytes made by the key named by the first argument with the given leaf over a message. Log 10. -/
opaque lmsSign : Digest384 → Nat → List Byte → List Byte
/-- The ECDSA public key (96 bytes) of the key named by the argument (16 R440, R442). Log 10. -/
opaque ecdsaPub : Digest384 → List Byte
/-- The LMS public key (48 bytes) of the key named by the argument (16 R440, R442). Log 10. -/
opaque lmsPub : Digest384 → List Byte
/-- The DER alias certificate: identity key, alias key, SHA-384 of measurements 1 to 4 (16 R442). Log 10. -/
opaque aliasCert : Digest384 → Digest384 → Digest384 → List Byte
/-- SHA-384 of the boot ROM's contents, which the manual does not give (16 R439). Log 10. -/
opaque romDigest : Digest384
/-- The vendor's root certificate in DER (16 R442). Log 10. -/
opaque rootCert : List Byte
/-- Does an X.509 chain and its LMS records reach the root slot whose key hash is given (16 R460)? Log 10. -/
opaque chainReaches : List Byte → Digest384 → Bool
/-- SPDM responder of DMTF SPDM 1.3 (16 R446): connection state, request, measurements in force, alias key, next leaf;
answers the response message, the next connection state and whether a signature was made. Log 10. -/
opaque spdmRespond : Nat → List Byte → List Digest384 → Digest384 → Nat → List Byte × Nat × Bool
/-- NFC of UAX #15 with Unicode 15.1.0 on code points (07 R183). Log 12. -/
opaque nfc : List Nat → List Nat
/-- NFKC of UAX #15 with Unicode 15.1.0 on code points (07 R183). Log 12. -/
opaque nfkc : List Nat → List Nat
/-- Simple lowercase mapping of UnicodeData.txt 15.1.0 for one code point (07 R183). Log 12. -/
opaque simpleLower : Nat → Nat
/-- Words of the true random number generator (16 R442), one fresh index a draw. Log 14. -/
opaque random : Nat → Digest384
/-- A byte the spec leaves undefined (18 R471, R479), a fresh index a byte. Log 15. -/
opaque freeByte : Nat → Byte
/-- Order in which fetches complete in a Sapwood search (09 R251): a fresh index and a position. Log 24. -/
opaque freeOrder : Nat → Nat → Nat
/-- A value the spec leaves open, a fresh index a value (each use has its own log entry). -/
opaque freeValue : Nat → W64

end Sys2Proof.Config
end

