-- ==== Sys2Proof/Machine/Bits.lean ====
section
/-! DEFINITION. Byte order, fields and small list helpers (00 R7, R8): every multi-byte field is little-endian. -/

namespace Sys2Proof.Machine

/-- The number a little-endian byte string holds (00 R8). -/
def leNat : List Byte → Nat
  | [] => 0
  | b :: r => b.toNat + 256 * leNat r

/-- `n` as `k` little-endian bytes, modulo 2 to the width (00 R8). -/
def leBytes : Nat → Nat → List Byte
  | 0, _ => []
  | k + 1, n => BitVec.ofNat 8 n :: leBytes k (n / 256)

/-- The number a big-endian byte string holds (16 R433). -/
def beNat (l : List Byte) : Nat := leNat l.reverse

/-- `n` as `k` big-endian bytes. -/
def beBytes (k n : Nat) : List Byte := (leBytes k n).reverse

/-- The little-endian field of `k` bytes at offset `off` of a structure; bytes beyond its end read 0. -/
def fld (l : List Byte) (off k : Nat) : Nat := leNat ((l.drop off).take k)

/-- A field as a bit vector of `8 * k` bits given by the width asked for. -/
def fldW (w : Nat) (l : List Byte) (off k : Nat) : BitVec w := BitVec.ofNat w (fld l off k)

/-- The bytes from `off`, `k` of them, zeros where the structure is shorter (00 R12). -/
def bytesAt (l : List Byte) (off k : Nat) : List Byte :=
  let t := (l.drop off).take k
  t ++ List.replicate (k - t.length) 0

def allZero (l : List Byte) : Bool := l.all (· == 0)

/-- Are the `k` bytes at `off` all zero (reserved fields, 00 R11)? -/
def zeroAt (l : List Byte) (off k : Nat) : Bool := allZero ((l.drop off).take k)

/-- Zero padding to a multiple of `m` bytes. -/
def padTo (m : Nat) (l : List Byte) : List Byte :=
  l ++ List.replicate ((m - l.length % m) % m) 0

/-- ⌈a / b⌉ (00 R6). -/
def cdiv (a b : Nat) : Nat := (a + b - 1) / b

/-- The `n` fields of `k` bytes from `off` on. -/
def fldList (l : List Byte) (off k n : Nat) : List Nat :=
  (List.range n).map fun i => fld l (off + k * i) k

/-- Two's complement reading of the low `w` bits of `n`. -/
def signed (w n : Nat) : Int := (BitVec.ofNat w n).toInt

/-- Bits `hi:lo` of `n` (00 R7). -/
def bitsOf (n hi lo : Nat) : Nat := (n >>> lo) % 2 ^ (hi + 1 - lo)

/-- Bit `i` of `n`. -/
def bit (n i : Nat) : Bool := n.testBit i

/-- Value of a key in a list of pairs, `d` when absent. -/
def lookupD {κ α : Type} [BEq κ] (l : List (κ × α)) (k : κ) (d : α) : α := ((l.lookup k).getD d)

/-- A list of pairs with the value of a key set. -/
def setKey {κ α : Type} [BEq κ] (l : List (κ × α)) (k : κ) (v : α) : List (κ × α) :=
  (k, v) :: l.filter (fun e => !(e.1 == k))

/-- A list of pairs without a key. -/
def eraseKey {κ α : Type} [BEq κ] (l : List (κ × α)) (k : κ) : List (κ × α) := l.filter (fun e => !(e.1 == k))

/-- Least natural number from `i` on, stepping by `step`, at most `fuel` of them, for which `p` holds. -/
def firstFrom (p : Nat → Bool) : Nat → Nat → Nat → Option Nat
  | 0, _, _ => none
  | fuel + 1, i, step => if p i then some i else firstFrom p fuel (i + step) step

/-- The range of `n` bytes at `a` cut at multiples of `size`, as (address, length). -/
def chunksAux (size : Nat) : Nat → Nat → Nat → List (Nat × Nat)
  | 0, _, _ => []
  | fuel + 1, a, n =>
    if n = 0 then [] else
      let k := min n (size - a % size)
      (a, k) :: chunksAux size fuel (a + k) (n - k)

def chunks (size a n : Nat) : List (Nat × Nat) := chunksAux size (n / size + 2) a n

/-- The value as a 32-bit field. -/
def w32 (n : Nat) : W32 := BitVec.ofNat 32 n
def w16 (n : Nat) : W16 := BitVec.ofNat 16 n
def w64 (n : Nat) : W64 := BitVec.ofNat 64 n
def b8 (n : Nat) : Byte := BitVec.ofNat 8 n

def boolNat (b : Bool) : Nat := if b then 1 else 0

/-- Strictly ascending? -/
def ascending : List Nat → Bool
  | [] => true
  | [_] => true
  | a :: b :: r => a < b && ascending (b :: r)

/-- Do two byte ranges (address, length) meet? -/
def rangesMeet (a b : Nat × Nat) : Bool := a.1 < b.1 + b.2 && b.1 < a.1 + a.2

end Sys2Proof.Machine
end

