-- ==== Sys2Proof/Machine/State.lean ====
section
/-! DEFINITION. The state of the module as plain data: every register, ring, buffer, counter, mode and pin the spec gives
it, and the queue of waiting commands. Each field's docstring names the rule that gives it; a field of the model's own says
so. Reset values are in `State.reset` and its parts; where the spec gives none the docstring names the log entry. -/

namespace Sys2Proof.Machine

/-- Why the module stops. -/
inductive Fault where
  /-- Raised by every command but POWER_ON and POWER_LOSS once the core rail has been turned off at Tmax of 110.0 degrees
  or more: nothing is promised there (15 R400, R429; 00 R3). Safe: the model stops where the spec promises nothing. -/
  | nothingPromised
  deriving DecidableEq, Repr

/-- Why the model gives a command no meaning. -/
inductive Refusal where
  /-- Raised by an arm of exec whose command has no meaning yet. Safe. -/
  | notModelled (mnemonic : String)
  deriving DecidableEq, Repr

/-- Memory: (address, byte) pairs, addresses strictly rising, no pair holding the byte an unlisted address reads as. -/
abbrev Mem := List Host.Cell

/-! ### Imger (02) -/

/-- The status codes of 02 R50. -/
inductive Status where
  | ok | invalid | wrongState | noSpace | digestMismatch | sequence | unknownCommand | denied | notFound | busy
  | fault | timeout | auth | partialResult
  deriving DecidableEq, Repr

/-- The completion reasons of 02 R52. -/
inductive Reason where
  | none | done | endToken | stopString | grammarDead | grammarEos | length | exported | cancelledDropped
  | cancelledFreed | faultReplayed
  deriving DecidableEq, Repr

/-- The partition states of 02 R53. -/
inductive PState where
  | unbound | bound | loaded | serving | draining | faulted
  deriving DecidableEq, Repr

/-- The command codes of 02 R57. -/
inductive Code where
  | nop | resultRelease
  | moduleQuery | healthRead | powerSet | partitionBind | partitionUnbind | partitionRebind
  | lifecycleAdvance | attestGet | configExport | configImport | bridgeMap
  | serveStart | serveStop | partitionStatus | digestRead | partitionRecover
  | modelSwapIn | modelSwapOut | indexLoad | indexUnload | tableLoad | tokenizerLoad | grammarLoad | contentUnload
  | querySubmit | generateSubmit | requestCancel | requestPause | requestResume
  | searchSubmit | gatherSubmit | updateSubmit | tallySubmit | tokenizeSubmit | detokenizeSubmit
  | searchInsert | searchDelete | plantStart
  | barrierJoin | broadcastSend | snapshotTake | groupReset
  | loopbackSet | selftestRun
  | peerSearch | peerFetch | peerGather | peerUpdate
  deriving DecidableEq, Repr

/-- A completion record (02 R40) before its PhaseWord is formed; `irq` is the request's IRQ flag (02 R37). -/
structure Record where
  seq : W32
  status : Status
  reason : Reason
  more : Bool
  context : Option Nat
  partState : PState
  partition : Option Nat
  handle : Option W32
  resOffset : Nat
  resLength : Nat
  detail : W32
  irq : Bool
  /-- The context whose request this record belongs to, to hold it out of steps (02 R46). -/
  owner : Option Nat
  /-- The command it belongs to (model's own, log 41). -/
  ticket : Nat
  /-- On a peer pair: source module and tag to send it to, and the result bytes that go with it (14 R380, log 20). -/
  dest : Option (W16 × W16)
  data : List Byte
  deriving DecidableEq, Repr

/-- The geometry of a pair (02 R26). -/
structure Geometry where
  reqLog2 : Nat
  cplLog2 : Nat
  payUnits : Nat
  resUnits : Nat
  vector : Nat
  deriving DecidableEq, Repr

/-- A result payload (02 R47): its handle, its place in the result region and whether its request has posted its final
record (02 R49). -/
structure ResultPayload where
  handle : W32
  off : Nat
  len : Nat
  final : Bool
  deriving DecidableEq, Repr

/-- A peer command whose frames are still arriving (14 R380). -/
structure PeerPartial where
  src : W16
  tag : W16
  slot : List Byte
  data : List Byte
  deriving DecidableEq, Repr

/-- A mailbox pair (02 R23, R61). -/
structure Pair where
  /-- ImgPairStatus.BOUND. Reset 0; pair 0 is always bound (02 R23). -/
  bound : Bool
  /-- ImgPairStatus.PARTITION; none is 0xFF. -/
  part : Option Nat
  /-- Geometry (02 R26; pair 0: 13 R346). -/
  geom : Geometry
  /-- The module segments that back the region, in region order (02 R28). -/
  segs : List Nat
  /-- ImgReqTail, ImgCplHead, ImgReqHead, ImgCplTail (02 R61). Reset 0. -/
  reqTail : W16
  cplHead : W16
  reqHead : W16
  cplTail : W16
  /-- ImgPairStatus error bits, W1C (02 R36, R62). Reset 0. -/
  tailErr : Bool
  headErr : Bool
  unboundWr : Bool
  /-- ImgExpSeq (02 R38). Reset 0. -/
  expSeq : W32
  /-- Records kept while the ring is full, oldest first (02 R46). -/
  waiting : List Record
  /-- Commands held by FENCE, oldest first, with their tickets (02 R45). -/
  fenced : List (Nat × Code × Req)
  /-- Live result payloads (02 R47). -/
  results : List ResultPayload
  /-- Generation count of the next handle of each allocation index (02 R47). -/
  gens : List Nat
  /-- Peer commands whose frames are still arriving, or that wait for room in the payload region (14 R380). -/
  arriving : List PeerPartial
  /-- Payload region ranges of peer commands in progress: ticket, offset, length (14 R380). -/
  payHeld : List (Nat × Nat × Nat)
  /-- The bridge that last relayed an access to this pair, to send interrupts to (14 R393; log 33). -/
  via : Option W16
  deriving DecidableEq, Repr

def Geometry.none : Geometry := ⟨0, 0, 0, 0, 0⟩

/-- An unbound pair after reset (02 R24, R61). -/
def Pair.reset : Pair :=
  { bound := false, part := none, geom := Geometry.none, segs := [], reqTail := 0, cplHead := 0, reqHead := 0,
    cplTail := 0, tailErr := false, headErr := false, unboundWr := false, expSeq := 0, waiting := [], fenced := [],
    results := [], gens := [], arriving := [], payHeld := [], via := none }

/-- Pair 0 after reset: fixed geometry (13 R346), its region in 11 reserved segments (02 R28, 05 R125), taken as the
lowest ones (log 19). -/
def Pair.reset0 : Pair :=
  { Pair.reset with bound := true, geom := ⟨4, 6, 4, 4, 0⟩, segs := (List.range 11).map (· + 5888) }

/-- A command taken whose final record has not been posted (02 R44). -/
structure Cmd where
  ticket : Nat
  pair : Nat
  code : Code
  seq : W32
  irq : Bool
  part : Option Nat
  /-- The request context of a request-class command. -/
  ctx : Option Nat
  src : W16
  tag : W16
  pay : List Byte
  /-- Result bytes formed but waiting for result-region room, with status, reason and detail (02 R47). -/
  roomWait : Option (Status × W32 × List Byte)
  deriving DecidableEq, Repr

/-! ### Power, boot, identity (15, 16, 18) -/

structure Power where
  /-- The 50 V input is above its thresholds (18 R467 to R469). Log 1. -/
  inputOn : Bool
  /-- Pin SB_PWRGD released (18 R466, R468). Log 1. -/
  pwrgd : Bool
  /-- The core rail was turned off at Tmax of 110.0 or more (15 R400). -/
  railTripped : Bool
  /-- Pin SB_RESET_N is high (18 R466). Log 1. -/
  resetHigh : Bool
  /-- SB_ADDR2 to SB_ADDR0 as sampled at power-on (18 R474). Log 1. -/
  straps : BitVec 3
  /-- I3C dynamic address (18 R474). None at power-on. -/
  dynAddr : Option (BitVec 7)
  deriving DecidableEq, Repr

/-- Where the module stands between power-off and READY (16 R437, 18 R468, R472). -/
inductive Phase where
  | off | held | booting | recovery | waitId | wiping | ready | katFailed
  deriving DecidableEq, Repr

/-- The causes of a reset as LastReset codes them (15 R412, 18 R470). -/
inductive ResetCause where
  | powerOn | resetInput | groupReset | watchdog
  deriving DecidableEq, Repr

structure Boot where
  phase : Phase
  lastReset : ResetCause
  /-- Both slots have been checked in this boot (18 R478). -/
  checked : Bool
  /-- SecBootSts fields (16 R438). -/
  recovery : Bool
  imageB : Bool
  aErr : BitVec 4
  bErr : BitVec 4
  aFails : BitVec 2
  bFails : BitVec 2
  /-- FirmwareVersion of the running image (15 R412). Log 25. -/
  fwVersion : W64
  /-- Ranger cores in service (15 R412). -/
  coreMask : BitVec 8
  /-- PCIe detection has ended since the reset (14 R387). -/
  pcieDone : Bool
  /-- A GROUP_RESET of Scope MODULE has completed, and the module resets once its record is posted and its DOWN tokens have left
  (12 R332, R342).
  Log 84. -/
  resetDue : Bool
  /-- Ticket of that command. -/
  resetTicket : Nat
  deriving DecidableEq, Repr

def Boot.reset (c : ResetCause) : Boot :=
  { phase := .held, lastReset := c, checked := false, recovery := false, imageB := false, aErr := 0, bErr := 0,
    aFails := 0, bFails := 0, fwVersion := 0, coreMask := 0xFF, pcieDone := false,
    resetDue := false, resetTicket := 0 }

/-- The fuse array (16 R431) and the manufacturing marks of the stands (04 R88, R89). -/
structure Fuses where
  uds : Digest384
  serial : W64
  compat : Byte
  stepping : Byte
  rootKeyHash : List Digest384
  rootRevoke : BitVec 4
  /-- Number of SecVersion bits blown, 0 to 64. -/
  secVersion : Nat
  /-- c of 16 R452: one more than the index of the highest LifeCycle bit blown. -/
  lifeCount : Nat
  active : BitVec 68
  passed : BitVec 68
  deriving DecidableEq, Repr

/-- A flash operation of the side-band window (18 R479). -/
inductive FlashOp where
  | read | program | erase
  deriving DecidableEq, Repr

structure Flash where
  /-- 256 MiB (16 R432); unlisted addresses read 0xFF. Log 4. -/
  mem : Mem
  /-- SbFlashBuf (18 R477); unlisted offsets read 0. -/
  buf : Mem
  /-- SbFlashAddr (18 R477). -/
  addr : W32
  busy : Bool
  err : Bool
  code : BitVec 4
  /-- Operation in progress and the address it started with. -/
  op : Option (FlashOp × Nat)
  /-- SbFlashBuf was written while BUSY (18 R479). -/
  tainted : Bool
  deriving DecidableEq, Repr

structure Sec where
  /-- Measurements 1 to 5 (16 R439). Zero before they are formed. -/
  meas : List Digest384
  /-- Name of this boot's alias keys (16 R442). -/
  aliasKey : Option Digest384
  /-- Next alias LMS leaf (16 R449). -/
  aliasLeaf : Nat
  /-- Identity leaf that certified the alias LMS key; none when no ALIAS record was issued (16 R441). -/
  leaf : Option Nat
  /-- SPDM connection state of each pair that has one (16 R446). -/
  spdm : List (Nat × Nat)
  /-- A life-cycle transition has been taken; the count of its final record once posted (16 R454). -/
  transition : Option (Option Nat)
  /-- The configuration record in force (16 R456). -/
  record : Option (List Byte)
  deriving DecidableEq, Repr

def Sec.reset : Sec :=
  { meas := List.replicate 5 0, aliasKey := none, aliasLeaf := 0, leaf := none, spdm := [], transition := none,
    record := none }

structure Ident where
  /-- StsIdent.MODULE_ID (02 R61). Log 25. -/
  moduleId : W16
  /-- StsState.BRIDGE (02 R61). Log 25. -/
  bridge : Bool
  degraded : Bool
  /-- StsEvents (02 R61): bit 3 PEER_LOST, 2 LANE_RET, 1 CHAN_RET, 0 STAND_SPARE. -/
  events : BitVec 4
  deriving DecidableEq, Repr

def Ident.reset : Ident := { moduleId := 0xFFFF, bridge := false, degraded := false, events := 0 }

structure SideBand where
  /-- SbModuleId (18 R477). -/
  moduleId : W32
  /-- High word latched by a read of SbLcCount's low word (18 R476); no reset value is given: 0, DESIGN CHOICE (log 25). -/
  lcLatch : W32
  /-- Low words of 64-bit registers held until the high word is written (18 R476). -/
  heldLow : List (Nat × W32)
  deriving DecidableEq, Repr

/-! ### T1 (05) -/

structure T1 where
  /-- Bytes by module page number × 4,096 + offset (05 R139); unlisted addresses read 0. -/
  mem : Mem
  /-- Written-since-bind tags by page, 48 bits; unlisted pages carry 0 (05 R140, R150). -/
  tags : List (Nat × Nat)
  /-- Poisoned pages (05 R141). -/
  poison : List Nat
  /-- Generation counter, 48 bits (05 R145). -/
  gen : Nat
  /-- Retired logical channels (05 R148), the one whose copy runs, and those that died (15 R419). -/
  retired : List Nat
  copying : Option Nat
  dead : List Nat
  /-- Counts at which pages were poisoned, and words corrected, by channel (15 R419). -/
  poisonAt : List (Nat × Nat)
  correctedAt : List (Nat × Nat × Nat)
  /-- Module frames taken as further reserve (05 R149). -/
  reserve : List Nat
  deriving DecidableEq, Repr

def T1.wiped : T1 :=
  { mem := [], tags := [], poison := [], gen := 1, retired := [], copying := none, dead := [], poisonAt := [],
    correctedAt := [], reserve := [] }

/-! ### Content objects (02 R55) -/

/-- An entry of a model's tensor table (11 R305). -/
structure Tensor where
  area : Nat
  fmt : Nat
  layout : Nat
  step : Bool
  chipper : Bool
  bytes : Nat
  dataRef : Nat
  deriving DecidableEq, Repr

/-- A launch group record (11 R306). -/
structure Group where
  taskRef : Nat
  taskCount : Nat
  moveCount : Nat
  stageBytes : Nat
  moveRef : Nat
  patchRef : Nat
  patchCount : Nat
  gatherTable : Nat
  gatherTensor : Nat
  deriving DecidableEq, Repr

/-- Where a content object was loaded from (15 R417) and the T1 frames it holds. -/
structure Residence where
  srcSpace : Nat
  srcPeer : Nat
  srcAddr : Nat
  /-- First partition frame and frame count. -/
  frame : Nat
  frames : Nat
  len : Nat
  /-- The source is a Chipper object, decoded at load (09 R264). -/
  chip : Bool
  damaged : Bool
  deriving DecidableEq, Repr

/-- A loaded model image (11 R304). -/
structure Model where
  id : Nat
  kind : Nat
  tokenizer : Nat
  layers : Nat
  kvHeads : Nat
  headDim : Nat
  maxPos : Nat
  outDim : Nat
  tensors : List Tensor
  groups : List Group
  /-- FirstGroup, GroupCount and OutTensor of the two passes (11 R307). -/
  passes : List (Nat × Nat × Nat)
  /-- Token lists of the slots of each prompt frame (11 R308). -/
  frames : List (List (List Nat))
  dataOffset : Nat
  rowLimit : Nat
  res : Residence
  deriving DecidableEq, Repr

/-- A loaded passage store (11 R312). -/
structure Store where
  id : Nat
  recordCount : Nat
  recordOffset : Nat
  textOffset : Nat
  textLength : Nat
  res : Residence
  deriving DecidableEq, Repr

/-- A loaded tokenizer (07 R191, R192). -/
structure Tokenizer where
  id : Nat
  algo : Nat
  norm : Nat
  lower : Bool
  metaSpace : Bool
  byteFallback : Bool
  bos : Option Nat
  eos : Option Nat
  unk : Option Nat
  pad : Option Nat
  vocab : List (List Byte)
  merges : List (Nat × Nat × Nat)
  unkScore : W32
  scores : List W32
  /-- First code point and class of each class map entry. -/
  classes : List (Nat × Nat)
  soloMask : W16
  dropMask : W16
  join : Option Nat
  maxWordChars : Nat
  contPrefix : List Byte
  byteMap : List Nat
  res : Residence
  deriving DecidableEq, Repr

/-- A grammar mask (07 R204). -/
inductive GMask where
  | empty
  | runs (pairs : List (Nat × Nat))
  | dense (bytes : List Byte)
  deriving DecidableEq, Repr

/-- A grammar state (07 R203): mask, transitions (First, Last, Next) and ACCEPT. -/
structure GState where
  mask : GMask
  trans : List (Nat × Nat × Nat)
  accept : Bool
  deriving DecidableEq, Repr

/-- A loaded grammar (07 R202). -/
structure Grammar where
  id : Nat
  tokenizer : Nat
  vocab : Nat
  start : Nat
  states : List GState
  res : Residence
  deriving DecidableEq, Repr

/-- A component of an embedding table (08 R218). -/
structure Component where
  rows : Nat
  salt : W64
  dim : Nat
  fmt : Nat
  updatable : Bool
  deriving DecidableEq, Repr

/-- A shard record of an embedding table (08 R218). -/
structure TableShard where
  comp : Nat
  owner : Nat
  replica : Nat
  colFirst : Nat
  colCount : Nat
  rowFirst : Nat
  rowCount : Nat
  deriving DecidableEq, Repr

/-- Update contributions held for an epoch (08 R231): source, component, row, first element, batch position, values
already scaled. -/
structure Contribution where
  epoch : Nat
  source : Nat
  comp : Nat
  row : Nat
  colFirst : Nat
  pos : Nat
  vals : List W32
  deriving DecidableEq, Repr

/-- A loaded embedding table and its update state (08 R218, R231 to R235). -/
structure Table where
  id : Nat
  compose : Nat
  hash : Nat
  combine : Nat
  compA : Component
  compB : Component
  shards : List TableShard
  sources : List Nat
  /-- Where the image has its rows and their shift bytes, and the length of the rows (08 R218): T1 holds the rows and after
  them the shift bytes, nothing else of the image (08 R220). -/
  dataOffset : Nat
  scaleOffset : Nat
  dataLen : Nat
  /-- Applied epoch (08 R232). -/
  applied : Nat
  contribs : List Contribution
  /-- Source and epoch of each EPOCH_END received. -/
  ends : List (Nat × Nat)
  /-- Epochs this module has sent EPOCH_END for, and occurrences it sent per epoch (08 R231, R235). -/
  sentEnds : List Nat
  sentOcc : List (Nat × Nat)
  /-- The UPDATE_SUBMITs in flight here: ticket, epoch, first batch position, whether with EPOCH_END (15 R421). -/
  sending : List (Nat × Nat × Nat × Bool)
  /-- Applied epochs the owners last reported (08 R235). -/
  reports : List (Nat × Nat)
  /-- Sources declared lost (08 R233). -/
  lostSources : List Nat
  degraded : Bool
  /-- Damaged rows (15 R417): component and row. -/
  damagedRows : List (Nat × Nat)
  res : Residence
  deriving DecidableEq, Repr

/-- A node of a shard's graph (09 R241). -/
structure Node where
  id : Nat
  code : List Byte
  adj : List Nat
  stump : Bool
  vacant : Bool
  deriving DecidableEq, Repr

/-- A Seedling entry (09 R258). -/
structure Seedling where
  id : Nat
  members : W64
  code : List Byte
  deleted : Bool
  deriving DecidableEq, Repr

/-- Planting in progress (09 R259, R260): command, snapshot, PlantEf, and ids deleted since. -/
structure Planting where
  ticket : Nat
  plantEf : Nat
  snapStumps : List Bool
  p0 : Nat
  snapSeed : List Seedling
  deletedIds : List Nat
  done : Bool
  deriving DecidableEq, Repr

/-- A loaded index (09 R240, R241, R255). -/
structure Index where
  id : Nat
  isMap : Bool
  metricL2 : Bool
  dim : Nat
  subSpaces : Nat
  degree : Nat
  shardCount : Nat
  shardIndex : Nat
  entryEf : Nat
  idBase : Nat
  nativeCount : Nat
  seeds : Nat
  nodes : List Node
  /-- Base local index and slots of each entry-layer node. -/
  entry : List (Nat × List Nat)
  codebook : List W32
  /-- Owner and Replica of each shard. -/
  shardMap : List (Nat × Nat)
  /-- Generation (09 R255). -/
  gen : W64
  bitmaps : List (Nat × List Bool)
  seed : List Seedling
  planting : Option Planting
  /-- Partition frames taken by the Seedling list, by the planting workspace and by planted nodes (05, 09 R256, R259, R260;
  log 17). -/
  seedFrames : List Nat
  workFrames : List Nat
  plantFrames : List Nat
  /-- Nodes of the image as loaded, with its AdjOffset and StumpOffset (09 R240). -/
  imageNodes : Nat
  adjOffset : Nat
  stumpOffset : Nat
  /-- Where each bitmap lies (09 R264). -/
  bitRes : List (Nat × Residence)
  res : Residence
  deriving DecidableEq, Repr

/-- A pending change of a shard (09 R255). -/
inductive ChangeKind where
  | insert (entries : List Seedling)
  | delete (ids : List Nat)
  /-- The bytes once they have arrived; with CHIPPER they are the decoded blocks (09 R253). -/
  | bitmapLoad (bitmap : Nat) (chipper : Bool) (res : Residence) (bytes : Option (List Byte))
  | bitmapUnload (bitmap : Nat)
  | plantStart (ef : Nat)
  | plantSwitch
  deriving DecidableEq, Repr

structure Change where
  ticket : Nat
  index : Nat
  kind : ChangeKind
  /-- The step at whose boundary it may be applied first: the last one formed when it was taken (11 R290). -/
  atStep : Nat
  /-- A boundary has passed while it could have been applied but for a search in flight. -/
  seen : Bool
  deriving DecidableEq, Repr

/-! ### Partitions (13) -/

/-- A bandwidth regulator and its byte count, and whether an access waits for it (13 R347, R353). -/
structure Regulator where
  rate : Nat
  burst : Nat
  count : Int
  waiting : Bool
  deriving DecidableEq, Repr

/-- The serving parameters (11 R291) and the count at which SERVE_START took effect. -/
structure Serving where
  test : Bool
  warmupMs : Nat
  stepTokens : Nat
  chunkMax : Nat
  decodeMax : Nat
  yarrowShare : Nat
  since : Nat
  deriving DecidableEq, Repr

/-- A row of a batch (11 R292): request, position, token (none: the last token generated) and whether it is the last row
of its request in the pass. -/
structure BatchRow where
  ctx : Nat
  /-- Ticket of the request and how often it had been replayed: a row of an earlier run is dropped (11 R302). -/
  req : Nat
  run : Nat
  pos : Nat
  token : Option Nat
  last : Bool
  deriving DecidableEq, Repr

/-- One model's batch in a step: rows of pass 0 and of pass 1 (11 R292, R293). -/
structure Batch where
  model : Nat
  rows0 : List BatchRow
  rows1 : List BatchRow
  deriving DecidableEq, Repr

/-- A formed step (11 R289): number, batches, launches posted, whether its launches have been posted; and, formed under
STEP_ALIGN, the ticket of the barrier released and its aligned count (12 R324, R339). -/
structure Step where
  no : Nat
  batches : List Batch
  posted : Bool
  launches : List Nat
  aligned : Option (Nat × Nat)
  deriving DecidableEq, Repr

/-- A class record of a Blaze token (12 R331). -/
structure DigestClass where
  digest : W64
  count : Nat
  ids : List (Nat × Nat)
  deriving DecidableEq, Repr

/-- What a member keeps of a child's UP (12 R332, R334, R336). -/
structure UpSummary where
  pos : Nat
  classes : List DigestClass
  flags : Byte
  covered : Nat
  missingCount : Nat
  missing : List (Nat × Nat)
  deriving DecidableEq, Repr

/-- An outstanding global operation (12 R333 to R342). A barrier with STEP_ALIGN that has been released waits for its aligned
launch with its count and result block; a GROUP_RESET that has completed waits for the next boundary. -/
structure GlobalOp where
  ticket : Nat
  code : Code
  domain : Nat
  epoch : Nat
  members : List (Nat × Nat)
  flags : Byte
  scope : Nat
  timeoutMs : Nat
  alignDelay : Nat
  data : List Byte
  check : W32
  /-- Count of joining; none while the command is deferred (R335). -/
  joinedAt : Option Nat
  /-- Snapshot record once captured (R341). -/
  captured : Option (List Byte)
  ups : List UpSummary
  sentUpAt : Option Nat
  released : Option (Nat × List Byte)
  resetDue : Bool
  deriving DecidableEq, Repr

/-- A pause, resume or cancel waiting for its boundary (11 R290, R489): its ticket, that of the request it acts on, the step
at whose boundary it acts, and for a pause its range. -/
structure PendingControl where
  ticket : Nat
  req : Nat
  atStep : Nat
  kind : Code
  spill : Option (Nat × Nat × Nat)
  deriving DecidableEq, Repr

/-- A pending re-bind (13 R360): its command, payload and the step at whose boundary it acts; the module segments, module
frames and stands chosen when it was taken (13 R358, log 46); the count at which it took effect; whether its resources have
changed (step 3); and the pairs, with their geometry and segments, that its end binds afresh (13 R351; 05 R129). -/
structure Rebind where
  ticket : Nat
  pay : List Byte
  atStep : Nat
  newSegs : List Nat
  newFrames : List Nat
  newStands : List Nat
  effectAt : Option Nat
  switched : Bool
  fresh : List (Nat × Geometry × List Nat)
  deriving DecidableEq, Repr

/-- A way of the row cache (08 R230): key and frequency count. -/
structure CacheWay where
  set : Nat
  way : Nat
  key : W64
  count : Nat
  deriving DecidableEq, Repr

structure RowCache where
  ways : List CacheWay
  /-- Candidate register of a set: key and count. -/
  candidates : List (Nat × W64 × Nat)
  fetches : Nat
  deriving DecidableEq, Repr

/-- A partition (13 R344). -/
structure Partition where
  state : PState
  /-- Module segment of each partition segment (05 R126). -/
  segs : List Nat
  /-- Area runs: First, Count, Area (13 R348). -/
  runs : List (Nat × Nat × Nat)
  /-- Module frame and generation of each partition frame (05 R144, R145). -/
  frames : List (Nat × Nat)
  pairs : List Nat
  kvCompress : Bool
  regs : List Regulator
  linkWeight : Nat
  peers : List (Nat × Nat)
  config : List Byte
  digest : W64
  generation : Nat
  lastRebindUs : Nat
  rebind : Option Rebind
  serve : Option Serving
  warm : Bool
  /-- Replayed requests and the token counts they must reach again (11 R301). -/
  recovering : List (Nat × Nat)
  controls : List PendingControl
  /-- Number of the last step formed, and of the last whose boundary has passed (11 R289). -/
  stepsFormed : Nat
  stepsDone : Nat
  steps : List Step
  models : List Model
  stores : List Store
  tokenizers : List Tokenizer
  grammars : List Grammar
  tables : List Table
  indexes : List Index
  changes : List Change
  /-- Frames reserved by loads in progress: ticket, first frame, frames (11 R311 step 1, log 17). -/
  reserved : List (Nat × Nat × Nat)
  /-- Lines of the WORK area in use: job or launch, first line, lines (05 R127; 08 R225; log 85). -/
  work : List (Nat × Nat × Nat)
  cache : RowCache
  globals : List GlobalOp
  /-- Last Epoch taken of each domain (12 R335). -/
  lastEpochs : List (Nat × Nat)
  /-- Tokens held for epochs not joined (12 R335). -/
  heldTokens : List Frame
  /-- Running LOOPBACK_SET commands: ticket, ports, count at which each ends (15 R427). -/
  loopbacks : List (Nat × List Nat × Nat)
  /-- Running SELFTEST_RUN commands: ticket and target (15 R428). -/
  selftests : List (Nat × Nat)
  deriving DecidableEq, Repr

/-- A partition that is not bound (02 R53). -/
def Partition.unbound : Partition :=
  { state := .unbound, segs := [], runs := [], frames := [], pairs := [], kvCompress := false, regs := [],
    linkWeight := 0, peers := [], config := [], digest := 0, generation := 0, lastRebindUs := 0, rebind := none,
    serve := none, warm := false, recovering := [], controls := [], stepsFormed := 0, stepsDone := 0, steps := [], models := [],
    stores := [], tokenizers := [], grammars := [], tables := [], indexes := [], changes := [], reserved := [], work := [],
    cache := ⟨[], [], 0⟩, globals := [], lastEpochs := [], heldTokens := [], loopbacks := [], selftests := [] }

/-! ### Requests (11) -/

/-- The request states of 11 R287. -/
inductive ReqState where
  | queued | retrieving | prefill | decode | paused
  deriving DecidableEq, Repr

/-- The stages of the retrieval chain (11 R315). -/
inductive Stage where
  | none | embedTokens | embed | search | fetch | pairTokens | rerank | select | pack | ready
  deriving DecidableEq, Repr

/-- A search or merge entry (09 R267). -/
structure Entry where
  score : W32
  tag : Byte
  flags : Byte
  id : W64
  deriving DecidableEq, Repr

/-- A passage of the retrieval chain: entry rank, entry, tag and text; `tokens` is its place once packed. -/
structure Passage where
  rank : Nat
  entry : Entry
  tagBytes : List Byte
  text : List Byte
  firstToken : Nat
  tokenCount : Nat
  deriving DecidableEq, Repr

/-- Sampling fields of a request (11 R296). -/
structure Sampling where
  seed : W64
  invTemp : W32
  topP : W32
  candCount : Nat
  greedy : Bool
  deriving DecidableEq, Repr

/-- Text options of a request (07 R201). -/
structure TextOptions where
  grammar : Option Nat
  startState : Option Nat
  stops : List (List Byte)
  forceEos : Bool
  includeStop : Bool
  deriving DecidableEq, Repr

/-- How a request ended (02 R50, R52), posted at the next boundary. -/
structure Ending where
  status : Status
  reason : Reason
  deriving DecidableEq, Repr

/-- What is frozen when a normal-regime cancel takes effect (11 R301). -/
structure CancelMark where
  textLen : Nat
  tokens : Nat
  deriving DecidableEq, Repr

/-- A request context (11 R286). -/
structure Ctx where
  id : Nat
  ticket : Nat
  pair : Nat
  seq : W32
  irq : Bool
  part : Nat
  yarrow : Bool
  /-- Admission sequence (R286): the ticket order. -/
  adm : Nat
  state : ReqState
  stage : Stage
  pausedFrom : ReqState
  isQuery : Bool
  pay : List Byte
  generator : Nat
  sampling : Sampling
  opts : TextOptions
  maxNew : Nat
  streamBytes : Nat
  /-- Retrieval data (R315 to R317). -/
  queryTokens : List Nat
  encTokens : List Nat
  vector : List W16
  entries : List Entry
  missing : W32
  passages : List Passage
  pairTokens : List (List Nat)
  scores : List W32
  skipped : Nat
  nanSeen : Bool
  packed : List Passage
  /-- Prompt and positions of it assigned to steps (R292). -/
  prompt : List Nat
  taken : Nat
  /-- Generated tokens (R295). -/
  output : List Nat
  /-- Planer state: unreleased bytes (07 R198); Teasel state (07 R209). -/
  u : List Byte
  gstate : Nat
  /-- Released text and how much of it has been reported (R298). -/
  text : List Byte
  reported : Nat
  /-- Result payload: handle, offset and reserved length (R297); text offset within it. -/
  result : Option (W32 × Nat × Nat)
  textOffset : Nat
  /-- T1 addresses of the KV pages, layer ascending then page ascending (R294). -/
  kvPages : List Nat
  /-- Spill range of a paused request: space, address, whether its pages are Chipper objects, bytes of each (R299). -/
  spilled : Option (Nat × Nat × Bool × List Nat)
  /-- A pause held until the request reaches PREFILL (11 R299): its ticket and range. -/
  pauseHeld : Option (Nat × Option (Nat × Nat × Nat))
  /-- A cancel of the normal regime has been taken or applied (11 R301). -/
  cancelTaken : Bool
  cancelMark : Option CancelMark
  ending : Option Ending
  /-- Its final record has been formed and waits to be posted (02 R46, 11 R286). -/
  isOver : Bool
  replays : Nat
  needReplay : Bool
  deriving DecidableEq, Repr

/-! ### Work in progress -/

/-- The search block (09 R266). -/
structure SearchBlock where
  sapwood : Bool
  filterAny : Bool
  probe : Bool
  noSeedling : Bool
  k : Nat
  ef : Nat
  efMax : Nat
  expandMax : Nat
  budgetUs : Nat
  shardMask : W32
  terms : List Byte
  deriving DecidableEq, Repr

/-- The list of a part or shard for one query (09 R246, R262): entries, Flags bits, expansions. -/
structure PartList where
  query : Nat
  part : Nat
  entries : List Entry
  flags : BitVec 5
  expansions : Nat
  probe : Bool
  deriving DecidableEq, Repr

/-- One shard's answer (09 R262): generation and one list a query. -/
structure ShardAnswer where
  shard : Nat
  gen : W64
  lists : List PartList
  deriving DecidableEq, Repr

/-- Who waits for a search. -/
inductive SearchOwner where
  | command (ticket : Nat)
  | context (ctx : Nat)
  | peer (ticket : Nat)
  deriving DecidableEq, Repr

/-- A search in flight at this module (09 R246, R262). -/
structure Search where
  id : Nat
  owner : SearchOwner
  part : Nat
  index : Nat
  block : SearchBlock
  queries : List (List W16)
  /-- Part lists in order of completion. -/
  parts : List PartList
  /-- Shard answers in order of arrival. -/
  shards : List ShardAnswer
  wanted : List Nat
  missing : List Nat
  deriving DecidableEq, Repr

/-- Queue-driven engine work (13 R345). -/
inductive JobKind where
  | tokenize
  | detokenize
  | tally
  | gather
  | searchPart (search query part : Nat) (probe : Bool)
  | shardMerge (search : Nat)
  | homeMerge (search : Nat)
  | ctxTokens
  | ctxSelect
  /-- The SELECT of a row of a SAMPLE launch, for its request (11 R296; 10 R280). -/
  | candidates (launch ctx : Nat)
  | planting (index : Nat)
  deriving DecidableEq, Repr

structure Job where
  id : Nat
  part : Nat
  ticket : Nat
  ctx : Option Nat
  kind : JobKind
  unit : Option EngineUnit
  /-- Count at which its first slice began (09 R251). -/
  started : Option Nat
  reruns : Nat
  /-- Lines of the WORK area it holds while it has a unit (08 R224, R225; log 85). -/
  room : Nat
  deriving DecidableEq, Repr

/-- A row of a SAMPLE task (11 R296; 04 R112): its request; where its logits lie, how many they are, and whether they are
BF16; its mask with its lines; its parameter line; its result line; and where its candidate list lies, with the entries that the
Tally's SELECT left there. All of them are partition Landing addresses. -/
structure SampleRow where
  ctx : Nat
  logits : Nat
  n : Nat
  bf : Bool
  mask : Option (Nat × Nat)
  param : Nat
  result : Nat
  list : Option Nat
  count : Nat
  deriving DecidableEq, Repr

/-- What a task of a launch runs: a patched task record's operation bytes over the image's tensors, or sampling formed by
firmware (11 R296). -/
inductive TaskBody where
  | record (ops : List (List Byte))
  | sample (rows : List SampleRow)
  deriving DecidableEq, Repr

structure Task where
  body : TaskBody
  credit : Nat
  watchdog : Nat
  taskId : W32
  stand : Option Nat
  done : Bool
  reruns : Nat
  deriving DecidableEq, Repr

/-- What a launch is for (11 R292, R307; 04 R116; 15 R401; 17 X19). -/
inductive LaunchKind where
  | group (model pass group : Nat)
  | sample (model pass : Nat)
  | rerun (launch task : Nat)
  /-- The engine slices of a step that ride in none of its groups' launches (11 R289). -/
  | slices
  /-- Formed by firmware for a piece of work on a traversal engine, a Tally pipeline or the Yarder (15 R401): the job. -/
  | engine (job : Nat)
  /-- The self-test of a stand, by its physical index (15 R414, R415, R428; 17 X19). -/
  | standTest (stand : Nat)
  deriving DecidableEq, Repr

/-- A posted launch (01 R18, 12 R323, R324). -/
structure Launch where
  id : Nat
  part : Nat
  kind : LaunchKind
  stepNo : Nat
  /-- A later part of a divided launch or a re-run: everything it reads is in place (04 R116). -/
  cont : Bool
  /-- Its tasks have stands and its target is set (12 R323, 04 R116). -/
  posted : Bool
  target : Nat
  /-- The barrier whose aligned release it is bound to, to report its firing to (12 R324, R338): its ticket. -/
  release : Option Nat
  /-- Partition Landing address of each tensor of the image (04 R94). -/
  bases : List Nat
  tasks : List Task
  rows : List BatchRow
  /-- Launches whose completion it waits for. -/
  after : List Nat
  /-- Gather still to end: table, tensor base, tensor format (11 R306). -/
  gather : Option (Nat × Nat × Nat)
  moves : List (List Byte)
  /-- Fills it waits for (05 R131). -/
  awaits : List Nat
  /-- Pieces of work whose slices ride in it (11 R289; 09 R246; 10 R280), and those whose results it waits for. -/
  slices : List Nat
  lists : List Nat
  /-- Lines of the WORK area it needs to be posted (log 85). -/
  room : Nat
  amps : Nat
  /-- Epoch start for which credits are granted. -/
  granted : Option Nat
  fired : Option Nat
  stallLate : Nat
  stallCredit : Nat
  deriving DecidableEq, Repr

/-- What a fill in flight is for (05 R131). -/
inductive FillFor where
  | load (ticket : Nat)
  | move (launch : Nat) (desc : List Byte)
  | operand (launch : Nat) (tensor : Nat)
  | spill (ctx : Nat) (ticket : Nat)
  | refill (ctx : Nat) (ticket : Nat)
  | repair (part : Nat) (page : Nat)
  /-- A passage of this module's own store that waits for lost pages (05 R141; 11 R315): request, entry rank, store, item. -/
  | passage (ctx rank store item : Nat)
  deriving DecidableEq, Repr

/-- A fill or spill in flight (05 R131, R135). -/
structure Fill where
  id : Nat
  part : Nat
  space : Nat
  peer : Nat
  addr : Nat
  len : Nat
  forWhat : FillFor
  issued : Nat
  /-- Bytes arrived so far from host memory or a peer. -/
  got : List Byte
  deriving DecidableEq, Repr

/-- What an unanswered peer command was for (08 R221, R235; 09 R262; 11 R315; 06 R161): `items` are (shard, row). -/
inductive CallFor where
  | search (search shard : Nat)
  | passage (ctx rank : Nat)
  | rows (job comp : Nat) (items : List (Nat × Nat))
  | update (ticket : Nat) (table : Nat)
  | fill (fill : Nat)
  deriving DecidableEq, Repr

structure Call where
  /-- Its identifier; frames carry it modulo 65,536 as their tag. -/
  tag : Nat
  part : Nat
  target : Nat
  replica : Nat
  onReplica : Bool
  forWhat : CallFor
  pay : List Byte
  /-- Reply bytes arrived so far. -/
  got : List Byte
  issued : Nat
  /-- Held back by a snapshot (12 R341). -/
  held : Bool
  deriving DecidableEq, Repr

/-- A row that a peer returned for a gather: component, shard, row, stored bytes, shift bytes, the owner's applied epoch,
and whether its table is degraded there (08 R221, R228, R233). -/
structure FetchedRow where
  job : Nat
  comp : Nat
  shard : Nat
  row : Nat
  bytes : List Byte
  shifts : List Byte
  epoch : Nat
  degraded : Bool
  deriving DecidableEq, Repr

/-! ### Stands and units (04, 13, 15) -/

inductive StandStatus where
  | active | spare | testing | sparetesting | retired | inactive
  deriving DecidableEq, Repr

/-- A built stand (04 R88, R89). -/
structure Stand where
  status : StandStatus
  logical : Option Nat
  part : Option Nat
  /-- Launch and task index in progress. -/
  task : Option (Nat × Nat)
  /-- Counts of its faults (15 R414). -/
  faults : List Nat
  /-- The stand, by physical index, that this spare is tested to replace (15 R415). -/
  replaces : Option Nat
  /-- Single-bit scratchpad errors it has corrected (04 R105). -/
  corrected : Nat
  deriving DecidableEq, Repr

inductive UnitStatus where
  | inService | testing | retired
  deriving DecidableEq, Repr

structure EngineSt where
  unit : EngineUnit
  status : UnitStatus
  job : Option Nat
  faults : List Nat
  /-- The partition it served last: the rotation goes on from there (13 R345). -/
  last : Option Nat
  deriving DecidableEq, Repr

/-! ### Cut arbiter (15) -/

inductive ThermState where
  | normal | warn | crit
  deriving DecidableEq, Repr

/-- Why a request was last refused (15 R408). -/
inductive WaitCause where
  | budget | partcap | order | thermal | lapsed
  deriving DecidableEq, Repr

structure CutRequest where
  launch : Nat
  part : Nat
  amps : Nat
  /-- Start of the epoch it names (15 R402). -/
  epoch : Nat
  arrived : Nat
  refusals : Nat
  cause : Option WaitCause
  deriving DecidableEq, Repr

/-- Credits held (15 R405): partition, launch, task, amperes; a release is due at the next epoch boundary once done. -/
structure Hold where
  part : Nat
  launch : Nat
  task : Nat
  amps : Nat
  done : Bool
  deriving DecidableEq, Repr

structure Cut where
  b : Nat
  ps : Nat
  bth : Nat
  caps : List Nat
  held : List Hold
  requests : List CutRequest
  therm : ThermState
  tmax : Int
  /-- CutBudget.LIMIT (15 R410). -/
  limit : BitVec 3
  pavg : Nat
  peak : Nat
  peakHr : Nat
  temps : List Int
  milliVolts : Nat
  milliAmps : Nat
  coreMilliVolts : Nat
  deriving DecidableEq, Repr

/-- The Cut arbiter after reset (15 R399, R409, R410); sensors read 0 (log 26). -/
def Cut.reset : Cut :=
  { b := 256, ps := 1000, bth := 1280, caps := List.replicate 32 0, held := [], requests := [], therm := .normal,
    tmax := 0, limit := 0, pavg := 0, peak := 0, peakHr := 0, temps := List.replicate 8 0, milliVolts := 0,
    milliAmps := 0, coreMilliVolts := 0 }

/-! ### Links and bridge (14) -/

inductive PortState where
  | down | training | up | retiring | pcie
  deriving DecidableEq, Repr

/-- A frame in a flow's queue (14 R382): its finish tag once it has joined the tagged part, and the count since which it
waits for its gate at the queue's head (14 R384). -/
structure QFrame where
  frame : Frame
  finish : Option W64
  gateSince : Option Nat
  deriving DecidableEq, Repr

/-- One of the 36 flows of a port (14 R381). -/
structure Flow where
  queue : List QFrame
  fLast : W64
  deriving DecidableEq, Repr

/-- LINK_CTL messages this module sends (14 R370, R378). -/
inductive LinkCtl where
  | hello (id : W16) (port lanes : Nat)
  | vector (v : List (W16 × Nat))
  | retire (lane : Nat)
  | nakMsg (seq : BitVec 12)
  deriving DecidableEq, Repr

/-- What a numbered flit carries (14 R375): a flit of a frame, with the frame's flow, or of a LINK_CTL message. -/
inductive SentWhat where
  | data (flow : Nat) (frame : Frame)
  | ctl (c : LinkCtl)
  deriving DecidableEq, Repr

/-- A flit kept in the replay buffer (14 R375): its LinkSeq, what it carries, which flit of it, and whether the last. -/
structure Sent where
  seq : BitVec 12
  what : SentWhat
  flit : Nat
  last : Bool
  deriving DecidableEq, Repr

structure Port where
  /-- LinkPortCtl (14 R386). -/
  ctl : W32
  /-- LinkPortSts fields. -/
  peerId : W16
  lanes : BitVec 4
  state : PortState
  /-- Lanes retired until the next cold reset (14 R376). -/
  retiredLanes : BitVec 4
  /-- Gate entries by bank × 64 + entry; unlisted entries are 0 (14 R383). -/
  gates : List (Nat × W64)
  pending : Bool
  activeBank : Bool
  gateErr : Bool
  pendCount : BitVec 6
  actCount : BitVec 6
  gateBase : W64
  /-- LinkGateBase in force for the active bank. -/
  activeBase : W64
  /-- A bank has been switched in (14 R383). -/
  gated : Bool
  txSeq : BitVec 12
  replay : List Sent
  /-- Flits to resend after a NAK. -/
  resend : List Sent
  rxSeq : BitVec 12
  discarding : Bool
  /-- Credits by channel × 8 + hop class (14 R373). -/
  credits : List Nat
  flows : List Flow
  blazeQ : List Frame
  /-- Counts since which a head frame waits for credits, by channel (14 R397). -/
  creditSince : List (Option Nat)
  ctlQ : List LinkCtl
  v : W64
  /-- Count until which a frame in transmission occupies the port (14 R368). -/
  busyUntil : Nat
  /-- Uncorrectable codewords of the last second: lane and count at which each was met (14 R376). -/
  uncorr : List (Nat × Nat)
  deriving DecidableEq, Repr

/-- Credits granted at link-up (14 R373): BLAZE, REQ, RSP. -/
def Port.linkUpCredits : List Nat :=
  List.replicate 8 16 ++ (256 :: List.replicate 7 32) ++ (256 :: List.replicate 7 32)

/-- A port after reset (14 R386). -/
def Port.reset : Port :=
  { ctl := 0, peerId := 0xFFFF, lanes := 0, state := .down, retiredLanes := 0, gates := [], pending := false,
    activeBank := false, gateErr := false, pendCount := 0, actCount := 0, gateBase := 0, activeBase := 0,
    gated := false, txSeq := 0, replay := [], resend := [], rxSeq := 0xFFF, discarding := false,
    credits := List.replicate 24 0, flows := List.replicate 36 ⟨[], 0⟩, blazeQ := [], creditSince := [none, none, none],
    ctlQ := [], v := 0, busyUntil := 0, uncorr := [] }

/-- A mapped window slot (02 R31, 14 R391). -/
structure Slot where
  fn : Nat
  slot : Nat
  module : Nat
  pair : Nat
  deriving DecidableEq, Repr

/-- A relayed read without answer (14 R392). -/
structure Relay where
  tag : Nat
  fn : Nat
  module : Nat
  len : Nat
  sent : Nat
  /-- The read has ended without its answer; the tag stays taken until that answer comes (14 R396). -/
  dead : Bool := false
  deriving DecidableEq, Repr

/-- What the bridge has issued on PCIe (model's own, log 33). -/
inductive HostOut where
  | write (fn : Nat) (addr : W64) (data : List Byte)
  | read (fn : Nat) (addr : W64) (len tag : Nat)
  | readDone (fn : Nat) (tag : Nat) (data : List Byte)
  | msix (fn vector : Nat)
  deriving DecidableEq, Repr

/-- A host read issued for a module (14 R394): PCIe tag, function, asking module, flow tag and fill. -/
structure HostReadSt where
  tag : Nat
  fn : Nat
  module : W16
  frameTag : W16
  fill : Option Nat
  len : Nat
  /-- An earlier read for the same asker failed, and its bytes go nowhere. -/
  dead : Bool := false
  deriving DecidableEq, Repr

/-- What is still to be read of host memory for an asker: the bridge cuts it into reads of the configured size (14 R395). -/
structure HostAsk where
  fn : Nat
  module : W16
  frameTag : W16
  fill : Option Nat
  addr : Nat
  len : Nat
  deriving DecidableEq, Repr

structure Bridge where
  slots : List Slot
  /-- Functions whose ImgWinErr.UNREACH is set (02 R61). -/
  winErr : List Nat
  relayWeight : Nat
  numVFs : Nat
  busMaster : List Nat
  msixEnabled : List Nat
  /-- MSI-X table words and pending bits, by function and byte offset (14 R390). -/
  msixTable : List ((Nat × Nat) × W32)
  msixPending : List (Nat × Nat)
  /-- Link rate in GT/s; 0 when down (14 R389). -/
  rate : Nat
  relays : List Relay
  hostReads : List HostReadSt
  readWait : List HostAsk
  /-- Configured sizes of a write's payload and of a read request, in bytes (14 R395; log 99). -/
  maxPayload : Nat
  maxRead : Nat
  /-- AER uncorrectable error status of each function (14 R395; log 99). -/
  aer : List (Nat × W32)
  deriving DecidableEq, Repr

def Bridge.reset : Bridge :=
  { slots := [], winErr := [], relayWeight := 1, numVFs := 0, busMaster := [], msixEnabled := [], msixTable := [],
    msixPending := [], rate := 0, relays := [], hostReads := [], readWait := [], maxPayload := 128, maxRead := 512, aer := [] }

/-- The counters the chapters name (05, 06 R179, 07 R214, 08 R236, 09 R270, 10 R285, 11 R320, 12 R325, R343, 13 R366,
14 R397, 15 R430, 16 R457, 04 R99). -/
inductive Ctr where
  | standDepStall | landingBytes | landingWait | tierWait | landingCe | landingUe | landingProt | memCe | memUe
  | chipperErr | skidBytes | skidDesc | skidSerial | skidSat | hostProt
  | sawInBytes | sawTokens | sawRepair | sawPieceCut | planerRepair | teaselDead | teaselResample | sampleNone
  | yardOcc | yardDistinct | yardCacheHit | yardCacheMiss | yardUpdRows | yardEpochWait
  | cruQueries | cruExpand | cruScored | cruExtend | cruLimit | cruPartial | cruQuiesceWait | cruPlanted | cruNan
  | tallyRows | tallyElems | tallyDups | tallyNan | tallyCe
  | serveSteps | serveTokDecode | serveTokPrefill | serveKvWait | servePaused | serveCancelDropped | serveCancelFreed
  | serveReplayed | serveSkipped
  | launchFired | launchStalled | launchStall | launchStallMax
  | blazeSent | blazeReceived | blazeOps | blazeMismatch | blazeTimeout | blazeDrop | blazeHold | blazeWaitMax
  | regWait
  | linkFecCorr | linkFecUncorr | linkReplay | linkLaneRet | linkBytes | linkCreditWait | linkGateWait
  | linkUnroutable | linkDupId | bridgeRelayTimeout | bridgeIrqUnmapped
  | cutGrant | cutWait | thermWarn | thermCrit | unitFault | unitRetired | segRetired | repairFill | objDamaged
  | coreRetired | peerDeclaredLost | configApplyFail
  deriving DecidableEq, Repr

/-- A counter's key: name, partition (or 0) and index (15 R411). -/
structure CtrKey where
  name : Ctr
  part : Nat
  idx : Nat
  deriving DecidableEq, Repr

/-- The machine state. -/
structure State where
  power : Power
  boot : Boot
  fuses : Fuses
  flash : Flash
  sec : Sec
  ident : Ident
  sb : SideBand
  /-- Launch Counter (12 R321). -/
  lc : W64
  /-- High half latched by a read of LcCount (02 R63); no reset value is given: 0, DESIGN CHOICE (log 25). -/
  lcLatch : W32
  /-- The Landing by module address (05 R118); unlisted addresses read 0. -/
  landing : Mem
  /-- Segments being zeroed (05 R129). -/
  zeroing : List Nat
  /-- Retired segments (15 R416) and the counts of double-bit errors by segment. -/
  segRetired : List Nat
  segErrs : List (Nat × Nat)
  /-- Spare segments of the reserve used (15 R416). -/
  sparesUsed : Nat
  t1 : T1
  pairs : List Pair
  parts : List Partition
  cmds : List Cmd
  ctxs : List Ctx
  stands : List Stand
  units : List EngineSt
  launches : List Launch
  fills : List Fill
  jobs : List Job
  searches : List Search
  calls : List Call
  fetched : List FetchedRow
  cut : Cut
  ports : List Port
  /-- Distance vectors heard, by port (14 R378). -/
  vectors : List (Nat × List (W16 × Nat))
  /-- Next FlowSeq of each flow sent: destination and channel (14 R372). -/
  flowTx : List ((W16 × Nat) × W16)
  /-- Next FlowSeq expected of each flow received, and frames held early. -/
  flowRx : List ((W16 × Nat) × W16)
  early : List Frame
  /-- Peers declared lost and not reinstated; counts at which known peers became unreachable (15 R420). -/
  lost : List W16
  unreach : List (W16 × Nat)
  bridge : Bridge
  ctr : List (CtrKey × Nat)
  /-- Data of the last read (model's own, log 22). -/
  readOut : List Byte
  /-- PCIe transactions issued (model's own, log 33). -/
  hostOut : List HostOut
  /-- Next identifier (model's own, log 41). -/
  nextId : Nat
  /-- Next index of a free value (model's own, log 41). -/
  freeIdx : Nat
  /-- Commands waiting, first in first out (model's own). -/
  pending : List Instr
  deriving DecidableEq, Repr

/-- Logical numbers in ascending physical order over the active stands (04 R88). -/
def Stand.assign (active passed : BitVec 68) : List Stand :=
  (List.range 68).map fun i =>
    if active.getLsbD i then
      { status := .active, logical := some ((List.range i).countP (active.getLsbD ·)), part := none, task := none,
        faults := [], replaces := none, corrected := 0 }
    else
      { status := if passed.getLsbD i then .spare else .inactive, logical := none, part := none, task := none,
        faults := [], replaces := none, corrected := 0 }

/-- The shared units in service (13 R344). -/
def EngineSt.all : List EngineSt :=
  ((List.range 8).map EngineUnit.traversal ++ (List.range 2).map EngineUnit.tally ++
    (List.range 16).map EngineUnit.lane ++ [EngineUnit.yarder, EngineUnit.skidder]).map
    fun u => { unit := u, status := .inService, job := none, faults := [], last := none }

/-- Fuses as the model names them at reset (log 5, log 6): level 1 (00 R1), nothing else blown, stands 0 to 63 active. -/
def Fuses.reset : Fuses :=
  { uds := 0, serial := 0, compat := 1, stepping := 0, rootKeyHash := List.replicate 4 0, rootRevoke := 0,
    secVersion := 0, lifeCount := 0, active := BitVec.ofNat 68 (2 ^ 64 - 1), passed := BitVec.ofNat 68 (2 ^ 68 - 1) }

/-- The module right after power-on reset, with SB_RESET_N held low by its pull-down (18 R466, R468; log 1): every
register at its Reset value, the stores empty, no command, no partition. -/
def State.reset : State :=
  { power := { inputOn := true, pwrgd := true, railTripped := false, resetHigh := false, straps := 0, dynAddr := none },
    boot := Boot.reset .powerOn, fuses := Fuses.reset,
    flash := { mem := [], buf := [], addr := 0, busy := false, err := false, code := 0, op := none, tainted := false },
    sec := Sec.reset, ident := Ident.reset, sb := { moduleId := 0xFFFF, lcLatch := 0, heldLow := [] },
    lc := 0, lcLatch := 0, landing := [], zeroing := [], segRetired := [], segErrs := [], sparesUsed := 0,
    t1 := T1.wiped, pairs := Pair.reset0 :: List.replicate 95 Pair.reset,
    parts := List.replicate 32 Partition.unbound, cmds := [], ctxs := [],
    stands := Stand.assign Fuses.reset.active Fuses.reset.passed, units := EngineSt.all,
    launches := [], fills := [], jobs := [], searches := [], calls := [], fetched := [], cut := Cut.reset,
    ports := List.replicate 16 Port.reset, vectors := [], flowTx := [], flowRx := [], early := [], lost := [],
    unreach := [], bridge := Bridge.reset, ctr := [], readOut := [], hostOut := [], nextId := 0, freeIdx := 0,
    pending := [] }

end Sys2Proof.Machine
end

