-- ==== Sys2Proof/Machine/Egress.lean ====
section
/-! DEFINITION. Counters, live steps, and how a frame leaves the module: routes, ports, and the egress queues with their
finish tags (14 R368, R371 to R373, R378, R379, R381, R382). -/

namespace Sys2Proof.Machine

/-- The outcome of every command but the two of the supply: after the core rail was turned off by heat nothing is
promised (15 R400, R429; log 8). -/
def live (s t : State) : Host.Outcome State Fault Refusal :=
  if s.power.railTripped then .fault .nothingPromised else .next t

/-- A counter raised by `n` (15 R411). -/
def bump (s : State) (name : Ctr) (part idx n : Nat) : State :=
  let k : CtrKey := ⟨name, part, idx⟩
  if n = 0 then s else { s with ctr := setKey s.ctr k (lookupD s.ctr k 0 + n) }

/-- A counter set to the greater of its value and `n`. -/
def bumpMax (s : State) (name : Ctr) (part idx n : Nat) : State :=
  let k : CtrKey := ⟨name, part, idx⟩
  if n ≤ lookupD s.ctr k 0 then s else { s with ctr := setKey s.ctr k n }

/-- A fresh identifier (log 41). -/
def fresh (s : State) : Nat × State := (s.nextId, { s with nextId := s.nextId + 1 })

/-- The present count as a natural number (12 R321). -/
def State.now (s : State) : Nat := s.lc.toNat

/-- The module id the module runs under (02 R61). -/
def State.myId (s : State) : W16 := s.ident.moduleId

def State.port (s : State) (i : Nat) : Port := s.ports.getD i Port.reset

def State.modPort (s : State) (i : Nat) (f : Port → Port) : State :=
  { s with ports := s.ports.set i (f (s.port i)) }

/-- Channel of a kind: 0 BLAZE, 1 REQ, 2 RSP (14 R371). -/
def kindChannel : FrameKind → Nat
  | .blaze => 0
  | .mboxWrite => 1 | .mboxRead => 1 | .peerReq => 1 | .peerData => 1 | .hostWrite => 1 | .hostRead => 1
  | .readData => 2 | .message => 2

/-- Payload bytes of a frame: the 16-byte frame header but in BLAZE frames, and its bytes (14 R371). -/
def framePayload (f : Frame) : Nat := (if f.kind = .blaze then 0 else 16) + f.data.length

/-- Flits of a frame, 224 payload bytes each; a Blaze token fills the first flit alone (14 R369, R371). -/
def frameFlits (f : Frame) : Nat :=
  if f.kind = .blaze then 1 + cdiv (f.data.length - 192) 224 else max 1 (cdiv (framePayload f) 224)

/-! ### Flits (14 R369, R371) -/

/-- Number of a kind in the Kind field (14 R371). -/
def kindNo : FrameKind → Nat
  | .mboxWrite => 1 | .mboxRead => 2 | .readData => 3 | .peerReq => 4 | .peerData => 5 | .message => 6 | .hostWrite => 7
  | .hostRead => 8 | .blaze => 9

/-- Payload bytes of a frame as its flits carry them: the 16-byte frame header but in BLAZE frames, then its bytes (14 R371). -/
def payloadBytes (f : Frame) : List Byte :=
  if f.kind = .blaze then f.data
  else leBytes 8 f.address.toNat ++ leBytes 4 f.length.toNat ++ leBytes 2 f.tag.toNat ++ [0, 0] ++ f.data

/-- Payload of flit `k` of a frame; a Blaze token fills the first one alone (14 R371). -/
def flitPayload (f : Frame) (k : Nat) : List Byte :=
  if f.kind = .blaze then (if k = 0 then f.data.take 192 else ((f.data.drop 192).drop (224 * (k - 1))).take 224)
  else ((payloadBytes f).drop (224 * k)).take 224

/-- One byte of the CRC-64 with the ECMA-182 polynomial, most significant bit first from zero (14 R369; log 100). -/
def crcByte (c : BitVec 64) (b : Byte) : BitVec 64 :=
  (List.range 8).foldl (fun c _ => if c.msb then (c <<< 1) ^^^ 0x42F0E1EBA9EA3693#64 else c <<< 1)
    (c ^^^ (b.setWidth 64 <<< 56))

def crc64 (l : List Byte) : BitVec 64 := l.foldl crcByte 0

/-- A flit with its Crc: Type, Ctl, the fields 0x02 to 0x0F, payload, and Kind with the partitions (14 R369). -/
def flitOf (type ctl : Nat) (fields payload tail : List Byte) : List Byte :=
  let l := [b8 type, b8 ctl] ++ fields ++ payload ++ List.replicate (224 - payload.length) 0 ++ bytesAt tail 0 8
  l ++ leBytes 8 (crc64 l).toNat

/-- Flit `k` of a frame on a port, under its link sequence number: the fields of R369. -/
def dataFlit (p : Port) (f : Frame) (k : Nat) (last : Bool) (seq : BitVec 12) : List Byte :=
  let pay := flitPayload f k
  flitOf 1 (kindChannel f.kind + 4 * boolNat (k == 0) + 8 * boolNat last)
    (leBytes 2 f.dest.toNat ++ leBytes 2 f.src.toNat ++ leBytes 2 f.flowSeq.toNat ++ [b8 pay.length, b8 f.hops] ++
      leBytes 2 seq.toNat ++ leBytes 2 p.rxSeq.toNat ++ leBytes 2 0) pay [b8 (kindNo f.kind), f.dstPart, f.srcPart]

/-- A received flit is good: 256 bytes whose Crc matches, of a valid Type and CHANNEL (14 R370). -/
def flitGood (l : List Byte) : Bool :=
  l.length == 256 && fld l 0xF8 8 == (crc64 (l.take 0xF8)).toNat && decide (fld l 0 1 ≤ 2) && decide (fld l 1 1 % 4 < 3)

/-- Number of active lanes of a LANES mask. -/
def laneCount (m : BitVec 4) : Nat := (List.range 4).countP (m.getLsbD ·)

/-- Flit time in ps by active lanes (14 R368). -/
def flitTime : Nat → Nat
  | 4 => 4234
  | 3 => 5645
  | 2 => 8467
  | _ => 16934

/-- Counts that a frame of `n` flits occupies the port (14 R368). -/
def occupancy (p : Port) (n : Nat) : Nat := cdiv (n * flitTime (laneCount p.lanes)) 1000

/-- Weight of a flow of a port (14 R381): RSP, TRANSIT, MODULE, RELAY, PART p. -/
def flowWeight (s : State) (q : Nat) : Nat :=
  match q with
  | 0 => 65535
  | 1 => 32768
  | 2 => 4096
  | 3 => s.bridge.relayWeight
  | n + 4 => (s.parts.getD n Partition.unbound).linkWeight

/-- `a` is earlier than `b` by the sign of their difference (14 R382). -/
def earlier (a b : W64) : Bool := (a - b).toInt < 0

/-- The later of two tags (14 R382). -/
def laterTag (a b : W64) : W64 := if earlier a b then b else a

/-- Overhead of a port: LinkPortCtl.OVERHEAD (14 R382, R386). -/
def portOverhead (p : Port) : Nat := bitsOf p.ctl.toNat 23 16

/-- Counted bytes of a frame at a port (14 R382). -/
def countedBytes (p : Port) (f : Frame) : Nat := framePayload f + portOverhead p

/-- `arrive` of 14 R382 for each untagged frame, while the tagged frames hold at most 16 MiB: `tagged` bytes so far, the
last tag, and whether no tagged frame stands ahead. -/
def tagQueue (p : Port) (weight : Nat) (v : W64) : Nat → Bool → W64 → List QFrame → List QFrame × W64
  | _, _, last, [] => ([], last)
  | held, empty, last, x :: r =>
    match x.finish with
    | some _ =>
      let t := tagQueue p weight v (held + countedBytes p x.frame) false last r
      (x :: t.1, t.2)
    | none =>
      let len := countedBytes p x.frame
      if held + len ≤ 0x1000000 then
        let start := if empty then laterTag v last else last
        let fin := start + BitVec.ofNat 64 ((len * 65536 + weight - 1) / weight)
        let t := tagQueue p weight v (held + len) false fin r
        ({ x with finish := some fin } :: t.1, t.2)
      else (x :: r, last)

/-- The queue of a flow with its untagged frames tagged as far as R382 lets them be. -/
def Flow.tagUp (p : Port) (weight : Nat) (f : Flow) : Flow :=
  let t := tagQueue p weight p.v 0 true f.fLast f.queue
  ⟨t.1, t.2⟩

/-- Links to a module through a port (14 R378): the neighbour's own count, and one more. -/
def portDistance (s : State) (i : Nat) (dest : W16) : Option Nat :=
  let p := s.port i
  if p.state = .up then
    if p.peerId = dest then some 1 else
      ((lookupD s.vectors i []).lookup dest).map (· + 1)
  else none

/-- Least link count to a module, none when it is unreachable (14 R378). -/
def linkCount (s : State) (dest : W16) : Option Nat :=
  match (List.range 16).filterMap (fun i => portDistance s i dest) with
  | [] => none
  | d :: r =>
    let m := r.foldl min d
    if m ≤ 8 then some m else none

/-- Is there a route to the module? A module reaches itself without links. -/
def reachable (s : State) (dest : W16) : Bool := dest == s.myId || (linkCount s dest).isSome

/-- The route set of a destination (14 R378). -/
def routeSet (s : State) (dest : W16) : List Nat :=
  match linkCount s dest with
  | none => []
  | some m => (List.range 16).filter fun i => portDistance s i dest == some m

/-- Index of a channel's and hop class's credits. -/
def creditIdx (channel hop : Nat) : Nat := channel * 8 + hop

/-! ### Time gates -/

/-- A gate entry of a port: bank × 64 + entry (14 R383). -/
def gateEntry (p : Port) (bank : Bool) (e : Nat) : W64 := lookupD p.gates (boolNat bank * 64 + e) 0

/-- Bit of a gate entry that opens a flow (14 R383); index 36 stands for BLAZE frames. -/
def gateBit : Nat → Nat
  | 0 => 30
  | 1 => 29
  | 2 => 28
  | 3 => 27
  | 36 => 31
  | n + 4 => 32 + n

/-- Entries of a bank, `n` of them. -/
def bankEntries (p : Port) (bank : Bool) (n : Nat) : List W64 := (List.range n).map (gateEntry p bank)

def gateDuration (e : W64) : Nat := bitsOf e.toNat 26 0
def gateOpen (flow : Nat) (e : W64) : Bool := bit e.toNat (gateBit flow)

/-- A gate list holds on a port (14 R383); not on the PCIe ports of a bridge (14 R386). -/
def gatesHold (p : Port) : Bool := bit p.ctl.toNat 1 && p.gated && p.state != .pcie

/-- The active gate list of a port (14 R383). -/
def activeList (p : Port) : List W64 := bankEntries p p.activeBank (p.actCount.toNat + 1)

/-- The flow of the frame's partition is closed in every entry of the port's active list (17 X6). -/
def partClosed (p : Port) (f : Frame) : Bool :=
  kindChannel f.kind == 1 && f.srcPart != 0xFF && gatesHold p &&
    (activeList p).all fun e => !gateOpen (4 + f.srcPart.toNat) e

/-- The port of the route set with the most free credits, the lowest of equals (14 R379), leaving out ports whose gate list
never opens the frame's flow; where none remains, the lowest of the set (17 X6). -/
def choosePort (s : State) (f : Frame) : Option Nat :=
  let free := fun i => (s.port i).credits.getD (creditIdx (kindChannel f.kind) f.hops) 0
  let set := routeSet s f.dest
  match set.filter fun i => !partClosed (s.port i) f with
  | [] => set.head?
  | i :: r => some (r.foldl (fun b i => if free b < free i then i else b) i)

/-- Put a frame into a port's queue: BLAZE frames oldest first, others into their flow (14 R381, R382). -/
def enqueueAt (s : State) (i q : Nat) (f : Frame) : State :=
  if f.kind = .blaze then s.modPort i fun p => { p with blazeQ := p.blazeQ ++ [f] }
  else s.modPort i fun p =>
    let fl := p.flows.getD q ⟨[], 0⟩
    { p with flows := p.flows.set q (Flow.tagUp p (flowWeight s q) { fl with queue := fl.queue ++ [⟨f, none, none⟩] }) }

/-- Route a frame into the queue of a port; without a route it is not sent and counted (14 R379). -/
def routeFrame (s : State) (q : Nat) (f : Frame) : State :=
  match choosePort s f with
  | some i => enqueueAt s i q f
  | none => bump s .linkUnroutable 0 0 1

/-- Frames queued on a port that left the route sets go by other ports where such ports exist, and otherwise wait (14
R377); those that stay join the tagged part as room comes (14 R382). -/
def reroutePort (s : State) (i : Nat) : State :=
  let p := s.port i
  let stays := fun (f : Frame) => (choosePort s f).isNone
  let s0 := s.modPort i fun p =>
    { p with blazeQ := p.blazeQ.filter stays
             flows := p.flows.mapIdx fun q fl =>
               Flow.tagUp p (flowWeight s q) { fl with queue := fl.queue.filter fun x => stays x.frame } }
  let s1 := (p.blazeQ.filter fun f => !stays f).foldl (fun s f => routeFrame s 0 f) s0
  (p.flows.zipIdx).foldl (fun s e =>
    (e.1.queue.filter fun x => !stays x.frame).foldl (fun s x => routeFrame s e.2 x.frame) s) s1

/-- Frames of a port's replay buffer that are not acknowledged whole, with their flows: their last flit is in it. -/
def unackedFrames (p : Port) : List (Nat × Frame) :=
  p.replay.filterMap fun x => match x.what with
    | .data q f => if x.last then some (q, f) else none
    | .ctl _ => none

/-- A port goes DOWN (14 R376, R378, R386): no flit that is not acknowledged is lost (14 R372), and every frame goes by
other ports where such ports exist, and otherwise waits. -/
def portDown (s : State) (i : Nat) : State :=
  let frames := unackedFrames (s.port i)
  let s1 := s.modPort i fun p =>
    { p with state := .down, peerId := 0xFFFF, lanes := 0, replay := [], resend := [], ctlQ := [], discarding := false }
  let s2 := { s1 with vectors := eraseKey s1.vectors i }
  reroutePort (frames.foldl (fun s e => match choosePort s e.2 with
    | some j => enqueueAt s j e.1 e.2
    | none => enqueueAt s i e.1 e.2) s2) i

/-- Module ids that UP ports show: neighbours, and what their vectors name (14 R378). -/
def knownIds (s : State) : List W16 :=
  (((List.range 16).flatMap fun i =>
    if (s.port i).state = .up then (s.port i).peerId :: (lookupD s.vectors i []).map (·.1) else []).eraseDups).filter
      fun m => m != s.myId && m != 0xFFFF

/-- The distance vector this module sends: its link count to every module id it knows, 0 to itself (14 R378; log 37). -/
def ownVector (s : State) : List (W16 × Nat) :=
  (s.myId, 0) :: (knownIds s).filterMap fun m => (linkCount s m).map fun d => (m, d)

/-- The module's vector is queued on every UP port (14 R378). -/
def queueVectors (s : State) : State :=
  { s with ports := s.ports.map fun (p : Port) => if p.state = .up then { p with ctlQ := p.ctlQ ++ [.vector (ownVector s)] } else p }

/-- Is any frame queued on the port? -/
def portHolds (p : Port) : Bool := !p.blazeQ.isEmpty || p.flows.any fun f => !f.queue.isEmpty

/-- What follows when routes may have changed since `old`: frames that wait on a port out of use go by ports that have a
route, the counts at which modules became unreachable are kept (15 R420), and a changed vector is sent at once (14 R378). -/
def routesChanged (old s : State) : State :=
  let s1 := (List.range 16).foldl (fun s i =>
    if (s.port i).state != .up && portHolds (s.port i) then reroutePort s i else s) s
  let gone := (knownIds old).filter fun m => reachable old m && !reachable s1 m
  let s2 := { s1 with unreach := gone.map (fun m => (m, s.now)) ++ s1.unreach.filter fun e => !reachable s1 e.1 }
  if ownVector old = ownVector s2 then s2 else queueVectors s2

/-- Send a frame of the module's own: its flow number counts the frames of its flow (14 R372). -/
def sendFrame (s : State) (q : Nat) (f : Frame) : State :=
  if (linkCount s f.dest).isNone then bump s .linkUnroutable 0 0 1 else
    let key := (f.dest, kindChannel f.kind)
    let n := lookupD s.flowTx key 0
    routeFrame { s with flowTx := setKey s.flowTx key (n + 1) } q
      { f with src := s.myId, flowSeq := n, hops := 0 }

/-- A frame with the given fields; source, flow number and hops are set when it is sent. -/
def mkFrame (kind : FrameKind) (dest : W16) (dstPart srcPart : Byte) (address : W64) (length : W32) (tag : W16)
    (data : List Byte) : Frame :=
  { kind, dest, src := 0, flowSeq := 0, hops := 0, dstPart, srcPart, address, length, tag, data, linkSeq := 0 }

/-- Bytes a frame can carry after its header: 20 flits less 16 bytes (14 R371). -/
def frameRoom : Nat := 4464

/-- Bytes cut into frames' worths, each with its offset; no bytes make one empty piece. -/
def framePieces (data : List Byte) : List (Nat × List Byte) :=
  match chunks frameRoom 0 data.length with
  | [] => [(0, [])]
  | cs => cs.map fun c => (c.1, (data.drop c.1).take c.2)

/-- A partition id as a frame carries it; 0xFF for the module (14 R369). -/
def partByte (p : Option Nat) : Byte := match p with
  | some n => b8 n
  | none => 0xFF

/-- Send bytes as MESSAGE frames in flow RSP: Address bits 63:56 say what they are, bits 55:32 are `sub`, bits 31:0 the
offset of the piece, Length the whole length (log 20). -/
def sendMessage (s : State) (dest : W16) (dstPart srcPart : Byte) (kind sub : Nat) (tag : W16) (data : List Byte) : State :=
  (framePieces data).foldl
    (fun s c => sendFrame s 0 (mkFrame .message dest dstPart srcPart
      (w64 (kind * 2 ^ 56 + sub % 2 ^ 24 * 2 ^ 32 + c.1)) (w32 data.length) tag c.2)) s

end Sys2Proof.Machine
end

