-- ==== Sys2Proof/Machine/Flags.lean ====
section
/-! DEFINITION. Every status word the spec gives the module, formed from the state: codes of 02 R50, R52, R53, the
registers behind the bridge window (02 R61), the side-band registers (18 R477, 15 R410, 16 R438, 14 R386). -/

namespace Sys2Proof.Machine

/-- 02 R50. -/
def Status.code : Status → Nat
  | .ok => 0 | .invalid => 1 | .wrongState => 2 | .noSpace => 3 | .digestMismatch => 4 | .sequence => 5
  | .unknownCommand => 6 | .denied => 7 | .notFound => 8 | .busy => 9 | .fault => 10 | .timeout => 11 | .auth => 12
  | .partialResult => 13

/-- 02 R52. -/
def Reason.code : Reason → Nat
  | .none => 0 | .done => 1 | .endToken => 2 | .stopString => 3 | .grammarDead => 4 | .grammarEos => 5 | .length => 6
  | .exported => 7 | .cancelledDropped => 8 | .cancelledFreed => 9 | .faultReplayed => 10

/-- 02 R53. -/
def PState.code : PState → Nat
  | .unbound => 0 | .bound => 1 | .loaded => 2 | .serving => 3 | .draining => 4 | .faulted => 5

/-- 02 R57. -/
def Code.num : Code → Nat
  | .nop => 0x0001 | .resultRelease => 0x0002
  | .moduleQuery => 0x0101 | .healthRead => 0x0121 | .powerSet => 0x0120 | .partitionBind => 0x0102
  | .partitionUnbind => 0x0103 | .partitionRebind => 0x0104 | .lifecycleAdvance => 0x0110 | .attestGet => 0x0111
  | .configExport => 0x0112 | .configImport => 0x0113 | .bridgeMap => 0x0130
  | .serveStart => 0x0201 | .serveStop => 0x0202 | .partitionStatus => 0x0203 | .digestRead => 0x0205
  | .partitionRecover => 0x0204
  | .modelSwapIn => 0x0301 | .modelSwapOut => 0x0302 | .indexLoad => 0x0303 | .indexUnload => 0x0304
  | .tableLoad => 0x0305 | .tokenizerLoad => 0x0306 | .grammarLoad => 0x0307 | .contentUnload => 0x0308
  | .querySubmit => 0x0401 | .generateSubmit => 0x0402 | .requestCancel => 0x0403 | .requestPause => 0x0404
  | .requestResume => 0x0405
  | .searchSubmit => 0x0501 | .gatherSubmit => 0x0502 | .updateSubmit => 0x0503 | .tallySubmit => 0x0504
  | .tokenizeSubmit => 0x0505 | .detokenizeSubmit => 0x0506 | .searchInsert => 0x0507 | .searchDelete => 0x0508
  | .plantStart => 0x0509
  | .barrierJoin => 0x0601 | .broadcastSend => 0x0602 | .snapshotTake => 0x0603 | .groupReset => 0x0604
  | .loopbackSet => 0x0701 | .selftestRun => 0x0702
  | .peerSearch => 0x0801 | .peerFetch => 0x0802 | .peerGather => 0x0803 | .peerUpdate => 0x0804

/-- Every command code (02 R57). -/
def Code.all : List Code :=
  [.nop, .resultRelease, .moduleQuery, .healthRead, .powerSet, .partitionBind, .partitionUnbind, .partitionRebind,
    .lifecycleAdvance, .attestGet, .configExport, .configImport, .bridgeMap, .serveStart, .serveStop, .partitionStatus,
    .digestRead, .partitionRecover, .modelSwapIn, .modelSwapOut, .indexLoad, .indexUnload, .tableLoad, .tokenizerLoad,
    .grammarLoad, .contentUnload, .querySubmit, .generateSubmit, .requestCancel, .requestPause, .requestResume,
    .searchSubmit, .gatherSubmit, .updateSubmit, .tallySubmit, .tokenizeSubmit, .detokenizeSubmit, .searchInsert,
    .searchDelete, .plantStart, .barrierJoin, .broadcastSend, .snapshotTake, .groupReset, .loopbackSet, .selftestRun,
    .peerSearch, .peerFetch, .peerGather, .peerUpdate]

/-- The command a code names (02 R57). -/
def Code.ofNum (n : Nat) : Option Code := Code.all.find? fun c => c.num == n

/-- Class of a command: bits 15:8 of its code (02 R37, R57). -/
def Code.cls (c : Code) : Nat := c.num / 256

/-- The life-cycle state code of a fuse count (16 R452). A count of 13 to 15, which R452 does not name, can only come
from a DECOMMISSIONED transition whose fuses did not all blow, and reads as DECOMMISSIONED (log 5). -/
def lifeState (c : Nat) : Nat := if c = 0 then 0 else if 13 ≤ c then 4 else (c - 1) % 3 + 1

def State.life (s : State) : Nat := lifeState s.fuses.lifeCount

/-- Firmware accepts commands on pair 0: StsState.READY (02 R61, 18 R472). -/
def State.isReady (s : State) : Bool := s.boot.phase == .ready

/-- The Ranger cores have been released since the reset (16 R437 step 6, 18 R472 step 7). -/
def State.released (s : State) : Bool :=
  s.boot.phase == .waitId || s.boot.phase == .wiping || s.boot.phase == .ready

/-- The management supply is up (18 R468, R478). -/
def State.managed (s : State) : Bool := s.power.inputOn

/-- StsIdent (02 R61). -/
def stsIdent (s : State) : W32 := s.fuses.compat ++ s.fuses.stepping ++ s.ident.moduleId

/-- StsState (02 R61). -/
def stsState (s : State) : W32 :=
  w32 (s.life * 2 ^ 29 + boolNat s.ident.bridge * 2 ^ 28 + boolNat s.boot.imageB * 2 ^ 24 +
    boolNat (s.cut.therm != .normal) * 4 + boolNat s.ident.degraded * 2 + boolNat s.isReady)

/-- StsEvents (02 R61). -/
def stsEvents (s : State) : W32 := s.ident.events.setWidth 32

def State.pair (s : State) (i : Nat) : Pair := s.pairs.getD i Pair.reset

def State.modPair (s : State) (i : Nat) (f : Pair → Pair) : State :=
  { s with pairs := s.pairs.set i (f (s.pair i)) }

def State.part (s : State) (i : Nat) : Partition := s.parts.getD i Partition.unbound

def State.modPart (s : State) (i : Nat) (f : Partition → Partition) : State :=
  { s with parts := s.parts.set i (f (s.part i)) }

/-- State of the partition that owns a pair; UNBOUND for none (02 R61). -/
def pairPState (s : State) (i : Nat) : PState :=
  match (s.pair i).part with
  | some p => (s.part p).state
  | none => .unbound

/-- ImgPairStatus (02 R61): PARTITION is 0xFF for pair 0 and 0 for a pair that is not bound. -/
def imgPairStatus (s : State) (i : Nat) : W32 :=
  let p := s.pair i
  let owner := if i = 0 then 0xFF else p.part.getD 0
  w32 (boolNat p.bound * 2 ^ 31 + (pairPState s i).code * 2 ^ 24 + owner * 2 ^ 16 + boolNat p.headErr * 4 +
    boolNat p.tailErr * 2 + boolNat p.unboundWr)

/-- A register of a slot page of pair `i` (02 R61); LcCount reads as R63 says, its high word the latched one. -/
def slotReg (s : State) (i off : Nat) : W32 :=
  let p := s.pair i
  match off with
  | 0x000 => p.reqTail.setWidth 32
  | 0x004 => p.cplHead.setWidth 32
  | 0x008 => p.reqHead.setWidth 32
  | 0x00C => p.cplTail.setWidth 32
  | 0x010 => imgPairStatus s i
  | 0x014 => p.expSeq
  | 0x800 => stsIdent s
  | 0x804 => stsState s
  | 0x808 => stsEvents s
  | 0x810 => s.lc.setWidth 32
  | 0x814 => s.lcLatch
  | _ => 0

/-- Slots mapped to a function (02 R61 ImgWinInfo.SLOTS). -/
def fnSlots (s : State) (fn : Nat) : Nat := s.bridge.slots.countP fun e => e.fn == fn

/-- A register of page 0 of a function (02 R61). -/
def page0Reg (s : State) (fn off : Nat) : W32 :=
  match off with
  | 0x000 => w32 (fnSlots s fn)
  | 0x004 => w32 (boolNat (s.bridge.winErr.contains fn))
  | _ => 0

/-- SecBootSts (16 R438): 0 until both slots have been checked (18 R478). -/
def secBootSts (s : State) : W32 :=
  if s.boot.checked then
    w32 (boolNat s.boot.recovery * 2 ^ 31 + boolNat s.boot.imageB * 2 ^ 30 + s.boot.aErr.toNat * 2 ^ 24 +
      s.boot.bErr.toNat * 2 ^ 20 + s.boot.aFails.toNat * 2 ^ 18 + s.boot.bFails.toNat * 2 ^ 16 +
      s.fuses.secVersion * 2 ^ 8 + s.fuses.rootRevoke.toNat * 2 ^ 4 + s.life)
  else 0

/-- LastReset code (15 R412). -/
def ResetCause.code : ResetCause → Nat
  | .powerOn => 0 | .resetInput => 1 | .groupReset => 2 | .watchdog => 3

/-- SbFlashSts (18 R477). -/
def sbFlashSts (s : State) : W32 :=
  w32 (boolNat s.flash.busy * 2 ^ 31 + boolNat s.flash.err * 2 ^ 30 + s.flash.code.toNat)

/-- A launch has been granted credits and has not fired: its credits count as held (15 R402, R403). -/
def unfiredGrant (l : Launch) : Bool := l.granted.isSome && l.fired.isNone

/-- Credits held now (15 R405, R410). -/
def heldAmps (s : State) : Nat :=
  (s.cut.held.map (·.amps)).sum + ((s.launches.filter unfiredGrant).map (·.amps)).sum

def ThermState.code : ThermState → Nat
  | .normal => 0 | .warn => 1 | .crit => 2

/-- CutBudget (15 R410). -/
def cutBudget (s : State) : W32 :=
  w32 (s.cut.limit.toNat * 2 ^ 24 + heldAmps s % 4096 * 2 ^ 12 + s.cut.b)

/-- PwrMeas (15 R410). -/
def pwrMeas (s : State) : W32 := w32 (s.cut.peak % 65536 * 65536 + s.cut.pavg % 65536)

/-- ThermSts (15 R410). -/
def thermSts (s : State) : W32 := w32 (s.cut.therm.code * 2 ^ 16) ||| (BitVec.ofInt 16 s.cut.tmax).setWidth 32

def PortState.code : PortState → Nat
  | .down => 0 | .training => 1 | .up => 2 | .retiring => 3 | .pcie => 4

/-- LinkPortSts (14 R386). -/
def linkPortSts (p : Port) : W32 := w32 (p.peerId.toNat * 65536 + p.lanes.toNat * 4096 + p.state.code * 256)

/-- LinkGateCtl (14 R386). -/
def linkGateCtl (p : Port) : W32 :=
  w32 (boolNat p.pending * 2 ^ 31 + boolNat p.activeBank * 2 ^ 30 + boolNat p.gateErr * 2 ^ 29 +
    p.pendCount.toNat * 256 + p.actCount.toNat)

/-- Is the offset in the management domain (18 R478)? -/
def sbManagement (off : Nat) : Bool :=
  off == 0x0000 || off == 0x0008 || off == 0x000C || off == 0x0100 || off == 0x0104 || off == 0x0108 || off == 0x0300 ||
    (decide (0x1000 ≤ off) && decide (off < 0x2000))

/-- The word of a 64-bit register at the low or the high offset. -/
def halfWord (v : W64) (high : Bool) : W32 := if high then (v >>> 32).setWidth 32 else v.setWidth 32

/-- A side-band register (18 R477); 0 where the domain does not answer (18 R478). -/
def sbReg (s : State) (off : Nat) : W32 :=
  if !s.managed || (!sbManagement off && !s.released) then 0
  else if off = 0x0000 then stsIdent s
  else if off = 0x0004 then stsState s
  else if off = 0x0008 then s.sb.moduleId
  else if off = 0x000C then w32 s.boot.lastReset.code
  else if off = 0x0010 then s.lc.setWidth 32
  else if off = 0x0014 then s.sb.lcLatch
  else if off = 0x0104 then s.flash.addr
  else if off = 0x0108 then sbFlashSts s
  else if off = 0x0200 then w32 s.cut.ps
  else if off = 0x0204 then cutBudget s
  else if off = 0x0208 then pwrMeas s
  else if off = 0x020C then thermSts s
  else if off = 0x0300 then secBootSts s
  else if 0x0400 ≤ off ∧ off < 0x0600 then
    let p := s.port ((off - 0x0400) / 0x20)
    match (off - 0x0400) % 0x20 with
    | 0x00 => p.ctl
    | 0x04 => linkPortSts p
    | 0x08 => linkGateCtl p
    | 0x10 => halfWord p.gateBase false
    | 0x14 => halfWord p.gateBase true
    | _ => 0
  else if 0x1000 ≤ off ∧ off < 0x2000 then w32 (leNat ((List.range 4).map fun i => ((s.flash.buf.lookup (off - 0x1000 + i)).getD 0)))
  else if 0x4000 ≤ off ∧ off < 0x8000 then
    let p := s.port ((off - 0x4000) / 0x400)
    let o := (off - 0x4000) % 0x400
    halfWord (gateEntry p (decide (0x200 ≤ o)) (o % 0x200 / 8)) (decide (o % 8 = 4))
  else 0

end Sys2Proof.Machine
end

