-- ==== Sys2Proof/Machine/Memory.lean ====
section
/-! DEFINITION. The stores of the module: canonical lists of cells, and the translation of partition addresses (05 R126,
R128, R144 to R147). `d` is what an unlisted address reads as: 0 in the Landing, in T1 and in SbFlashBuf, 0xFF in flash. -/

namespace Sys2Proof.Machine

/-- Canonical form: addresses strictly rising, no entry equal to `d`. -/
def Mem.wf (d : Byte) : Mem → Bool
  | [] => true
  | [c] => c.2 != d
  | c :: e :: r => c.2 != d && c.1 < e.1 && Mem.wf d (e :: r)

/-- One byte. -/
def Mem.read (d : Byte) : Mem → Nat → Byte
  | [], _ => d
  | c :: r, a => if c.1 = a then c.2 else Mem.read d r a

/-- The cells of `bs` laid from `a` on, less those that equal `d`. -/
def Mem.cells (d : Byte) : Nat → List Byte → Mem
  | _, [] => []
  | a, b :: bs => if b = d then Mem.cells d (a + 1) bs else (a, b) :: Mem.cells d (a + 1) bs

/-- The `n` bytes from `a` on, read off a memory whose cells below `a` are gone. -/
def Mem.walk (d : Byte) : Nat → Mem → Nat → List Byte
  | 0, _, _ => []
  | n + 1, [], a => d :: Mem.walk d n [] (a + 1)
  | n + 1, c :: r, a => if c.1 = a then c.2 :: Mem.walk d n r (a + 1) else d :: Mem.walk d n (c :: r) (a + 1)

/-- The `n` bytes from `a` on. -/
def Mem.readRange (d : Byte) (m : Mem) (a n : Nat) : List Byte :=
  Mem.walk d n (m.dropWhile fun c => decide (c.1 < a)) a

/-- Store bytes from `a` on. -/
def Mem.writeRange (d : Byte) (m : Mem) (a : Nat) (bs : List Byte) : Mem :=
  (m.filter fun c => decide (c.1 < a)) ++ Mem.cells d a bs ++ (m.filter fun c => decide (a + bs.length ≤ c.1))

/-- Forget the `n` bytes from `a` on: they read as `d`. -/
def Mem.clearRange (m : Mem) (a n : Nat) : Mem := m.filter fun c => decide (c.1 < a) || decide (a + n ≤ c.1)

/-! ### Landing -/

/-- Bytes of a segment (05 R119). -/
def segBytes : Nat := 0x10000
/-- Bytes of a frame (05 R143) and of a page (05 R139). -/
def frameBytes : Nat := 0x10000
def pageBytes : Nat := 4096
/-- Segments bound to partitions lie below this number (05 R125). -/
def bindableSegs : Nat := 5888
/-- Bindable module frames lie below this number (05 R143). -/
def bindableFrames : Nat := 21791392

/-- The line of a Landing address, and the bank and the row of it where that line lies (05 R118). -/
def landLine (a : Nat) : Nat := a / 256
def lineBank (l : Nat) : Nat := l % 1536
def lineRow (l : Nat) : Nat := l / 1536

/-- The segment of a Landing address, and the first of the 256 banks that hold a segment's lines (05 R119). -/
def landSegment (a : Nat) : Nat := a / segBytes
def segmentBank (g : Nat) : Nat := 256 * (g % 6)

/-- The segments of a list that hold no data any more read as zeros (05 R129). -/
def Mem.zeroSegs (m : Mem) (segs : List Nat) : Mem := m.filter fun c => !segs.contains (c.1 / segBytes)

/-- Module Landing address of a partition Landing address (05 R126); none outside the partition's share. -/
def landAddr (segs : List Nat) (a : Nat) : Option Nat :=
  (segs[a / segBytes]?).map fun g => g * segBytes + a % segBytes

/-- Is the whole range inside the partition's segments (05 R128)? -/
def landOk (segs : List Nat) (a n : Nat) : Bool := decide (a + n ≤ segs.length * segBytes)

/-- Bytes of a partition Landing range; outside the share zeros (05 R128). -/
def landRead (m : Mem) (segs : List Nat) (a n : Nat) : List Byte :=
  (chunks segBytes a n).flatMap fun c =>
    match landAddr segs c.1 with
    | some x => Mem.readRange 0 m x c.2
    | none => List.replicate c.2 0

/-- Store into a partition Landing range; bytes outside the share are dropped (05 R128). -/
def landWrite (m : Mem) (segs : List Nat) (a : Nat) (bs : List Byte) : Mem :=
  (chunks segBytes a bs.length).foldl
    (fun m c => match landAddr segs c.1 with
      | some x => Mem.writeRange 0 m x ((bs.drop (c.1 - a)).take c.2)
      | none => m) m

/-! ### T1 -/

/-- Is the whole range inside the partition's frames (05 R144)? -/
def t1Ok (frames : List (Nat × Nat)) (a n : Nat) : Bool := decide (a + n ≤ frames.length * frameBytes)

/-- Module page of a partition T1 address and its frame's generation (05 R143 to R145). -/
def t1Page (frames : List (Nat × Nat)) (a : Nat) : Option (Nat × Nat) :=
  (frames[a / frameBytes]?).map fun f => (16 * f.1 + a % frameBytes / pageBytes, f.2)

/-- Is the page written since bind (05 R146)? -/
def T1.written (t : T1) (page gen : Nat) : Bool := lookupD t.tags page 0 == gen

/-- Bytes of a partition T1 range: zeros from a page not written since bind (05 R146). -/
def t1Read (t : T1) (frames : List (Nat × Nat)) (a n : Nat) : List Byte :=
  (chunks pageBytes a n).flatMap fun c =>
    match t1Page frames c.1 with
    | some (p, g) =>
      if t.written p g then Mem.readRange 0 t.mem (p * pageBytes + c.1 % pageBytes) c.2 else List.replicate c.2 0
    | none => List.replicate c.2 0

/-- Does the range touch a poisoned page (05 R141)? -/
def t1Poisoned (t : T1) (frames : List (Nat × Nat)) (a n : Nat) : Bool :=
  (chunks pageBytes a n).any fun c => match t1Page frames c.1 with
    | some (p, g) => t.written p g && t.poison.contains p
    | none => false

/-- The page just written: first write since bind zeroes its other bytes and sets its tag (05 R146); a write of the
whole page ends its poison (05 R141). -/
def T1.writePage (t : T1) (page gen off : Nat) (bs : List Byte) : T1 :=
  let fresh := !t.written page gen
  let base := if fresh then Mem.clearRange t.mem (page * pageBytes) pageBytes else t.mem
  { t with
    mem := Mem.writeRange 0 base (page * pageBytes + off) bs
    tags := if fresh then setKey t.tags page gen else t.tags
    poison := if fresh || bs.length == pageBytes then t.poison.filter (· != page) else t.poison }

/-- Store into a partition T1 range; bytes outside the share are dropped. -/
def t1Write (t : T1) (frames : List (Nat × Nat)) (a : Nat) (bs : List Byte) : T1 :=
  (chunks pageBytes a bs.length).foldl
    (fun t c => match t1Page frames c.1 with
      | some (p, g) => t.writePage p g (c.1 % pageBytes) ((bs.drop (c.1 - a)).take c.2)
      | none => t) t

/-- Logical channel of a module page, and its page in that channel (05 R139). -/
def pageChannel (p : Nat) : Nat := p % 128
def channelPage (p : Nat) : Nat := p / 128

/-- Package and channel of it of a logical channel (05 R138). -/
def channelPackage (c : Nat) : Nat := c % 32
def packageChannel (c : Nat) : Nat := c / 32

/-- Raw page of a channel page, and the check page of its block of 16 (05 R140). -/
def rawPage (j : Nat) : Nat := 16 * (j / 15) + j % 15
def checkPage (j : Nat) : Nat := 16 * (j / 15) + 15

/-- Bytes of a check page that hold the tags and poison bits of its block, and where the 256 bytes of check bits of a channel page
begin in it: 16 bits for each word of 32 bytes (05 R140). -/
def metaBytes : Nat := 256
def checkOffset (j : Nat) : Nat := 256 + 256 * (j % 15)

/-! ### Retired channels (05 R148, R149) -/

/-- Module frames of a retirement reserve. -/
def reserveFrames : Nat := 173016

/-- Frames of the reserve that the `n`-th retirement uses, ascending: the module's, later what firmware took (05 R143, R149). -/
def T1.reserveAt (t : T1) (n : Nat) : List Nat :=
  if n = 0 then (List.range reserveFrames).map (bindableFrames + ·)
  else ((t.reserve.drop (reserveFrames * (n - 1))).take reserveFrames).reverse

/-- Where a page of channel `c` lies once `c` has been retired after the channels `past`: channel page j at the j-th reserve page that
is in none of them (05 R148); a page for which the reserve has none stays (log 96). -/
def T1.redirect (t : T1) (past : List Nat) (c page : Nat) : Nat :=
  if pageChannel page = c then
    (((t.reserveAt past.length).flatMap fun f => (List.range 16).map (16 * f + ·)).filter fun q =>
      !(c :: past).contains (pageChannel q)).getD (channelPage page) page
  else page

/-- Where a module page lies after the retirements of some channels, the oldest first. -/
def T1.placeFrom (t : T1) : List Nat → List Nat → Nat → Nat
  | [], _, page => page
  | c :: r, past, page => T1.placeFrom t r (past ++ [c]) (t.redirect past c page)

/-- Where a module page lies now: its retirement redirects it from its arming on (05 R148; 15 R419). -/
def T1.place (t : T1) (page : Nat) : Nat := t.placeFrom (t.retired ++ t.copying.toList) [] page

/-- The channel that serves a module page now. -/
def T1.channelOf (t : T1) (page : Nat) : Nat := pageChannel (t.place page)

/-! ### The mailbox region -/

/-- Module Landing address of offset `x` of a pair's region (02 R28); none where the offset lies in no storage. -/
def regionAddr (segs : List Nat) (x : Nat) : Option Nat :=
  if x < 0x30000 then (segs[x / segBytes]?).map fun g => g * segBytes + x % segBytes
  else if x < 0x100000 then none
  else (segs[3 + (x - 0x100000) / segBytes]?).map fun g => g * segBytes + (x - 0x100000) % segBytes

/-- Bytes 0x0002_8000 to 0x000F_FFFF are reserved: they read 0 and ignore writes (02 R27). -/
def regionReserved (x : Nat) : Bool := decide (0x28000 ≤ x) && decide (x < 0x100000)

def regionByte (m : Mem) (segs : List Nat) (x : Nat) : Byte :=
  if regionReserved x then 0 else match regionAddr segs x with
    | some a => Mem.read 0 m a
    | none => 0

/-- Bytes of a region range (02 R28). -/
def regionRead (m : Mem) (segs : List Nat) (x n : Nat) : List Byte :=
  (chunks 0x8000 x n).flatMap fun c =>
    if regionReserved c.1 then List.replicate c.2 0 else match regionAddr segs c.1 with
      | some a => Mem.readRange 0 m a c.2
      | none => List.replicate c.2 0

/-- Store into a region range (02 R28). -/
def regionWrite (m : Mem) (segs : List Nat) (x : Nat) (bs : List Byte) : Mem :=
  (chunks 0x8000 x bs.length).foldl
    (fun m c => if regionReserved c.1 then m else match regionAddr segs c.1 with
      | some a => Mem.writeRange 0 m a ((bs.drop (c.1 - x)).take c.2)
      | none => m) m

end Sys2Proof.Machine
end

