-- ==== Sys2Proof/Machine/Ops.lean ====
section
/-! DEFINITION. The operations every command shares: completion records and their ring (02 R40 to R46), interrupts
(14 R393), result payloads (02 R47), tickets, and the checks of a command up to permission (02 R38, R51). -/

namespace Sys2Proof.Machine

def State.ctx? (s : State) (id : Nat) : Option Ctx := s.ctxs.find? fun c => c.id == id

def State.modCtx (s : State) (id : Nat) (f : Ctx → Ctx) : State :=
  { s with ctxs := s.ctxs.map fun c => if c.id = id then f c else c }

def State.cmd? (s : State) (t : Nat) : Option Cmd := s.cmds.find? fun c => c.ticket == t

def State.modCmd (s : State) (t : Nat) (f : Cmd → Cmd) : State :=
  { s with cmds := s.cmds.map fun c => if c.ticket = t then f c else c }

def State.dropCmd (s : State) (t : Nat) : State := { s with cmds := s.cmds.filter fun c => c.ticket != t }

/-! ### Landing accesses -/

/-- The traffic classes of Landing accesses (01 R16). -/
inductive Flowing where
  | ctrl | link | fill | stand | engine | text
  deriving DecidableEq, Repr

/-- Code of a class (01 R16), the index of LANDING_BYTES. -/
def Flowing.code : Flowing → Nat
  | .ctrl => 0 | .link => 1 | .fill => 2 | .stand => 3 | .engine => 4 | .text => 5

/-- Place of a class's regulator in its partition (13 R346, R353); CTRL accesses are never regulated. -/
def Flowing.reg : Flowing → Option Nat
  | .ctrl => none | .stand => some 0 | .fill => some 1 | .engine => some 2 | .text => some 3 | .link => some 4

/-- Change a partition's regulator of a class. -/
def State.modReg (s : State) (i : Nat) (k : Flowing) (f : Regulator → Regulator) : State :=
  match k.reg with
  | none => s
  | some q => s.modPart i fun p => { p with regs := p.regs.mapIdx fun j r => if j = q then f r else r }

/-- Accesses of a partition to the Landing pass: their bytes are counted, and the class's regulator loses 64 for each 64-byte
unit (01 R16; 13 R353). -/
def charge (s : State) (i : Nat) (k : Flowing) (n : Nat) : State :=
  if n = 0 then s
  else bump (s.modReg i k fun r => { r with count := r.count - (64 * cdiv n 64 : Nat) }) .landingBytes i k.code n

/-- Does an access of the class wait for its regulator: one with a Rate whose count is not positive (13 R353)? -/
def flowHolds (s : State) (i : Nat) (k : Flowing) : Bool :=
  match k.reg with
  | none => false
  | some q => match (s.part i).regs[q]? with
    | some r => r.rate != 0 && decide (r.count ≤ 0)
    | none => false

/-- Accesses of a class pass, or wait for the regulator and have no effect yet (13 R353; log 86). -/
def regulated (i : Nat) (k : Flowing) (f : State → State) (s : State) : State :=
  if flowHolds s i k then s.modReg i k fun r => { r with waiting := true } else f s

/-- A counter that nothing else in the model decides gains a free number (log 27). -/
def bumpFree (s : State) (name : Ctr) (part idx : Nat) : State :=
  bump { s with freeIdx := s.freeIdx + 1 } name part idx (Config.freeValue s.freeIdx).toNat

/-- Accesses whose number the spec does not fix pass: a free number of bytes (log 86). -/
def chargeFree (s : State) (i : Nat) (k : Flowing) : State :=
  charge { s with freeIdx := s.freeIdx + 1 } i k (Config.freeValue s.freeIdx).toNat

/-! ### Interrupts -/

/-- Vector-control bit of an MSI-X table entry: 1, masked, as PCIe leaves it (14 R390). -/
def msixMasked (s : State) (fn vector : Nat) : Bool :=
  bit (lookupD s.bridge.msixTable (fn, 16 * vector + 12) 1).toNat 0

/-- Raise an MSI-X vector of a function (14 R390, R393): sent when MSI-X and bus mastering are on and the vector is not
masked, kept pending while it is masked. -/
def raiseMsix (s : State) (fn vector : Nat) : State :=
  if s.bridge.msixEnabled.contains fn then
    if msixMasked s fn vector then
      { s with bridge := { s.bridge with
          msixPending := if s.bridge.msixPending.contains (fn, vector) then s.bridge.msixPending
            else s.bridge.msixPending ++ [(fn, vector)] } }
    else if s.bridge.busMaster.contains fn then { s with hostOut := s.hostOut ++ [.msix fn vector] }
    else s
  else s

/-- Kinds of MESSAGE frames (log 20): a peer's reply and an interrupt relay. -/
def msgReply : Nat := 0
def msgIrq : Nat := 1

/-- Function and slot that map a pair of a module (14 R391). -/
def slotOf (s : State) (module pair : Nat) : Option Slot :=
  s.bridge.slots.find? fun e => e.module == module && e.pair == pair

/-- The bridge's side of an interrupt: the function that maps the pair raises the vector (14 R393). -/
def bridgeIrq (s : State) (module pair vector : Nat) : State :=
  match slotOf s module pair with
  | some e => raiseMsix s e.fn vector
  | none => bump s .bridgeIrqUnmapped 0 0 1

/-- Signal a pair's interrupt (14 R393): on the bridge itself when it maps the pair, else by a MESSAGE frame to the bridge
that relays to the pair (log 33). -/
def signal (s : State) (i : Nat) : State :=
  let p := s.pair i
  let vector := if i = 0 then 0 else p.geom.vector
  if s.ident.bridge && (slotOf s s.myId.toNat i).isSome then bridgeIrq s s.myId.toNat i vector
  else match p.via with
    | some b => sendMessage s b 0xFF (partByte p.part) msgIrq (i * 256 + vector) 0 []
    | none => bump s .bridgeIrqUnmapped 0 0 1

/-! ### Completion records -/

/-- Bytes of a record at completion index `idx` (02 R40, R41). -/
def recordBytes (r : Record) (idx : W16) (cplLog2 : Nat) : List Byte :=
  let phase := !(bit idx.toNat cplLog2)
  leBytes 4 r.seq.toNat ++ leBytes 2 r.status.code ++ [b8 r.reason.code] ++
    [b8 (boolNat r.more + 2 * boolNat r.handle.isSome)] ++ leBytes 2 (r.context.getD 0xFFFF) ++ [b8 r.partState.code] ++
    [partByte r.partition] ++ leBytes 4 (r.handle.getD 0).toNat ++ leBytes 4 r.resOffset ++ leBytes 4 r.resLength ++
    leBytes 4 r.detail.toNat ++ leBytes 4 (boolNat phase * 2 ^ 31 + idx.toNat)

/-- Records in the completion ring that the head has not passed (02 R61, R62). -/
def cplUsed (p : Pair) : Nat := (p.cplTail - p.cplHead).toNat

def cplFull (p : Pair) : Bool := decide (2 ^ p.geom.cplLog2 ≤ cplUsed p)

/-- Objects a partition holds (02 R55). -/
def contentCount (p : Partition) : Nat :=
  p.models.length + p.stores.length + p.indexes.length + p.tables.length + p.tokenizers.length + p.grammars.length

/-- LOADED, or BOUND for a partition without content (02 R55). -/
def loadedOr (p : Partition) : PState := if contentCount p = 0 then .bound else .loaded

/-- The final record of a request is posted: its context is free (11 R286), and draining ends with the last one
(11 R303, 02 R54): when that record is written into the ring, so a full ring holds the state back. DESIGN CHOICE (log 103). -/
def freeCtx (s : State) (id t : Nat) : State :=
  match s.ctxs.find? fun c => c.id == id && c.ticket == t with
  | none => s
  | some c =>
    let s := { s with ctxs := s.ctxs.filter fun x => x.id != id }
    if (s.part c.part).state == .draining && s.ctxs.all (fun x => x.part != c.part) then
      s.modPart c.part fun p => { p with state := loadedOr p }
    else s

/-- A posted final record ends its payload's reserve: what it does not report returns to the region (02 R49, 11 R297). -/
def closeResult (s : State) (i : Nat) (r : Record) : State :=
  match r.handle with
  | none => s
  | some h => s.modPair i fun p => { p with results := p.results.map fun x =>
      if x.handle = h then { x with final := true, len := max 1 (r.resOffset + r.resLength - x.off) } else x }

/-- Write a record at the tail of the ring, send it to its source on a peer pair, signal its interrupt (02 R42,
14 R380, R393). -/
def writeRecord (s : State) (i : Nat) (r : Record) : State :=
  let p := s.pair i
  let bytes := recordBytes r p.cplTail p.geom.cplLog2
  let off := 0x20000 + 32 * (p.cplTail.toNat % 2 ^ p.geom.cplLog2)
  let s := { s with landing := regionWrite s.landing p.segs off bytes }
  let s := match p.part with
    | some k => charge s k .ctrl 32
    | none => s
  let s := s.modPair i fun p => { p with cplTail := p.cplTail + 1 }
  let s := match r.dest with
    | some (m, tag) => sendMessage s m 0xFF (partByte p.part) msgReply 0 tag (bytes ++ r.data)
    | none => s
  let s := if r.irq then signal s i else s
  if r.more then s else
    let s := closeResult s i r
    match r.owner with
    | some id => freeCtx s id r.ticket
    | none => s

/-- Post a record, or keep it in order behind others while the ring is full (02 R46). Nothing is posted on a pair that is
not bound. -/
def post (s : State) (i : Nat) (r : Record) : State :=
  let p := s.pair i
  if !p.bound then s
  else if p.waiting.isEmpty && !cplFull p then writeRecord s i r
  else s.modPair i fun p => { p with waiting := p.waiting ++ [r] }

/-- Post waiting records in order while the ring has room: at most `n` of them (02 R46). -/
def drainRecords (i : Nat) : Nat → State → State
  | 0, s => s
  | n + 1, s =>
    let p := s.pair i
    match p.waiting with
    | [] => s
    | r :: rest =>
      if cplFull p then s
      else drainRecords i n (writeRecord (s.modPair i fun p => { p with waiting := rest }) i r)

/-- A record of a command that names partition `part` (02 R40); PartState 0 when it names none (log 23). Context is 0xFFFF but in a
request's own records, so also for REQUEST_CANCEL, REQUEST_PAUSE and REQUEST_RESUME: DESIGN CHOICE, R40 does not say whether the
context they name stands there (log 102). -/
def mkRecord (s : State) (seq : W32) (irq : Bool) (part : Option Nat) (st : Status) (detail : W32) (t : Nat) : Record :=
  { seq, status := st, reason := .none, more := false, context := none,
    partState := match part with
      | some p => (s.part p).state
      | none => .unbound,
    partition := part, handle := none, resOffset := 0, resLength := 0, detail, irq, owner := none, ticket := t,
    dest := none, data := [] }

/-! ### Result payloads -/

def resBytes (p : Pair) : Nat := p.geom.resUnits * 0x10000

/-- Region offset of the result region (02 R27). -/
def resBase (p : Pair) : Nat := 0x100000 + p.geom.payUnits * 0x10000

def alignUp (a n : Nat) : Nat := cdiv n a * a

/-- The lowest multiple of `align` at which `len` units fit below `limit` clear of the ranges `used`: one of 0 and the
ends of the ranges (logs 17, 18). -/
def lowestFree (align : Nat) (used : List (Nat × Nat)) (limit len : Nat) : Option Nat :=
  ((0 :: used.map fun u => alignUp align (u.1 + u.2)).filter fun a =>
      decide (a + len ≤ limit) && used.all fun u => !rangesMeet (a, len) u).foldl
    (fun b a => match b with
      | none => some a
      | some m => some (min m a)) none

/-- The lowest allocation index no live payload has. -/
def freeHandleIdx (live : List Nat) : Nat := (firstFrom (fun i => !live.contains i) (live.length + 1) 0 1).getD 0

/-- Allocate a result payload of `len` bytes (02 R47; placement and handle by log 18). -/
def allocResult (s : State) (i len : Nat) (final : Bool) : Option (W32 × Nat × State) :=
  let p := s.pair i
  match lowestFree 64 (p.results.map fun x => (x.off, x.len)) (resBytes p) (max len 1) with
  | none => none
  | some off =>
    let idx := freeHandleIdx (p.results.map fun x => x.handle.toNat % 65536)
    let gen := p.gens.getD idx 0 + 1
    let gens := (p.gens ++ List.replicate (idx + 1 - p.gens.length) 0).set idx gen
    let h := w32 (gen % 65536 * 65536 + idx)
    some (h, off, s.modPair i fun p => { p with results := p.results ++ [⟨h, off, max len 1, final⟩], gens })

/-- Write bytes at an offset of a pair's result region, in a class (01 R16). -/
def writeResultAs (s : State) (k : Flowing) (i off : Nat) (bs : List Byte) : State :=
  let p := s.pair i
  let s := { s with landing := regionWrite s.landing p.segs (resBase p + off) bs }
  match p.part with
  | some n => charge s n k bs.length
  | none => s

/-- Write bytes at an offset of a pair's result region. -/
def writeResult (s : State) (i off : Nat) (bs : List Byte) : State := writeResultAs s .ctrl i off bs

/-! ### Final records -/

/-- The global commands (12 R333). -/
def Code.isGlobal (c : Code) : Bool := c == .barrierJoin || c == .broadcastSend || c == .snapshotTake || c == .groupReset

/-- Detail of a final record: of a global command its Epoch (12 R333), but for the digest that check 5 of 02 R51 reports
(02 R50; log 98). -/
def Cmd.detail (c : Cmd) (st : Status) (detail : W32) : W32 :=
  if c.code.isGlobal && st != .digestMismatch then w32 (fld c.pay 4 4) else detail

/-- A global command that completes is counted under its status (12 R343). -/
def State.countGlobal (s : State) (c : Code) (part : Option Nat) (st : Status) : State :=
  bump s .blazeOps (part.getD 0) st.code (boolNat c.isGlobal)

/-- A command's final record has been formed: it is counted if it is a global command, and forgotten. -/
def State.endCmd (s : State) (c : Cmd) (st : Status) : State := (s.countGlobal c.code c.part st).dropCmd c.ticket

/-- The result of a peer command leaves the Landing in class LINK; bytes of T1 were FILL accesses alone (01 R16). -/
def State.replied (s : State) (c : Cmd) (bs : List Byte) : State :=
  match c.part with
  | some i => if c.code == .peerFetch then s else charge s i .link bs.length
  | none => s

/-- Post the final record of a command in progress and forget the command (02 R44). A result on a host-facing pair takes a
payload; without room the command waits (02 R47), unless the whole region could not hold it, which is ST_NO_SPACE
(02 R50, 07 R196, 08 R228, 09 R267, 10 R284). On a peer pair the result goes with the record (log 20). -/
def finish (s : State) (t : Nat) (st : Status) (detail : W32) (res : Option (List Byte)) : State :=
  match s.cmd? t with
  | none => s
  | some c =>
    let r := { mkRecord s c.seq c.irq c.part st (c.detail st detail) t with context := c.ctx }
    match res with
    | none =>
      (post s c.pair { r with dest := if 64 ≤ c.pair then some (c.src, c.tag) else none }).endCmd c st
    | some bs =>
      if 64 ≤ c.pair then
        (post (s.replied c bs) c.pair { r with dest := some (c.src, c.tag), data := bs, resLength := bs.length }).endCmd c st
      else if resBytes (s.pair c.pair) < bs.length then
        (post s c.pair { r with status := .noSpace, detail := c.detail .noSpace 0 }).endCmd c .noSpace
      else match allocResult s c.pair bs.length true with
        | some (h, off, s1) =>
          (post (writeResult s1 c.pair off bs) c.pair
            { r with handle := some h, resOffset := off, resLength := bs.length }).endCmd c st
        | none => s.modCmd t fun c => { c with roomWait := some (st, detail, bs) }

/-- The final record of a command without a result payload. -/
def finishPlain (s : State) (t : Nat) (st : Status) (detail : Nat) : State := finish s t st (w32 detail) none

/-! ### Form, permission, digest -/

/-- Classes of commands (02 R57). -/
def Code.isRequestControl (c : Code) : Bool := c == .requestCancel || c == .requestPause || c == .requestResume

/-- Form of the request header and of the payload's place (02 R37, R39). `r.pay` holds the payload bytes. -/
def headerForm (s : State) (c : Code) (r : Req) : Bool :=
  let h := r.hdr
  let p := s.pair r.pair
  let len := h.payLen.toNat
  let off := h.payOffset.toNat
  bitsOf h.flags.toNat 7 3 == 0 &&
  (h.prio == 0 || (h.prio == 1 && (c.cls == 4 || c.cls == 5))) &&
  (c.isRequestControl || h.context == 0xFFFF) &&
  h.rsv0B == 0 && h.rsv14 == 0 && h.rsv20 == 0 &&
  ((h.payLoc == 0 && decide (len ≤ 448) && off == 0) ||
    (h.payLoc == 1 && off % 64 == 0 && decide (off + len ≤ p.geom.payUnits * 0x10000))) &&
  r.pay.length == len

/-- Does a pair accept a class (02 R25)? -/
def pairAccepts (pair cls : Nat) : Bool :=
  if pair = 0 then cls == 0 || cls == 1
  else if pair < 64 then cls != 1 && cls != 8
  else cls == 8

/-- Is the command permitted in a life-cycle state (16 R450)? -/
def lifePermits (life : Nat) (c : Code) : Bool :=
  match c with
  | .nop | .resultRelease | .moduleQuery | .healthRead => true
  | .powerSet | .bridgeMap | .lifecycleAdvance | .attestGet => life != 4
  | .configExport => life == 2 || life == 3
  | .configImport => life == 1 || life == 2
  | .serveStart => life != 3 && life != 4
  | c => if c.cls == 4 || c.cls == 8 then life != 3 && life != 4 else life != 4

/-- Is a module admitted to a partition's peer pair (13 R355)? -/
def peerAdmitted (p : Partition) (src : W16) : Bool :=
  p.peers.any fun g => decide (g.1 ≤ src.toNat) && decide (src.toNat ≤ g.2)

/-- Check 3 of 02 R51: class and pair, life cycle, a transition under way (16 R454), the bridge's own command (02 R57),
admission of the sending peer (13 R355). -/
def permitted (s : State) (c : Code) (r : Req) : Bool :=
  pairAccepts r.pair c.cls && lifePermits s.life c && s.sec.transition.isNone &&
  (c != .bridgeMap || s.ident.bridge) &&
  (c.cls != 8 || match (s.pair r.pair).part with
    | some p => peerAdmitted (s.part p) r.src
    | none => false)

/-- Check 5 of 02 R51; a pair without a partition has no digest to compare (log 45). -/
def digestOk (s : State) (r : Req) : Bool :=
  !bit r.hdr.flags.toNat 2 || match (s.pair r.pair).part with
    | some p => r.hdr.expDigest == (s.part p).digest
    | none => true

/-- What a command's own checks find, in the order of 02 R51: payload form, state, named objects, capacity. -/
structure Need where
  form : Bool
  state : Bool
  found : Bool
  room : Option Status
  /-- Detail of the record when a capacity check fails. -/
  detail : Nat
  /-- Detail of the record when the state check fails. -/
  stateDetail : Nat := 0
  deriving DecidableEq, Repr

/-- A command whose own checks all pass. -/
def Need.pass : Need := ⟨true, true, true, none, 0, 0⟩

/-- First failing check of 02 R51 from permission on, with the Detail it gives. -/
def firstFail (s : State) (c : Code) (r : Req) (n : Need) : Option (Status × Nat) :=
  if !permitted s c r then some (.denied, 0)
  else if !(headerForm s c r && n.form) then some (.invalid, 0)
  else if !digestOk s r then some (.digestMismatch, match (s.pair r.pair).part with
    | some p => (s.part p).digest.toNat % 2 ^ 32
    | none => 0)
  else if !n.state then some (.wrongState, n.stateDetail)
  else if !n.found then some (.notFound, 0)
  else n.room.map fun st => (st, n.detail)

/-- The command as kept until its final record. -/
def mkCmd (c : Code) (part : Option Nat) (r : Req) (t : Nat) : Cmd :=
  { ticket := t, pair := r.pair, code := c, seq := r.hdr.seq, irq := bit r.hdr.flags.toNat 0, part, ctx := none,
    src := r.src, tag := r.tag, pay := r.pay, roomWait := none }

/-- Commands that begin or change work of a partition: taken while a re-bind is pending they start after the switch (13 R362).
Mailbox commands, reads of the partition, SERVE_STOP and what acts at a boundary are not held (13 R362, R364; log 93). -/
def startsAfterSwitch : Code → Bool
  | .serveStart | .modelSwapIn | .modelSwapOut | .indexLoad | .indexUnload | .tableLoad | .tokenizerLoad | .grammarLoad
  | .contentUnload | .searchSubmit | .gatherSubmit | .updateSubmit | .tallySubmit | .tokenizeSubmit | .detokenizeSubmit
  | .searchInsert | .searchDelete | .plantStart | .barrierJoin | .broadcastSend | .snapshotTake | .groupReset | .loopbackSet
  | .selftestRun | .peerSearch | .peerFetch | .peerGather | .peerUpdate => true
  | _ => false

/-- A re-bind taken before the command is pending in its partition. -/
def switchPending (s : State) (part : Option Nat) (t : Nat) : Bool :=
  match part with
  | some i => match (s.part i).rebind with
    | some rb => decide (rb.ticket < t)
    | none => false
  | none => false

/-- Run a command that has its ticket: checks 3 to 8 of 02 R51, then its effect. A command that passed its checks and waits
for a re-bind's switch (13 R362) is run a second time after it, for its effect alone. -/
def runCmd (c : Code) (part : Option Nat) (need : Need) (eff : Nat → State → State) (r : Req) (t : Nat) (s : State) : State :=
  if (s.cmd? t).isSome then eff t s
  else
    let s1 := { s with cmds := s.cmds ++ [mkCmd c part r t] }
    match firstFail s c r need with
    | some (st, d) => finishPlain s1 t st d
    | none => if startsAfterSwitch c && switchPending s part t then s1 else eff t s1

/-- Every command of a pair with a lower ticket has posted its final record (02 R45). -/
def earlierDone (s : State) (i t : Nat) : Bool :=
  s.cmds.all (fun c => c.pair != i || decide (t ≤ c.ticket)) &&
  (s.pair i).fenced.all (fun f => decide (t ≤ f.1)) &&
  (s.pair i).waiting.all (fun r => r.more || decide (t ≤ r.ticket))

/-- A command arrives at the firmware: its sequence check (02 R38), the fence (02 R45, log 9), then `start`. Firmware takes
commands only once READY (18 R472) and from a bound pair (02 R24). -/
def enter (c : Code) (start : Req → Nat → State → State) (r : Req) (s : State) : State :=
  let p := s.pair r.pair
  if !s.isReady || !p.bound || decide (96 ≤ r.pair) then s
  else
    let t := s.nextId
    let s := { s with nextId := t + 1 }
    let irq := bit r.hdr.flags.toNat 0
    if r.hdr.seq ≠ p.expSeq then
      (post s r.pair { mkRecord s r.hdr.seq irq p.part .sequence p.expSeq t with
        dest := if 64 ≤ r.pair then some (r.src, r.tag) else none }).countGlobal c p.part .sequence
    else
      let s := s.modPair r.pair fun p => { p with expSeq := p.expSeq + 1 }
      if bit r.hdr.flags.toNat 1 && !earlierDone s r.pair t then
        s.modPair r.pair fun p => { p with fenced := p.fenced ++ [(t, c, r)] }
      else start r t s

/-- The partition of the pair a command came on. -/
def pairPart (s : State) (r : Req) : Option Nat := (s.pair r.pair).part

/-- The partition a command on a partition pair acts on. -/
def reqPart (s : State) (r : Req) : Partition := match pairPart s r with
  | some p => s.part p
  | none => Partition.unbound

/-- The partition id a command on a partition pair acts on; 0 where there is none, which `reqPart` shows UNBOUND. -/
def reqPid (s : State) (r : Req) : Nat := (pairPart s r).getD 0

end Sys2Proof.Machine
end

