-- ==== Sys2Proof/Machine/Operands.lean ====
section
/-! DEFINITION. Operand forms: payloads that more than one command or step reads, parsed once. A payload must hold its whole
structure; a byte it does not hold reads 0 and fails `has` (log 47). -/

namespace Sys2Proof.Machine

/-- Does the payload hold `n` bytes? -/
def has (l : List Byte) (n : Nat) : Bool := decide (n ≤ l.length)

/-- A one-byte partition id and seven reserved bytes (13 R356, 15 R425). -/
def partitionForm (l : List Byte) : Bool := has l 8 && zeroAt l 1 7 && decide (fld l 0 1 < 32)

/-- The partition a management payload names in its first byte, none above 31. -/
def namedPart (l : List Byte) : Option Nat :=
  if l.isEmpty then none else if fld l 0 1 < 32 then some (fld l 0 1) else none

/-! ### Binding payload (13 R346) -/

structure BindPay where
  part : Nat
  keepConfig : Bool
  kvCompress : Bool
  stands : Nat
  linkWeight : Nat
  segs : Nat
  frames : Nat
  configLen : Nat
  configStart : Nat
  regs : List (Nat × Nat)
  pairs : List (Nat × Geometry)
  runs : List (Nat × Nat × Nat)
  peers : List (Nat × Nat)
  deriving DecidableEq, Repr

/-- Offsets of the arrays of a binding payload (13 R346). -/
def bindRunsAt (l : List Byte) : Nat := 0x50 + 16 * fld l 2 1
def bindPeersAt (l : List Byte) : Nat := bindRunsAt l + 8 * fld l 3 1
def bindEnd (l : List Byte) : Nat := bindPeersAt l + 4 * fld l 5 1

/-- Geometry record at an offset (02 R26). -/
def geometryAt (l : List Byte) (o : Nat) : Nat × Geometry :=
  (fld l o 1, ⟨fld l (o + 1) 1, fld l (o + 2) 1, fld l (o + 4) 2, fld l (o + 6) 2, fld l (o + 8) 2⟩)

def bindParse (l : List Byte) : BindPay :=
  { part := fld l 0 1, keepConfig := bit (fld l 1 1) 1, kvCompress := bit (fld l 1 1) 0, stands := fld l 4 1,
    linkWeight := fld l 6 2, segs := fld l 8 4, frames := fld l 0xC 4, configLen := fld l 0x10 4,
    configStart := fld l 0x14 4,
    regs := (List.range 5).map fun k => (fld l (0x20 + 8 * k) 2, fld l (0x24 + 8 * k) 4),
    pairs := (List.range (fld l 2 1)).map fun k => geometryAt l (0x50 + 16 * k),
    runs := (List.range (fld l 3 1)).map fun k =>
      let o := bindRunsAt l + 8 * k
      (fld l o 2, fld l (o + 2) 2, fld l (o + 4) 1),
    peers := (List.range (fld l 5 1)).map fun k =>
      let o := bindPeersAt l + 4 * k
      (fld l o 2, fld l (o + 2) 2) }

/-- Segments of a mailbox region (02 R28). -/
def regionSegs (g : Geometry) : Nat := 3 + g.payUnits + g.resUnits

/-- Ranges of a geometry record (02 R26, R29). -/
def geometryOk (p : Nat × Geometry) : Bool :=
  let g := p.2
  decide (1 ≤ p.1 ∧ p.1 ≤ 63 ∧ 3 ≤ g.reqLog2 ∧ g.reqLog2 ≤ 8 ∧ 3 ≤ g.cplLog2 ∧ g.cplLog2 ≤ 10 ∧ 1 ≤ g.payUnits ∧
    g.payUnits ≤ 1024 ∧ 1 ≤ g.resUnits ∧ g.resUnits ≤ 960 ∧ g.vector ≤ 63)

/-- Runs cover the segments from `at_` to `n` in order (13 R348). -/
def runsCover (n : Nat) : Nat → List (Nat × Nat × Nat) → Bool
  | a, [] => a == n
  | a, r :: rest => r.1 == a && decide (1 ≤ r.2.1 ∧ r.2.1 ≤ 5888 ∧ r.2.2 ≤ 4) && runsCover n (a + r.2.1) rest

/-- Segments of an area (13 R348). -/
def areaSize (runs : List (Nat × Nat × Nat)) (area : Nat) : Nat :=
  ((runs.filter fun r => r.2.2 == area).map fun r => r.2.1).sum

/-- Area of a partition segment (13 R348). -/
def areaOf (runs : List (Nat × Nat × Nat)) (i : Nat) : Option Nat :=
  (runs.find? fun r => decide (r.1 ≤ i ∧ i < r.1 + r.2.1)).map fun r => r.2.2

/-- Partition segments of an area, ascending. -/
def areaSegs (runs : List (Nat × Nat × Nat)) (area : Nat) : List Nat :=
  (runs.filter fun r => r.2.2 == area).flatMap fun r => (List.range r.2.1).map (r.1 + ·)

/-- Regions of the named pairs and of the peer pair, which takes the lowest pair's geometry (02 R26, 13 R348). -/
def regionsNeed (pairs : List (Nat × Geometry)) : Nat :=
  (pairs.map fun p => regionSegs p.2).sum + match pairs with
    | [] => 0
    | p :: _ => regionSegs p.2

/-- A regulator record (13 R347). -/
def regulatorOk (r : Nat × Nat) : Bool :=
  if r.1 = 0 then r.2 == 0 else r.2 % 64 == 0 && decide (4096 ≤ r.2 ∧ r.2 ≤ 16777216)

/-- Form of a binding payload (13 R346 to R349, R355; 02 R26, R29). -/
def bindForm (l : List Byte) (rebind : Bool) : Bool :=
  let b := bindParse l
  has l 0x50 && has l (bindEnd l) && zeroAt l 0x18 8 && zeroAt l 0x48 8 &&
  decide (b.part < 32) && decide (fld l 1 1 < if rebind then 4 else 2) &&
  decide (1 ≤ b.pairs.length ∧ b.pairs.length ≤ 63) && decide (1 ≤ b.runs.length ∧ b.runs.length ≤ 32) &&
  decide (b.stands ≤ 64) && decide (b.peers.length ≤ 16) && decide (1 ≤ b.linkWeight) &&
  decide (b.segs ≤ bindableSegs) && decide (b.frames ≤ bindableFrames) && decide (b.configLen ≤ 65536) &&
  (if b.keepConfig || b.configLen == 0 then b.configLen == 0 && b.configStart == 0
    else b.configStart % 8 == 0 && has l (b.configStart + b.configLen)) &&
  (List.range 5).all (fun k => zeroAt l (0x22 + 8 * k) 2) && b.regs.all regulatorOk &&
  b.pairs.all geometryOk && ascending (b.pairs.map (·.1)) &&
  (List.range b.pairs.length).all (fun k => zeroAt l (0x53 + 16 * k) 1 && zeroAt l (0x5A + 16 * k) 6) &&
  runsCover b.segs 0 b.runs && (List.range b.runs.length).all (fun k => zeroAt l (bindRunsAt l + 8 * k + 5) 3) &&
  decide (16 ≤ areaSize b.runs 4) && decide (regionsNeed b.pairs ≤ areaSize b.runs 0) &&
  b.peers.all fun g => decide (g.1 ≤ g.2)

end Sys2Proof.Machine
end

