-- ==== Sys2Proof/Machine/Sha.lean ====
section
/-! DEFINITION. SHA-384 as FIPS 180-4 gives it; the manual names the standard and gives no tables (12 R329, 16 R439; log
11). The constants are formed from their definition: fractional parts of square and cube roots of the first primes. -/

namespace Sys2Proof.Machine

/-- Greatest r below 2^n with r^k at most v, found from the top bit down. -/
def rootBits (k v : Nat) : Nat → Nat → Nat
  | 0, r => r
  | n + 1, r => if (r + 2 ^ n) ^ k ≤ v then rootBits k v n (r + 2 ^ n) else rootBits k v n r

/-- The first `n` primes from `c` on that no member of `ps` divides. -/
def primesFrom : Nat → Nat → Nat → List Nat → List Nat
  | 0, _, _, ps => ps
  | _ + 1, 0, _, ps => ps
  | fuel + 1, n + 1, c, ps =>
    if ps.all fun p => c % p != 0 then primesFrom fuel n (c + 1) (ps ++ [c]) else primesFrom fuel (n + 1) (c + 1) ps

/-- The first 80 primes. -/
def primes80 : List Nat := primesFrom 420 80 2 []

/-- Round constants (FIPS 180-4, 4.2.3). -/
def shaK : List Nat := primes80.map fun p => rootBits 3 (p * 2 ^ 192) 68 0 % 2 ^ 64

/-- Initial hash value of SHA-384 (FIPS 180-4, 5.3.4). -/
def shaH0 : List Nat := ((primes80.drop 8).take 8).map fun p => rootBits 2 (p * 2 ^ 128) 70 0 % 2 ^ 64

def add64 (a b : Nat) : Nat := (a + b) % 2 ^ 64

def rotr64 (x n : Nat) : Nat := (x >>> n) ||| ((x <<< (64 - n)) % 2 ^ 64)

def not64 (x : Nat) : Nat := (2 ^ 64 - 1) ^^^ x

/-- Message schedule (FIPS 180-4, 6.4.2): the last 16 words in `w`, newest first, and the words formed. -/
def shaSchedule : Nat → List Nat → List Nat → List Nat
  | 0, _, out => out.reverse
  | n + 1, win, out =>
    let a := win.getD 1 0
    let b := win.getD 14 0
    let s1 := rotr64 a 19 ^^^ rotr64 a 61 ^^^ (a >>> 6)
    let s0 := rotr64 b 1 ^^^ rotr64 b 8 ^^^ (b >>> 7)
    let x := (s1 + win.getD 6 0 + s0 + win.getD 15 0) % 2 ^ 64
    shaSchedule n (x :: win.take 15) (x :: out)

/-- One round on the eight working variables. -/
def shaRound (v : List Nat) (kw : Nat × Nat) : List Nat :=
  match v with
  | [a, b, c, d, e, f, g, h] =>
    let s1 := rotr64 e 14 ^^^ rotr64 e 18 ^^^ rotr64 e 41
    let ch := (e &&& f) ^^^ (not64 e &&& g)
    let t1 := (h + s1 + ch + kw.1 + kw.2) % 2 ^ 64
    let s0 := rotr64 a 28 ^^^ rotr64 a 34 ^^^ rotr64 a 39
    let mj := (a &&& b) ^^^ (a &&& c) ^^^ (b &&& c)
    [add64 t1 (add64 s0 mj), a, b, c, add64 d t1, e, f, g]
  | v => v

/-- The words of a 128-byte block, big-endian. -/
def shaWords (block : List Byte) : List Nat := (List.range 16).map fun i => beNat ((block.drop (8 * i)).take 8)

def shaBlock (h : List Nat) (block : List Byte) : List Nat :=
  let w := shaWords block
  let ws := w ++ shaSchedule 64 w.reverse []
  (List.zip h ((List.zip shaK ws).foldl shaRound h)).map fun p => add64 p.1 p.2

/-- Blocks of a padded message, at most `n` of them. -/
def shaBlocks : Nat → List Nat → List Byte → List Nat
  | 0, h, _ => h
  | n + 1, h, m => if m.isEmpty then h else shaBlocks n (shaBlock h (m.take 128)) (m.drop 128)

/-- Padding (FIPS 180-4, 5.1.2). -/
def shaPad (m : List Byte) : List Byte :=
  m ++ [0x80] ++ List.replicate ((111 + 128 - m.length % 128) % 128) 0 ++ beBytes 16 (8 * m.length)

/-- SHA-384: 48 bytes in the order of the standard. -/
def sha384 (m : List Byte) : List Byte :=
  ((shaBlocks (m.length / 128 + 2) shaH0 (shaPad m)).take 6).flatMap (beBytes 8)

/-- The digest as a number, byte 0 least significant. -/
def digestOf (m : List Byte) : Digest384 := BitVec.ofNat 384 (leNat (sha384 m))

def digestBytes (d : Digest384) : List Byte := leBytes 48 d.toNat

end Sys2Proof.Machine
end

