-- ==== Sys2Proof/Machine/Numbers.lean ====
section
/-! DEFINITION. The arithmetic every engine shares (03): FP32 and BF16 as bit patterns, the exact value of a pattern, one
rounding to nearest with ties to even (level 1), the conversion out of an accumulator (level 0), the array's dot product,
the rotation stage, reductions, conversions and the elementary functions. -/

namespace Sys2Proof.Machine

/-- The value of a pattern: a finite one is (−1)^neg × m × 2^e (03 R64 to R66). -/
inductive Num where
  | nan
  | inf (neg : Bool)
  | fin (neg : Bool) (m : Nat) (e : Int)
  deriving DecidableEq, Repr

/-- Canonical quiet NaNs (03 R65). -/
def nan32 : W32 := 0x7FC00000
def nan16 : W16 := 0x7FC0

/-- Value of a pattern with `f` fraction bits, an 8-bit exponent of bias 127, subnormals kept (03 R64, R66). -/
def decodeNum (f n : Nat) : Num :=
  let neg := bit n (f + 8)
  let e := bitsOf n (f + 7) f
  let m := n % 2 ^ f
  if e = 255 then (if m = 0 then .inf neg else .nan)
  else if e = 0 then .fin neg m (-126 - (f : Int))
  else .fin neg (m + 2 ^ f) ((e : Int) - 127 - (f : Int))

def num32 (w : W32) : Num := decodeNum 23 w.toNat
def num16 (w : W16) : Num := decodeNum 7 w.toNat

/-- Bits of a finite magnitude m × 2^e rounded to nearest, ties to even, to `f` fraction bits; a magnitude that rounds
beyond the range gives ∞ (03 R80). `low` says that the exact magnitude lies above m × 2^e by less than 2^e. -/
def roundMag (f m : Nat) (e : Int) (low : Bool) : Nat :=
  let emin : Int := -126 - (f : Int)
  let m := 4 * m + (if low then 1 else 0)
  let e := e - 2
  if m = 0 then 0 else
    let q := max (e + (m.log2 : Int) - (f : Int)) emin
    let hi :=
      if q ≤ e then m * 2 ^ (e - q).toNat
      else
        let sh := (q - e).toNat
        let h := m >>> sh
        let r := m % 2 ^ sh
        let half := 2 ^ (sh - 1)
        if half < r || (r == half && h % 2 == 1) then h + 1 else h
    min ((q - emin).toNat * 2 ^ f + hi) (255 * 2 ^ f)

/-- The FP32 pattern of a value, level 1 (03 R80). -/
def enc32 (x : Num) (low : Bool) : W32 :=
  match x with
  | .nan => nan32
  | .inf neg => w32 (boolNat neg * 2 ^ 31 + 0x7F800000)
  | .fin neg m e => w32 (boolNat neg * 2 ^ 31 + roundMag 23 m e low)

/-- The BF16 pattern of a value in one rounding, level 1 (03 R80, R85). -/
def enc16 (x : Num) : W16 :=
  match x with
  | .nan => nan16
  | .inf neg => w16 (boolNat neg * 2 ^ 15 + 0x7F80)
  | .fin neg m e => w16 (boolNat neg * 2 ^ 15 + roundMag 7 m e false)

def isNan32 (w : W32) : Bool := decide (0x7F800000 < (w &&& 0x7FFFFFFF).toNat)
def isNan16 (w : W16) : Bool := decide (0x7F80 < (w &&& 0x7FFF).toNat)

/-- Signed value of a finite number over 2^e0, for e0 at most its exponent. -/
def scaled (neg : Bool) (m : Nat) (e e0 : Int) : Int :=
  let v : Int := (m : Int) * 2 ^ (e - e0).toNat
  if neg then -v else v

/-- The exact sum of two values; a zero sum is −0 only when both are −0 (03 R81). -/
def addNum : Num → Num → Num
  | .nan, _ => .nan
  | _, .nan => .nan
  | .inf a, .inf b => if a = b then .inf a else .nan
  | .inf a, _ => .inf a
  | _, .inf b => .inf b
  | .fin n1 m1 e1, .fin n2 m2 e2 =>
    let e := min e1 e2
    let v := scaled n1 m1 e1 e + scaled n2 m2 e2 e
    if v = 0 then .fin (m1 == 0 && m2 == 0 && n1 && n2) 0 0 else .fin (decide (v < 0)) v.natAbs e

/-- The exact product of two values (03 R81). -/
def mulNum : Num → Num → Num
  | .nan, _ => .nan
  | _, .nan => .nan
  | .inf a, .inf b => .inf (a != b)
  | .inf a, .fin b m _ => if m = 0 then .nan else .inf (a != b)
  | .fin a m _, .inf b => if m = 0 then .nan else .inf (a != b)
  | .fin a m1 e1, .fin b m2 e2 => .fin (a != b) (m1 * m2) (e1 + e2)

def negNum : Num → Num
  | .nan => .nan
  | .inf a => .inf (!a)
  | .fin a m e => .fin (!a) m e

/-! ### Primitive operations, each one rounding (03 R81) -/

def add32 (a b : W32) : W32 := enc32 (addNum (num32 a) (num32 b)) false
def sub32 (a b : W32) : W32 := enc32 (addNum (num32 a) (negNum (num32 b))) false
def mul32 (a b : W32) : W32 := enc32 (mulNum (num32 a) (num32 b)) false
def fma32 (a b c : W32) : W32 := enc32 (addNum (mulNum (num32 a) (num32 b)) (num32 c)) false

/-- Sign bit flipped; a NaN gives the canonical NaN (04 R109). -/
def neg32 (a : W32) : W32 := if isNan32 a then nan32 else a ^^^ 0x80000000
/-- Sign bit cleared; a NaN gives the canonical NaN (04 R109). -/
def abs32 (a : W32) : W32 := if isNan32 a then nan32 else a &&& 0x7FFFFFFF

/-- Division (03 R81). -/
def div32 (a b : W32) : W32 :=
  match num32 a, num32 b with
  | .nan, _ => nan32
  | _, .nan => nan32
  | .inf _, .inf _ => nan32
  | .inf x, .fin y _ _ => enc32 (.inf (x != y)) false
  | .fin x _ _, .inf y => enc32 (.fin (x != y) 0 0) false
  | .fin x m1 e1, .fin y m2 e2 =>
    if m2 = 0 then (if m1 = 0 then nan32 else enc32 (.inf (x != y)) false)
    else
      let n := m1 * 2 ^ 64
      enc32 (.fin (x != y) (n / m2) (e1 - e2 - 64)) (n % m2 != 0)

/-- ⌊√n⌋ by binary digits from digit `k` down. -/
def isqrtFrom (n : Nat) : Nat → Nat → Nat
  | 0, r => if (r + 1) * (r + 1) ≤ n then r + 1 else r
  | k + 1, r =>
    let t := r + 2 ^ (k + 1)
    isqrtFrom n k (if t * t ≤ n then t else r)

/-- ⌊√n⌋. -/
def isqrt (n : Nat) : Nat := isqrtFrom n (n.log2 / 2 + 1) 0

/-- m × 2^e with an even exponent. -/
def evenExp (m : Nat) (e : Int) : Nat × Int := if e % 2 = 0 then (m, e) else (2 * m, e - 1)

/-- Square root (03 R81): √−0 is −0, a negative value gives NaN. -/
def sqrt32 (a : W32) : W32 :=
  match num32 a with
  | .nan => nan32
  | .inf neg => if neg then nan32 else a
  | .fin neg m e =>
    if m = 0 then a else if neg then nan32 else
      let (m, e) := evenExp m e
      let n := m * 2 ^ 64
      let r := isqrt n
      enc32 (.fin false r (e / 2 - 32)) (r * r != n)

/-- Reciprocal, correctly rounded (04 R109). -/
def recip32 (a : W32) : W32 := div32 0x3F800000 a

/-- Reciprocal square root, correctly rounded (03 R82). -/
def rsqrt32 (a : W32) : W32 :=
  match num32 a with
  | .nan => nan32
  | .inf neg => if neg then nan32 else 0
  | .fin neg m e =>
    if m = 0 then enc32 (.inf neg) false else if neg then nan32 else
      let (m, e) := evenExp m e
      let n := 2 ^ 128
      let r := isqrt (n / m)
      enc32 (.fin false r (-(e / 2) - 64)) (r * r * m != n)

/-! ### Order -/

/-- Place of a pattern that is no NaN in the order of values; +0 and −0 are equal. -/
def ord32 (a : W32) : Int :=
  let m : Int := ((a &&& 0x7FFFFFFF).toNat : Int)
  if bit a.toNat 31 then -m else m

/-- `<` of FP32: false when either is a NaN. -/
def lt32 (a b : W32) : Bool := !isNan32 a && !isNan32 b && decide (ord32 a < ord32 b)
def le32 (a b : W32) : Bool := !isNan32 a && !isNan32 b && decide (ord32 a ≤ ord32 b)
def eq32 (a b : W32) : Bool := !isNan32 a && !isNan32 b && ord32 a == ord32 b

/-- Place of a value in the selection order of 10 R271: NaNs above +∞ and equal to one another. -/
def selKey (a : W32) : Int := if isNan32 a then 2 ^ 31 else ord32 a

/-- A NaN as the canonical one (03 R65). -/
def canon32 (a : W32) : W32 := if isNan32 a then nan32 else a

/-- max of 03 R84. -/
def max32 (a b : W32) : W32 :=
  if isNan32 a || isNan32 b then nan32
  else if ord32 a < ord32 b then b else if ord32 b < ord32 a then a else a &&& b

/-- min of 03 R84. -/
def min32 (a b : W32) : W32 :=
  if isNan32 a || isNan32 b then nan32
  else if ord32 a < ord32 b then a else if ord32 b < ord32 a then b else a ||| b

def infPos : W32 := 0x7F800000
def infNeg : W32 := 0xFF800000

/-! ### Conversions (03 R79, R80, R85) -/

/-- BF16 to FP32: exact; a NaN becomes the canonical one (03 R65, R85). -/
def widen (h : W16) : W32 := if isNan16 h then nan32 else h ++ (0 : W16)

/-- Level 1 conversion to BF16 (03 R80). -/
def toBf16 (f : W32) : W16 := if isNan32 f then nan16 else enc16 (num32 f)

/-- Level 0 conversion out of an accumulator (03 R79): half a unit is added to the magnitude, −0 becomes +0. -/
def toBf16L0 (f : W32) : W16 :=
  if isNan32 f then nan16 else
    let h : W16 := ((f + 0x8000) >>> 16).setWidth 16
    if h &&& 0x7FFF = 0 then 0 else h

/-- Value of an integer. -/
def intNum (n : Int) : Num := .fin (decide (n < 0)) n.natAbs 0

/-- Integer to FP32, level 1 (03 R85). -/
def int32f (n : Int) : W32 := enc32 (intNum n) false

/-- A finite value rounded to an integer, ties to even (03 R85). -/
def roundInt (neg : Bool) (m : Nat) (e : Int) : Int :=
  let n :=
    if 0 ≤ e then m * 2 ^ e.toNat
    else
      let sh := (-e).toNat
      let h := m >>> sh
      let r := m % 2 ^ sh
      let half := 2 ^ (sh - 1)
      if half < r || (r == half && h % 2 == 1) then h + 1 else h
  if neg then -(n : Int) else n

/-- FP32 to i32, as its 32 bits (03 R85). -/
def toI32 (a : W32) : W32 :=
  match num32 a with
  | .nan => 0
  | .inf neg => if neg then 0x80000000 else 0x7FFFFFFF
  | .fin neg m e => BitVec.ofInt 32 (max (-2147483648) (min 2147483647 (roundInt neg m e)))

/-- FP32 to u32 (03 R85). -/
def toU32 (a : W32) : W32 :=
  match num32 a with
  | .nan => 0
  | .inf neg => if neg then 0 else 0xFFFFFFFF
  | .fin neg m e => BitVec.ofInt 32 (max 0 (min 4294967295 (roundInt neg m e)))

/-- The exact value of code c with shift s (03 R67): code 0 is +0. -/
def codeNum (c s : Int) : Num := .fin (decide (c < 0)) c.natAbs s

/-! ### Narrow codes (03 R69) -/

/-- Code `i` of width `b` in a bit string, as a signed number. -/
def codeAt (b i : Nat) (group : Nat) : Int := signed b (group >>> (i * b))

/-- The 32 codes of width `b` of a group of 4·b bytes. -/
def codesOf (b : Nat) (bytes : List Byte) : List Int :=
  let n := leNat bytes
  (List.range 32).map fun i => codeAt b i n

/-- Bytes of a group of codes of width `b` (03 R69). -/
def groupBytes (b : Nat) : Nat := 4 * b

/-! ### The array (03 R75 to R78) -/

/-- Is the value zero? -/
def Num.isZero : Num → Bool
  | .fin _ 0 _ => true
  | _ => false

/-- An accumulator that becomes zero is +0 (03 R78). -/
def accZero (a : W32) : W32 := if a &&& 0x7FFFFFFF = 0 then 0 else if isNan32 a then nan32 else a

/-- One term: gated when either operand is zero, else one rounding of the exact product and the accumulator (03 R75, R76). -/
def accStep (acc : W32) (a w : Num) : W32 :=
  if a.isZero || w.isZero then acc else accZero (enc32 (addNum (mulNum a w) (num32 acc)) false)

/-- `array_dot` of 03 R75 over terms in ascending k. -/
def arrayDot (init : W32) (terms : List (Num × Num)) : W32 :=
  terms.foldl (fun acc t => accStep acc t.1 t.2) (accZero init)

/-! ### Rotation (03 R72 to R74) -/

/-- One butterfly stage of width `w` over a block. -/
def butterfly (w : Nat) (t : List W32) : List W32 :=
  (t.zipIdx).map fun e =>
    if e.2 / w % 2 = 0 then add32 e.1 (t.getD (e.2 + w) 0) else sub32 (t.getD (e.2 - w) 0) e.1

/-- Stages of widths 1, 2, 4 and so on, `n` of them. -/
def butterflies : Nat → Nat → List W32 → List W32
  | 0, _, t => t
  | n + 1, w, t => butterflies n (2 * w) (butterfly w t)

/-- A block of 2^lg elements with their sign bits, and shift h (03 R74). -/
def rotateBlock (lg h : Nat) (x : List W16) (sg : List Bool) : List W16 :=
  let t := List.zipWith (fun v n => if n then neg32 (widen v) else widen v) x sg
  (butterflies lg 1 t).map fun v => toBf16 (enc32 (mulNum (num32 v) (.fin false 1 (-(h : Int)))) false)

/-! ### Reductions (03 R83) -/

/-- One tree level: neighbours combined. -/
def treeLevel (f : W32 → W32 → W32) : List W32 → List W32
  | a :: b :: r => f a b :: treeLevel f r
  | r => r

/-- The eight levels of a block of 256. -/
def treeFold (f : W32 → W32 → W32) : Nat → List W32 → List W32
  | 0, t => t
  | n + 1, t => treeFold f n (treeLevel f t)

/-- Blocks of 256 in index order, short ones padded (03 R83). -/
def reduceAux (f : W32 → W32 → W32) (pad : W32) : Nat → W32 → List W32 → W32
  | 0, total, _ => total
  | n + 1, total, x =>
    if x.isEmpty then total else
      let blk := x.take 256
      let t := treeFold f 8 (blk ++ List.replicate (256 - blk.length) pad)
      reduceAux f pad n (f total (t.headD pad)) (x.drop 256)

def reduceWith (f : W32 → W32 → W32) (pad : W32) (x : List W32) : W32 := reduceAux f pad (x.length / 256 + 1) pad x

def reduceSum (x : List W32) : W32 := reduceWith add32 0 x
def reduceMax (x : List W32) : W32 := reduceWith max32 infNeg x
def reduceMin (x : List W32) : W32 := reduceWith min32 infPos x

/-! ### Elementary functions (03 R82)

Each is computed in fixed point with 512 fraction bits and rounded once; the working error is far below the least distance
of such a value from a midpoint of two FP32 values (log 13). -/

/-- Fraction bits of the working format. -/
def fixBits : Nat := 512
def fixOne : Int := 2 ^ fixBits

def fixMul (a b : Int) : Int := a * b / fixOne
def fixDiv (a b : Int) : Int := a * fixOne / b

/-- A finite value in the working format. -/
def toFix (neg : Bool) (m : Nat) (e : Int) : Int :=
  let k := e + fixBits
  let v : Int := if 0 ≤ k then (m : Int) * 2 ^ k.toNat else (m : Int) / 2 ^ (-k).toNat
  if neg then -v else v

/-- FP32 of a fixed-point value times 2^k, which lies strictly between two patterns (03 R82). -/
def ofFix (v k : Int) : W32 := enc32 (.fin (decide (v < 0)) v.natAbs (k - fixBits)) true

/-- Sum over n of power × 1/(2n+1) with alternating or equal signs: the series of atan and atanh at x = 1/q or at a fixed
point; `p` is x^(2n+1), `x2` is x². -/
def oddSeries (alternate : Bool) (x2 : Int) : Nat → Nat → Int → Int
  | 0, _, _ => 0
  | fuel + 1, n, p =>
    p / (2 * n + 1 : Nat) + (if alternate then -1 else 1) * oddSeries alternate x2 fuel (n + 1) (fixMul p x2)

/-- atan(1/q). -/
def atanInv (q : Nat) : Int := oddSeries true (fixOne / (q * q : Nat)) 120 0 (fixOne / (q : Nat))

/-- π by Machin's formula. -/
def fixPi : Int := 4 * (4 * atanInv 5 - atanInv 239)

/-- atanh x for |x| at most 1/3. -/
def fixAtanh (x : Int) : Int := oddSeries false (fixMul x x) 170 0 x

/-- ln 2. -/
def fixLn2 : Int := 2 * fixAtanh (fixOne / 3)

/-- e^r for |r| at most 1: Taylor's series. -/
def expSeries (r : Int) : Nat → Nat → Int → Int
  | 0, _, _ => 0
  | fuel + 1, n, t => t + expSeries r fuel (n + 1) (fixMul t r / ((n + 1 : Nat) : Int))

/-- e^x as (mantissa in the working format, power of two). -/
def fixExp (x : Int) : Int × Int :=
  let l := fixLn2
  let k := (2 * x + l) / (2 * l)
  (expSeries (x - k * l) 110 0 fixOne, k)

/-- e^(−x) in the working format for x not negative. -/
def expNeg (x : Int) : Int :=
  let (v, k) := fixExp (-x)
  if k ≤ 0 then v / 2 ^ (-k).toNat else v * 2 ^ k.toNat

/-- exp (03 R82). -/
def exp32 (a : W32) : W32 :=
  match num32 a with
  | .nan => nan32
  | .inf neg => if neg then 0 else infPos
  | .fin neg m e =>
    if m = 0 then 0x3F800000
    else if le32 0x43000000 (abs32 a) then (if neg then 0 else infPos)
    else
      let (v, k) := fixExp (toFix neg m e)
      ofFix v k

/-- log (03 R82). -/
def log32 (a : W32) : W32 :=
  match num32 a with
  | .nan => nan32
  | .inf neg => if neg then nan32 else infPos
  | .fin neg m e =>
    if m = 0 then infNeg else if neg then nan32
    else if a = 0x3F800000 then 0
    else
      let l := m.log2
      let up := decide (3 * 2 ^ l ≤ 2 * m)
      let k := if up then l + 1 else l
      let y : Int := (m : Int) * fixOne / 2 ^ k
      let z := fixDiv (y - fixOne) (y + fixOne)
      ofFix (((k : Int) + e) * fixLn2 + 2 * fixAtanh z) 0

/-- A value of odd symmetry from its value at the magnitude. -/
def withSign (neg : Bool) (v : W32) : W32 := if neg then neg32 v else v

/-- tanh. -/
def tanh32 (a : W32) : W32 :=
  match num32 a with
  | .nan => nan32
  | .inf neg => withSign neg 0x3F800000
  | .fin neg m e =>
    if m = 0 then a
    else if le32 0x41800000 (abs32 a) then withSign neg 0x3F800000
    else
      let t := expNeg (2 * toFix false m e)
      withSign neg (ofFix (fixDiv (fixOne - t) (fixOne + t)) 0)

/-- Logistic sigmoid. -/
def sigmoid32 (a : W32) : W32 :=
  match num32 a with
  | .nan => nan32
  | .inf neg => if neg then 0 else 0x3F800000
  | .fin neg m e =>
    if m = 0 then 0x3F000000
    else if le32 0x43000000 (abs32 a) then (if neg then 0 else 0x3F800000)
    else
      let t := expNeg (toFix false m e)
      ofFix (if neg then fixDiv t (fixOne + t) else fixDiv fixOne (fixOne + t)) 0

/-- Σ (−1)^n x^(2n+1) / (n! (2n+1)); `t` is x^(2n+1) / n!. -/
def erfSeries (x2 : Int) : Nat → Nat → Int → Int
  | 0, _, _ => 0
  | fuel + 1, n, t => t / ((2 * n + 1 : Nat) : Int) - erfSeries x2 fuel (n + 1) (fixMul t x2 / ((n + 1 : Nat) : Int))

/-- Error function. -/
def erf32 (a : W32) : W32 :=
  match num32 a with
  | .nan => nan32
  | .inf neg => withSign neg 0x3F800000
  | .fin neg m e =>
    if m = 0 then a
    else if le32 0x40C00000 (abs32 a) then withSign neg 0x3F800000
    else
      let x := toFix false m e
      let rootPi : Int := (isqrt (fixPi * fixOne).toNat : Nat)
      withSign neg (ofFix (fixDiv (2 * erfSeries (fixMul x x) 260 0 x) rootPi) 0)

/-- Σ (−1)^n r^(2n+d) / (2n+d)!; `t` is the present term's magnitude and `j` its degree. -/
def trigSeries (r2 : Int) : Nat → Nat → Int → Int
  | 0, _, _ => 0
  | fuel + 1, j, t => t - trigSeries r2 fuel (j + 2) (fixMul t r2 / (((j + 1) * (j + 2) : Nat) : Int))

def fixSin (r : Int) : Int := trigSeries (fixMul r r) 60 1 r
def fixCos (r : Int) : Int := trigSeries (fixMul r r) 60 0 fixOne

/-- sin of a finite value other than 0, moved by `shift` quarter turns. -/
def trig32 (shift : Int) (neg : Bool) (m : Nat) (e : Int) : W32 :=
  let x := toFix neg m e
  let h := fixPi / 2
  let n := (2 * x + h) / (2 * h)
  let r := x - n * h
  match (n + shift) % 4 with
  | 0 => ofFix (fixSin r) 0
  | 1 => ofFix (fixCos r) 0
  | 2 => ofFix (-(fixSin r)) 0
  | _ => ofFix (-(fixCos r)) 0

/-- Sine; of an infinity NaN. -/
def sin32 (a : W32) : W32 :=
  match num32 a with
  | .fin neg m e => if m = 0 then a else trig32 0 neg m e
  | _ => nan32

/-- Cosine; of an infinity NaN. -/
def cos32 (a : W32) : W32 :=
  match num32 a with
  | .fin neg m e => if m = 0 then 0x3F800000 else trig32 1 neg m e
  | _ => nan32

end Sys2Proof.Machine
end

