-- ==== Sys2Proof/Machine/Text.lean ====
section
/-! DEFINITION. The Sawmill (07): text to tokens (R181 to R190), token text, release and stop strings (R197 to R200), and
the Teasel's masks and moves (R204 to R210). -/

namespace Sys2Proof.Machine

/-! ### UTF-8 (07 R182) -/

/-- Lead byte: continuation bytes to come, bounds of the first of them, and the bits it gives; none for a byte that starts
no well-formed sequence. -/
def utf8Lead (b : Nat) : Option (Nat × Nat × Nat × Nat) :=
  if b < 0x80 then some (0, 0, 0, b)
  else if 0xC2 ≤ b ∧ b ≤ 0xDF then some (1, 0x80, 0xBF, b - 0xC0)
  else if b = 0xE0 then some (2, 0xA0, 0xBF, 0)
  else if b = 0xED then some (2, 0x80, 0x9F, 0xD)
  else if 0xE1 ≤ b ∧ b ≤ 0xEF then some (2, 0x80, 0xBF, b - 0xE0)
  else if b = 0xF0 then some (3, 0x90, 0xBF, 0)
  else if 0xF1 ≤ b ∧ b ≤ 0xF3 then some (3, 0x80, 0xBF, b - 0xF0)
  else if b = 0xF4 then some (3, 0x80, 0x8F, 4)
  else none

/-- Where a decoder stands inside a sequence: bytes still needed, bounds of the next, bits so far, bytes taken. -/
structure Utf8St where
  need : Nat
  lo : Nat
  hi : Nat
  acc : Nat
  taken : Nat
  deriving DecidableEq, Repr

def Utf8St.start : Utf8St := ⟨0, 0, 0, 0, 0⟩

/-- Code points of a byte string with each maximal subpart of an ill-formed sequence replaced by U+FFFD and marked; and
the state at the end. A sequence cut short at the end is replaced too. -/
def utf8Go : Utf8St → List Byte → List (Nat × Bool) × Utf8St
  | st, [] => (if st.need = 0 then [] else [(0xFFFD, true)], st)
  | st, b :: r =>
    let n := b.toNat
    if st.need ≠ 0 ∧ st.lo ≤ n ∧ n ≤ st.hi then
      let acc := st.acc * 64 + n % 64
      if st.need = 1 then
        let t := utf8Go Utf8St.start r
        ((acc, false) :: t.1, t.2)
      else utf8Go ⟨st.need - 1, 0x80, 0xBF, acc, st.taken + 1⟩ r
    else
      let before := if st.need = 0 then [] else [(0xFFFD, true)]
      match utf8Lead n with
      | none =>
        let t := utf8Go Utf8St.start r
        (before ++ (0xFFFD, true) :: t.1, t.2)
      | some (0, _, _, c) =>
        let t := utf8Go Utf8St.start r
        (before ++ (c, false) :: t.1, t.2)
      | some (k, lo, hi, c) =>
        let t := utf8Go ⟨k, lo, hi, c, 1⟩ r
        (before ++ t.1, t.2)

def utf8Decode (l : List Byte) : List (Nat × Bool) := (utf8Go Utf8St.start l).1

/-- Is the whole string well-formed? -/
def utf8Valid (l : List Byte) : Bool := (utf8Decode l).all fun x => !x.2

/-- Length of a trailing sequence that is valid so far but incomplete (07 R198). -/
def utf8Tail (l : List Byte) : Nat :=
  let st := (utf8Go Utf8St.start l).2
  if st.need = 0 then 0 else st.taken

def utf8Encode (c : Nat) : List Byte :=
  if c < 0x80 then [b8 c]
  else if c < 0x800 then [b8 (0xC0 + c / 64), b8 (0x80 + c % 64)]
  else if c < 0x10000 then [b8 (0xE0 + c / 4096), b8 (0x80 + c / 64 % 64), b8 (0x80 + c % 64)]
  else [b8 (0xF0 + c / 262144), b8 (0x80 + c / 4096 % 64), b8 (0x80 + c / 64 % 64), b8 (0x80 + c % 64)]

/-- Bytes repaired, and the number of replacements (07 R182). -/
def utf8Repair (l : List Byte) : List Byte × Nat :=
  let d := utf8Decode l
  (d.flatMap fun x => utf8Encode x.1, d.countP (·.2))

/-! ### Stages 2 to 5 (07 R183 to R185) -/

/-- Normalisation, lowercasing and meta-space marking (07 R181, R183). -/
def prepareText (t : Tokenizer) (cp : List Nat) : List Nat :=
  let c1 := if t.norm = 1 then Config.nfc cp else if t.norm = 2 then Config.nfkc cp else cp
  let c2 := if t.lower then c1.map Config.simpleLower else c1
  if t.metaSpace then
    let c3 := c2.map fun c => if c = 0x20 then 0x2581 else c
    if c3.isEmpty || c3.head? == some 0x2581 then c3 else 0x2581 :: c3
  else c2

/-- Class of a code point (07 R192). -/
def classOf (t : Tokenizer) (c : Nat) : Nat :=
  t.classes.foldl (fun k e => if e.1 ≤ c then e.2 else k) 0

def isSolo (t : Tokenizer) (k : Nat) : Bool := t.soloMask.getLsbD k
def isDropped (t : Tokenizer) (k : Nat) : Bool := t.dropMask.getLsbD k

/-- The piece of the code points held, if any and not dropped (07 R184). -/
def emitPiece (t : Tokenizer) (rev : List Nat) : List (List Nat) :=
  match rev with
  | [] => []
  | c :: _ => if isDropped t (classOf t c) then [] else [rev.reverse]

/-- The loop of 07 R184; `rev` holds the code points from the start of the piece, last first. -/
def splitGo (t : Tokenizer) : List Nat → List Nat → List (List Nat)
  | rev, [] => emitPiece t rev
  | rev, c :: r =>
    match rev with
    | [] => splitGo t [c] r
    | p :: before =>
      let kp := classOf t p
      let kc := classOf t c
      if kp ≠ kc || isSolo t kc || isSolo t kp then
        if t.join = some kp && t.join ≠ some kc then emitPiece t before ++ splitGo t [c, p] r
        else emitPiece t rev ++ splitGo t [c] r
      else splitGo t (c :: rev) r

/-- A piece cut into parts of at most 4,096 bytes at code points (07 R185), as lists of encoded code points. -/
def cutPiece : List (List Byte) → Nat → List (List Byte) → List (List (List Byte))
  | rev, _, [] => if rev.isEmpty then [] else [rev.reverse]
  | rev, n, c :: r =>
    if 4096 < n + c.length then rev.reverse :: cutPiece [c] c.length r else cutPiece (c :: rev) (n + c.length) r

/-- The parts of a segment's text, each as its code points' bytes, and the number of cuts (07 R184, R185). -/
def piecesOf (t : Tokenizer) (cp : List Nat) : List (List (List Byte)) × Nat :=
  let ps := (splitGo t [] cp).map fun p => cutPiece [] 0 (p.map utf8Encode)
  (ps.flatten, (ps.map fun p => p.length - 1).sum)

/-! ### Encoding a piece (07 R187 to R189) -/

/-- May the id come from text (07, Encoding a piece)? -/
def isLookup (t : Tokenizer) (id : Nat) (str : List Byte) : Bool :=
  !str.isEmpty && t.bos != some id && t.eos != some id && t.pad != some id && t.unk != some id

/-- The lookup token with a string. -/
def lookupToken (t : Tokenizer) (str : List Byte) : Option Nat :=
  if str.isEmpty || decide (255 < str.length) then none
  else (t.vocab.zipIdx.find? fun e => e.1 == str && isLookup t e.2 e.1).map (·.2)

/-- Rank of a pair (07 R187). -/
def mergeRank (t : Tokenizer) (a b : Nat) : Option Nat := t.merges.findIdx? fun m => m.1 == a && m.2.1 == b

/-- Least rank among neighbours and the leftmost place that has it. -/
def bestMerge (t : Tokenizer) : Nat → List Nat → Option (Nat × Nat)
  | _, [] => none
  | _, [_] => none
  | i, a :: b :: r =>
    match mergeRank t a b, bestMerge t (i + 1) (b :: r) with
    | some k, some (k', j) => if k ≤ k' then some (k, i) else some (k', j)
    | some k, none => some (k, i)
    | none, x => x

/-- Merges one at a time, at most `n` of them (07 R187). -/
def bpeMerge (t : Tokenizer) : Nat → List Nat → List Nat
  | 0, ids => ids
  | n + 1, ids =>
    match bestMerge t 0 ids with
    | none => ids
    | some (k, i) => bpeMerge t n (ids.take i ++ (t.merges.getD k (0, 0, 0)).2.2 :: ids.drop (i + 2))

/-- BPE_BYTE. -/
def encodeBpe (t : Tokenizer) (piece : List (List Byte)) : List Nat :=
  let bytes := piece.flatten
  bpeMerge t bytes.length (bytes.map fun b => t.byteMap.getD b.toNat 0)

/-- A Viterbi step of 07 R188: its start boundary and its token, none for UNKNOWN. -/
abbrev ViterbiStep := Nat × Option Nat

/-- Best value and step at end boundary `e` from the values at earlier boundaries (07 R188). -/
def viterbiAt (t : Tokenizer) (piece : List (List Byte)) (best : List W32) (e : Nat) : W32 × ViterbiStep :=
  let try1 := fun (acc : W32 × Option ViterbiStep) (s : Nat) =>
    match lookupToken t ((piece.drop s).take (e - s)).flatten with
    | none => acc
    | some id =>
      let v := add32 (best.getD s infNeg) (t.scores.getD id 0)
      if lt32 acc.1 v then (v, some (s, some id)) else acc
  let a := (List.range e).foldl try1 (infNeg, none)
  let single := lookupToken t (piece.getD (e - 1) [])
  let b := if single.isSome then a else
    let v := add32 (best.getD (e - 1) infNeg) t.unkScore
    if lt32 a.1 v then (v, some (e - 1, none)) else a
  (b.1, b.2.getD (e - 1, single))

/-- Values and steps of boundaries 1 to m, in order. -/
def viterbi (t : Tokenizer) (piece : List (List Byte)) : List (W32 × ViterbiStep) :=
  (List.range piece.length).foldl
    (fun acc k => acc ++ [viterbiAt t piece (0 :: acc.map (·.1)) (k + 1)]) []

/-- Steps read back from boundary `e` to 0. -/
def viterbiBack (steps : List (W32 × ViterbiStep)) : Nat → Nat → List (Nat × Option Nat) → List (Nat × Option Nat)
  | 0, _, acc => acc
  | _, 0, acc => acc
  | n + 1, e, acc =>
    let st := (steps.getD (e - 1) (0, (e - 1, none))).2
    viterbiBack steps n st.1 (st :: acc)

/-- UNIGRAM. -/
def encodeUnigram (t : Tokenizer) (piece : List (List Byte)) : List Nat :=
  (viterbiBack (viterbi t piece) piece.length piece.length []).flatMap fun st =>
    match st.2 with
    | some id => [id]
    | none =>
      if t.byteFallback then (piece.getD st.1 []).map fun b => t.byteMap.getD b.toNat 0
      else [t.unk.getD 0]

/-- Longest match of at most `k` code points from a position (07 R189). -/
def longestMatch (t : Tokenizer) (pre : List Byte) (rest : List (List Byte)) : Nat → Option (Nat × Nat)
  | 0 => none
  | k + 1 =>
    match lookupToken t (pre ++ (rest.take (k + 1)).flatten) with
    | some id => some (id, k + 1)
    | none => longestMatch t pre rest k

/-- Tokens of a word from a position on; none when some position has no match (07 R189). -/
def wordTokens (t : Tokenizer) : Nat → Bool → List (List Byte) → Option (List Nat)
  | 0, _, rest => if rest.isEmpty then some [] else none
  | n + 1, first, rest =>
    if rest.isEmpty then some [] else
      match longestMatch t (if first then [] else t.contPrefix) rest rest.length with
      | none => none
      | some (id, k) => (wordTokens t n false (rest.drop k)).map (id :: ·)

/-- WORDPIECE. -/
def encodeWord (t : Tokenizer) (piece : List (List Byte)) : List Nat :=
  if t.maxWordChars < piece.length then [t.unk.getD 0]
  else (wordTokens t piece.length true piece).getD [t.unk.getD 0]

/-- A piece under the table's algorithm. -/
def encodePiece (t : Tokenizer) (piece : List (List Byte)) : List Nat :=
  if t.algo = 1 then encodeBpe t piece else if t.algo = 2 then encodeUnigram t piece else encodeWord t piece

/-- What a lane gives for a segment: its text tokens, repairs and piece cuts (07 R181). -/
structure Tokenized where
  tokens : List Nat
  repaired : Nat
  cuts : Nat
  deriving DecidableEq, Repr

def tokenizeText (t : Tokenizer) (text : List Byte) : Tokenized :=
  let d := utf8Decode text
  let ps := piecesOf t (prepareText t (d.map (·.1)))
  { tokens := ps.1.flatMap (encodePiece t), repaired := d.countP (·.2), cuts := ps.2 }

/-- The segment's token list with its special tokens under a limit, and TRUNC (07 R190). -/
def limitTokens (bos eos : Option Nat) (maxTokens : Nat) (text : List Nat) : List Nat × Bool :=
  let b := bos.toList
  let e := eos.toList
  let full := b ++ text ++ e
  if full.length ≤ maxTokens then (full, false)
  else if maxTokens = 1 && !b.isEmpty && !e.isEmpty then (b, true)
  else (b ++ text.take (maxTokens - b.length - e.length) ++ e, true)

/-! ### The Planer (07 R197 to R200) -/

/-- U+2581 in a byte string made 0x20 (07 R197). -/
def unmeta : List Byte → List Byte
  | 0xE2 :: 0x96 :: 0x81 :: r => 0x20 :: unmeta r
  | b :: r => b :: unmeta r
  | [] => []

/-- Text of a generated token (07 R197). -/
def tokenText (t : Tokenizer) (tok : Nat) (first : Bool) : List Byte :=
  if t.eos = some tok || t.bos = some tok || t.pad = some tok then []
  else
    let str := t.vocab.getD tok []
    let rest := if t.metaSpace && first && str.take 3 == [0xE2, 0x96, 0x81] then str.drop 3 else str
    let out :=
      if t.algo = 3 then
        if !t.contPrefix.isEmpty && t.contPrefix.isPrefixOf str then str.drop t.contPrefix.length
        else if first then rest else 0x20 :: str
      else rest
    if t.metaSpace then unmeta out else out

/-- The Planer's state for a request: unreleased bytes, released text, replacements, and whether a release was cut at the
text reserve (07 R198, 11 R297). -/
structure PlanerSt where
  u : List Byte
  text : List Byte
  repaired : Nat
  full : Bool
  deriving DecidableEq, Repr

/-- Longest leading part of some encoded code points that fits `room` bytes. -/
def fitPoints : Nat → List (List Byte) → List Byte × Bool
  | _, [] => ([], true)
  | room, c :: r =>
    if c.length ≤ room then
      let t := fitPoints (room - c.length) r
      (c ++ t.1, t.2)
    else ([], false)

/-- Release the first `n` bytes of u, repaired, within the text reserve (07 R198; 11 R297). Replacements in the part that the full
reserve discards are counted too: DESIGN CHOICE, R198 does not say (log 106). -/
def planerRelease (reserve : Option Nat) (n : Nat) (p : PlanerSt) : PlanerSt :=
  let d := utf8Decode (p.u.take n)
  let pts := d.map fun x => utf8Encode x.1
  let fit := match reserve with
    | none => (pts.flatten, true)
    | some lim => fitPoints (lim - p.text.length) pts
  { u := p.u.drop n, text := if p.full then p.text else p.text ++ fit.1, repaired := p.repaired + d.countP (·.2), full := p.full || !fit.2 }

/-- Longest stop string that ends at the end of u (07 R199). -/
def stopEnding (stops : List (List Byte)) (u : List Byte) : Nat :=
  stops.foldl (fun m x => if m < x.length && x.isSuffixOf u then x.length else m) 0

/-- Longest suffix of u that is a non-empty proper prefix of a stop string (07 R198). -/
def stopHold (stops : List (List Byte)) (u : List Byte) : Nat :=
  (List.range (min 63 u.length)).foldl (fun m k =>
    let suf := u.drop (u.length - (k + 1))
    if stops.any fun x => decide (k + 1 < x.length) && suf.isPrefixOf x then k + 1 else m) 0

/-- Bytes of u held back (07 R198). -/
def planerKeep (stops : List (List Byte)) (u : List Byte) : Nat := max (stopHold stops u) (utf8Tail u)

/-- Bytes of a token appended one at a time until a stop string completes: u and the stop's length (07 R199). -/
def appendBytes (stops : List (List Byte)) : List Byte → List Byte → List Byte × Nat
  | u, [] => (u, 0)
  | u, b :: r =>
    let u := u ++ [b]
    let n := stopEnding stops u
    if n = 0 then appendBytes stops u r else (u, n)

/-- A token through the Planer (07 R199): the state and the reason it ends with, if any. -/
def planerToken (t : Tokenizer) (o : TextOptions) (reserve : Option Nat) (tok : Nat) (first : Bool) (p : PlanerSt) :
    PlanerSt × Option Reason :=
  if t.eos = some tok then (planerRelease reserve p.u.length p, some .endToken)
  else
    let a := appendBytes o.stops p.u (tokenText t tok first)
    let p := { p with u := a.1 }
    if a.2 ≠ 0 then
      let q := planerRelease reserve (if o.includeStop then p.u.length else p.u.length - a.2) p
      ({ q with u := [] }, some .stopString)
    else (planerRelease reserve (p.u.length - planerKeep o.stops p.u) p, none)

/-- Release all of u at an end (07 R200). -/
def planerFlush (reserve : Option Nat) (p : PlanerSt) : PlanerSt := planerRelease reserve p.u.length p

/-! ### The Teasel (07 R204 to R210) -/

/-- Does a mask allow a token (07 R204)? -/
def GMask.allows (m : GMask) (tok : Nat) : Bool :=
  match m with
  | .empty => false
  | .runs ps => ps.any fun r => decide (r.1 ≤ tok ∧ tok ≤ r.2)
  | .dense bs => match bs[tok / 8]? with
    | some b => b.getLsbD (tok % 8)
    | none => false

/-- Does a mask allow no token of a vocabulary of `v` (07 R210)? -/
def GMask.none? (m : GMask) (v : Nat) : Bool :=
  match m with
  | .empty => true
  | .runs _ => false
  | .dense _ => (List.range v).all fun i => !m.allows i

def GState.default : GState := ⟨.empty, [], false⟩

def Grammar.state (g : Grammar) (n : Nat) : GState := g.states.getD n GState.default

/-- Is a token allowed in a state; the end token by ACCEPT alone (07 R206, R208)? -/
def Grammar.allows (g : Grammar) (eos : Option Nat) (n tok : Nat) : Bool :=
  if eos = some tok then (g.state n).accept else decide (tok < g.vocab) && (g.state n).mask.allows tok

/-- The step mask of a state in whole lines (07 R208). -/
def Grammar.stepMask (g : Grammar) (eos : Option Nat) (n : Nat) : List Byte :=
  (List.range (cdiv (cdiv g.vocab 8) 256 * 256)).map fun i =>
    b8 ((List.range 8).foldl (fun a k =>
      a + if decide (8 * i + k < g.vocab) && g.allows eos n (8 * i + k) then 2 ^ k else 0) 0)

/-- A state is dead when its mask allows no token and ACCEPT is 0 (07 R210). -/
def Grammar.dead (g : Grammar) (n : Nat) : Bool := !(g.state n).accept && (g.state n).mask.none? g.vocab

/-- The state after a token (07 R209). -/
def Grammar.next (g : Grammar) (eos : Option Nat) (n tok : Nat) : Nat :=
  if eos = some tok then n
  else match (g.state n).trans.find? fun e => decide (e.1 ≤ tok ∧ tok ≤ e.2.1) with
    | some e => e.2.2
    | none => n

/-! ### One generated token (07 R212) -/

/-- Planer and Teasel state after a token and the ending that applies first, orders 1 to 3 of 07 R212; `tokens` counts the
appended end token of FORCE_EOS (R210). -/
structure TokenEffect where
  planer : PlanerSt
  gstate : Nat
  deadEntered : Bool
  eosAdded : Bool
  reason : Option Reason
  deriving DecidableEq, Repr

def takeToken (t : Tokenizer) (g : Option Grammar) (o : TextOptions) (reserve : Option Nat) (tok : Nat) (first : Bool)
    (p : PlanerSt) (gst : Nat) : TokenEffect :=
  let r := planerToken t o reserve tok first p
  match g with
  | none => ⟨r.1, gst, false, false, r.2⟩
  | some g =>
    let n := g.next t.eos gst tok
    match r.2 with
    | some x => ⟨r.1, n, t.eos ≠ some tok && g.dead n, false, some x⟩
    | none =>
      if t.eos ≠ some tok && g.dead n then
        ⟨planerFlush reserve r.1, n, true, o.forceEos && t.eos.isSome, some (if o.forceEos then .grammarEos else .grammarDead)⟩
      else ⟨r.1, n, false, false, none⟩

/-! ### Text options block (07 R201) -/

/-- Length of an options block. -/
def optionsLen (l : List Byte) : Nat := cdiv (0x18 + fld l 6 2) 8 * 8

/-- Stop strings of an options block. -/
def optionStops (l : List Byte) : List (List Byte) :=
  ((List.range (fld l 4 1)).foldl (fun (acc : List (List Byte) × Nat) k =>
    let n := fld l (8 + k) 1
    (acc.1 ++ [bytesAt l (0x18 + acc.2) n], acc.2 + n)) ([], 0)).1

def optionsParse (l : List Byte) : TextOptions :=
  let g := fld l 0 2
  { grammar := if g = 0xFFFF then none else some g, startState := if bit (fld l 5 1) 2 then some (fld l 2 2) else none,
    stops := optionStops l, forceEos := bit (fld l 5 1) 1, includeStop := bit (fld l 5 1) 0 }

/-- Rules of an options block that need no grammar (07 R201). -/
def optionsForm (l : List Byte) : Bool :=
  let n := fld l 4 1
  let g := fld l 0 2
  has l 0x18 && has l (optionsLen l) && (decide (g ≤ 255) || g == 0xFFFF) && decide (n ≤ 16) && decide (fld l 5 1 < 8) &&
  decide (fld l 6 2 ≤ 1024) && (List.range 16).all (fun k =>
    if k < n then decide (1 ≤ fld l (8 + k) 1 ∧ fld l (8 + k) 1 ≤ 64) else fld l (8 + k) 1 == 0) &&
  ((List.range n).map fun k => fld l (8 + k) 1).sum == fld l 6 2 && (optionStops l).all utf8Valid &&
  (if bit (fld l 5 1) 2 then g != 0xFFFF else fld l 2 2 == 0)

/-- The rule of an options block that needs its grammar (07 R201). -/
def optionsGrammarOk (o : TextOptions) (g : Option Grammar) : Bool :=
  match o.startState, g with
  | some n, some g => decide (n < g.states.length)
  | _, _ => true

/-- No options (11 R319). -/
def TextOptions.plain : TextOptions := ⟨none, none, [], false, false⟩

end Sys2Proof.Machine
end

