-- ==== Sys2Proof/Machine/Work.lean ====
section
/-! DEFINITION. Operations on a partition's work: T1 placement (log 17), the digest (12 R329), the end and the replay of a
request (11 R297, R298, R302, R315, R318; 15 R423), leaving FAULTED or unbinding (02 R54, 13 R356). -/

namespace Sys2Proof.Machine

/-! ### T1 placement -/

/-- Every object's residence in a partition. -/
def residences (p : Partition) : List Residence :=
  p.models.map (·.res) ++ p.stores.map (·.res) ++ p.tokenizers.map (·.res) ++ p.grammars.map (·.res) ++
    p.tables.map (·.res) ++ p.indexes.map (·.res)

/-- Pages of 4 KiB that a KV page of a model takes (11 R294). -/
def kvPageUnits (m : Model) : Nat := cdiv (64 * m.kvHeads * m.headDim) pageBytes

def partModel (p : Partition) (id : Nat) : Option Model := p.models.find? fun m => m.id == id

/-- Page ranges of a partition's T1 that hold something: objects, KV pages, spill ranges, Seedling lists, planted nodes and planting
workspace, and what a load in progress has reserved (13 R364; log 17). -/
def usedPages (s : State) (i : Nat) : List (Nat × Nat) :=
  let p := s.part i
  (residences p).map (fun r => (16 * r.frame, 16 * r.frames)) ++
  (p.indexes.flatMap fun x => (x.seedFrames ++ x.workFrames ++ x.plantFrames).map (fun f => (16 * f, 16)) ++
    x.bitRes.map fun b => (16 * b.2.frame, 16 * b.2.frames)) ++
  (s.ctxs.filter fun c => c.part == i).flatMap (fun c =>
    let n := match partModel p c.generator with
      | some m => kvPageUnits m
      | none => 1
    c.kvPages.map (fun a => (a / pageBytes, n)) ++ match c.spilled with
      | some (1, a, _, lens) => [(a / pageBytes, cdiv lens.sum pageBytes)]
      | _ => []) ++
  p.reserved.map fun r => (16 * r.2.1, 16 * r.2.2)

/-- Lowest free run of `n` pages of a partition's T1, on a multiple of `align` pages. -/
def t1Place (s : State) (i align n : Nat) : Option Nat :=
  lowestFree align (usedPages s i) ((s.part i).frames.length * 16) n

/-- First frame of a run of frames for an object of `bytes` bytes, and the number of frames. -/
def t1PlaceObject (s : State) (i bytes : Nat) : Option (Nat × Nat) :=
  let n := cdiv bytes frameBytes
  (t1Place s i 16 (16 * n)).map fun pg => (pg / 16, n)

/-- FramesHigh (13 R364). -/
def framesHigh (s : State) (i : Nat) : Nat :=
  (usedPages s i).foldl (fun m u => if u.2 = 0 then m else max m (cdiv (u.1 + u.2) 16)) 0

/-! ### Digest -/

/-- Message M of 12 R329. -/
def digestMessage (p : Partition) : List Byte :=
  leBytes 4 0x54534744 ++ leBytes 2 1 ++ leBytes 2 0 ++ leBytes 8 p.config.length ++ p.config ++
  leBytes 2 ((List.range 16).foldl (fun n i => n + if p.models.any (fun m => m.id == i) then 2 ^ i else 0) 0) ++
  leBytes 2 ((List.range 16).foldl (fun n i => n + if p.stores.any (fun m => m.id == i) then 2 ^ i else 0) 0) ++
  leBytes 2 ((List.range 16).foldl (fun n i => n + if p.indexes.any (fun m => m.id == i) then 2 ^ i else 0) 0) ++
  leBytes 2 0

/-- The configuration digest (12 R329). -/
def digestOfPart (p : Partition) : W64 := BitVec.ofNat 64 (leNat ((sha384 (digestMessage p)).take 8))

/-- Form a partition's digest again (12 R330). -/
def formDigest (s : State) (i : Nat) : State := s.modPart i fun p => { p with digest := digestOfPart p }

/-! ### Requests -/

/-- The request's payload asks for a report (11 R313 Flags). -/
def wantsReport (c : Ctx) : Bool := c.isQuery && bit (fld c.pay 0 1) 1
/-- The request's payload asks for an export (11 R313 Flags). -/
def wantsExport (c : Ctx) : Bool := c.isQuery && bit (fld c.pay 0 1) 0

/-- Grammar state a request starts in (07 R201, R209); 0 without a grammar. -/
def startState (p : Partition) (o : TextOptions) : Nat :=
  match o.startState with
  | some n => n
  | none => match o.grammar with
    | some g => ((p.grammars.find? fun x => x.id == g).map (·.start)).getD 0
    | none => 0

/-- Bytes of the tags of a report, each from an 8-byte boundary (11 R318). -/
def reportTags (c : Ctx) : List (List Byte) := c.packed.map fun x => padTo 8 x.tagBytes

def sumLens (l : List (List Byte)) : Nat := (l.map (·.length)).sum

/-- Length of the report or export structure before its tokens (11 R318). -/
def reportBody (c : Ctx) : Nat := 0x20 + 24 * c.packed.length + sumLens (reportTags c)

/-- TextOffset of a report, a multiple of 64 (11 R318). -/
def reportTextOffset (c : Ctx) : Nat := alignUp 64 (reportBody c)

/-- Passage records of a report, with the offset of each one's tag (11 R318). -/
def reportPassages : List Passage → Nat → List Byte
  | [], _ => []
  | x :: r, off =>
    leBytes 8 x.entry.id.toNat ++ leBytes 4 x.firstToken ++ leBytes 4 x.tokenCount ++ [x.entry.tag] ++ [0] ++
      leBytes 2 x.tagBytes.length ++ leBytes 4 off ++ reportPassages r (off + (padTo 8 x.tagBytes).length)

/-- The report or export of a query (11 R318). -/
def reportBytes (s : State) (c : Ctx) (tokens : Nat) : List Byte :=
  let p := s.part c.part
  let exp := wantsExport c
  let tokenizer := match partModel p c.generator with
    | some m => m.tokenizer
    | none => 0
  let body := leBytes 4 c.prompt.length ++ leBytes 2 c.packed.length ++ leBytes 2 (c.opts.grammar.getD 0xFFFF) ++
    leBytes 2 (startState p c.opts) ++ [b8 tokenizer] ++ [b8 (boolNat c.nanSeen)] ++ leBytes 4 c.missing.toNat ++
    leBytes 2 c.skipped ++ leBytes 2 0 ++ leBytes 4 (if exp then 0 else tokens) ++
    leBytes 4 (if exp then reportBody c else 0) ++ leBytes 4 (if exp then 0 else reportTextOffset c) ++
    reportPassages c.packed (0x20 + 24 * c.packed.length) ++ (reportTags c).flatten
  if exp then body ++ c.prompt.flatMap (leBytes 4) else padTo 64 body

/-- Records of a request (02 R44): everything but status, reason, range and Detail. -/
def ctxRecord (s : State) (c : Ctx) (st : Status) (reason : Reason) (more : Bool) (detail : Nat) : Record :=
  { mkRecord s c.seq c.irq (some c.part) st (w32 detail) c.ticket with
    reason, more, context := some c.id, owner := some c.id }

/-- A launch that firmware formed for a unit's turn (15 R401), a step's slices (11 R289) or a stand's self-test (17 X19): it
has no task. -/
def taskless (l : Launch) : Bool :=
  match l.kind with
  | .engine _ => true
  | .standTest _ => true
  | .slices => true
  | _ => false

def isStandTest (l : Launch) : Bool :=
  match l.kind with
  | .standTest _ => true
  | _ => false

/-- A launch that firmware formed for one of some pieces of work (15 R401). -/
def turnOf (gone : List Nat) (l : Launch) : Bool :=
  match l.kind with
  | .engine j => gone.contains j
  | _ => false

/-- The lines that some jobs or launches held in WORK areas are free (log 85). -/
def freeWork (s : State) (owners : List Nat) : State :=
  { s with parts := s.parts.map fun p => { p with work := p.work.filter fun w => !owners.contains w.1 } }

/-- Some launches are gone: their requests for current are gone, and the credits they hold return at the next epoch boundary
(15 R405). -/
def dropLaunches (s : State) (gone : Launch → Bool) : State :=
  let old := (s.launches.filter gone).map (·.id)
  let s := freeWork s old
  { s with
    launches := s.launches.filter fun l => !gone l
    cut := { s.cut with
      requests := s.cut.requests.filter fun r => !old.contains r.launch
      held := s.cut.held.map fun h => if old.contains h.launch then { h with done := true } else h } }

/-- The launches formed for some pieces of work are over (15 R401). -/
def dropTurns (s : State) (gone : List Nat) : State := dropLaunches s (turnOf gone)

/-- Slices of some pieces of work are over, or the work is no more: nothing rides for them and nothing waits for them. -/
def unride (s : State) (gone : List Nat) : State :=
  { s with launches := s.launches.map fun l =>
      { l with slices := l.slices.filter fun j => !gone.contains j } }

/-- Pieces of work are no more: their units are free. -/
def dropJobs (s : State) (gone : List Nat) : State :=
  let s0 := unride (freeWork (dropTurns s gone) gone) gone
  let s1 : State := { s0 with launches := s0.launches.map fun l => { l with lists := l.lists.filter fun j => !gone.contains j } }
  { s1 with
    jobs := s1.jobs.filter fun j => !gone.contains j.id
    units := s1.units.map fun u => match u.job with
      | some j => if gone.contains j then { u with job := none } else u
      | none => u }

/-- Work that runs for one request: its jobs, searches, calls and fetched rows. -/
def dropCtxWork (s : State) (id : Nat) : State :=
  let s1 := dropJobs s ((s.jobs.filter fun j => j.ctx == some id).map (·.id))
  { s1 with
    searches := s.searches.filter fun x => x.owner != .context id
    calls := s.calls.filter fun x => match x.forWhat with
      | .passage c _ => c != id
      | .search n _ => !(s.searches.any fun y => y.id == n && y.owner == .context id)
      | _ => true
    fills := s.fills.filter fun f => match f.forWhat with
      | .spill c _ => c != id
      | .refill c _ => c != id
      | .passage c _ _ _ => c != id
      | _ => true }

/-- Pauses and resumes of a request that wait for its pages to be written out or read back (11 R299, R300). -/
def spillTickets (s : State) (id : Nat) : List Nat :=
  s.fills.filterMap fun f => match f.forWhat with
    | .spill c t => if c = id then some t else none
    | .refill c t => if c = id then some t else none
    | _ => none

/-- Bytes of text that a request may have (11 R297): its reserve, of which a payload that a replay keeps may leave less behind a
longer report (11 R302; log 91). -/
def textReserve (c : Ctx) : Nat :=
  match c.result with
  | some (_, _, len) => min (256 * c.maxNew) (len - c.textOffset)
  | none => 256 * c.maxNew

/-- Text of a request is released into its payload (11 R297). -/
def releaseText (s : State) (c : Ctx) (p : PlanerSt) : State :=
  let s1 := match c.result with
    | some (_, off, _) => writeResultAs s .text c.pair (off + c.textOffset + c.text.length) (p.text.drop c.text.length)
    | none => s
  bump (s1.modCtx c.id fun c => { c with u := p.u, text := p.text }) .planerRepair c.part 0 p.repaired

/-- The Planer's state of a request. -/
def ctxPlaner (c : Ctx) : PlanerSt := ⟨c.u, c.text, 0, false⟩

/-- A request that ends releases what the Planer still holds (07 R200). -/
def flushText (s : State) (c : Ctx) : State :=
  if c.u.isEmpty then s else releaseText s c (planerFlush (some (textReserve c)) (ctxPlaner c))

/-- The final record of a request (11 R298, R301, R315): the released text from its first byte, or the whole payload with
its report; after a cancel the text and tokens of its moment, as far as a replay has written that text again (11 R302).
`reported` bytes of the payload are kept. -/
def endRequest (s : State) (id : Nat) (st : Status) (reason : Reason) : State :=
  match s.ctx? id with
  | none => s
  | some c0 =>
    if c0.isOver then s else
    let freed := reason == .cancelledFreed || reason == .cancelledDropped
    let s := if freed || c0.cancelMark.isSome then s else flushText s c0
    let c := (s.ctx? id).getD c0
    let cut := c.cancelMark
    let tokens := match cut with
      | some m => m.tokens
      | none => c.output.length
    let textLen := match cut with
      | some m => min m.textLen c.text.length
      | none => c.text.length
    let partial_ := st == .ok && cut.isNone && !freed && c.missing != 0
    let status := if partial_ then .partialResult else st
    let detail := if partial_ then c.missing.toNat else tokens
    let reason := if cut.isSome && reason != .cancelledFreed then .cancelledDropped else reason
    let r := ctxRecord s c status reason false detail
    let s1 := dropCtxWork s id
    let s2 := match c.result with
      | some (_, off, _) => if wantsReport c then writeResult s1 c.pair off (reportBytes s c tokens) else s1
      | none => s1
    let r := match c.result with
      | some (h, off, _) =>
        if wantsExport c && cut.isNone then { r with handle := some h, resOffset := off, resLength := (reportBytes s c tokens).length }
        else if wantsReport c then { r with handle := some h, resOffset := off, resLength := c.textOffset + textLen }
        else { r with handle := some h, resOffset := off, resLength := textLen }
      | none => r
    let s3 := s2.modCtx id fun c => { c with isOver := true }
    let s4 := s3.modPart c.part fun p => { p with recovering := p.recovering.filter fun x => x.1 != id }
    let s5 := if reason == .cancelledDropped then bump s4 .serveCancelDropped c.part 0 1
      else if reason == .cancelledFreed then bump s4 .serveCancelFreed c.part 0 1 else s4
    let s6 := post s5 c.pair r
    let s7 := { s6 with cmds := s6.cmds.filter fun x => x.ticket != c.ticket }
    let held := match c.pauseHeld with
      | some (t, _) => [t]
      | none => []
    (held ++ spillTickets s id).foldl (fun s t => finishPlain s t .notFound 0) s7

/-- A replay of a request (11 R302; 15 R423): it starts again from its first stage with empty text, keeping its context,
admission sequence, payload and handle. -/
def restartCtx (s : State) (c : Ctx) : Ctx :=
  { c with state := .queued, stage := .none, queryTokens := [], encTokens := [], vector := [], entries := [], missing := 0,
           passages := [], pairTokens := [], scores := [], skipped := 0, nanSeen := false, packed := [], prompt := [],
           taken := 0, output := [], u := [], gstate := startState (s.part c.part) c.opts, text := [], reported := 0,
           kvPages := [], spilled := none, ending := none, replays := c.replays + 1, needReplay := false }

/-- A fault destroyed state only this request holds (15 R423): it is replayed, a paused one at its resume; a fourth such
fault ends it. -/
def replayRequest (s : State) (id : Nat) : State :=
  match s.ctx? id with
  | none => s
  | some c =>
    if c.isOver then s
    else if 3 ≤ c.replays then endRequest s id .fault .none
    else if c.state == .paused then s.modCtx id fun c => { c with needReplay := true }
    else
      let s1 := dropCtxWork s id
      let s2 := s1.modCtx id (restartCtx s)
      let s3 := s2.modPart c.part fun p => { p with
        recovering := setKey p.recovering id (max (lookupD p.recovering id 0) c.output.length) }
      post (bump s3 .serveReplayed c.part 0 1) c.pair (ctxRecord s3 c .ok .faultReplayed true 0)

/-- Requests of a partition that have not formed their final record (02 R54, 11 R303). -/
def inFlight (s : State) (i : Nat) : List Ctx := s.ctxs.filter fun c => c.part == i && !c.isOver

/-! ### Leaving work behind -/

/-- Jobs of a partition leave their units; its searches, calls, fills, launches and the rows it fetched are gone, and so are
its requests for current. Credits its tasks hold return at the next epoch boundary (13 R356, 15 R405). Self-tests of its stands
go on. -/
def dropEngineWork (s : State) (i : Nat) : State :=
  let gone := (s.jobs.filter fun j => j.part == i).map (·.id)
  let old := (s.launches.filter fun l => l.part == i).map (·.id)
  let s := (dropLaunches s fun l => l.part == i && !isStandTest l).modPart i fun p => { p with work := [] }
  { s with
    jobs := s.jobs.filter fun j => j.part != i
    units := s.units.map fun u => match u.job with
      | some j => if gone.contains j then { u with job := none } else u
      | none => u
    searches := s.searches.filter fun x => x.part != i
    calls := s.calls.filter fun x => x.part != i
    fetched := s.fetched.filter fun x => !gone.contains x.job
    fills := s.fills.filter fun f => f.part != i
    stands := s.stands.map fun x => match x.task with
      | some (l, _) => if old.contains l then { x with task := none } else x
      | none => x }

/-- Commands that FENCE holds on the pairs of a partition (02 R45), with their tickets: taken, not complete. -/
def fencedOf (s : State) (i : Nat) : List (Nat × Code × Req) :=
  ((s.part i).pairs ++ [64 + i]).flatMap fun k => (s.pair k).fenced

/-- The held commands of a partition's pairs are held no longer: they count as begun, after those before them. -/
def unfence (s : State) (i : Nat) : State :=
  ((s.part i).pairs ++ [64 + i]).foldl (fun s k => s.modPair k fun p => { p with fenced := [] })
    { s with cmds := s.cmds ++ (fencedOf s i).map fun f => mkCmd f.2.1 (some i) f.2.2 f.1 }

/-- Every command of a partition that is not complete completes with ST_FAULT (02 R54), one that FENCE holds as well; a
request with its text so far. -/
def faultCommands (s : State) (i : Nat) : State :=
  let s := unfence s i
  let s0 := ((s.cmds.filter fun c => c.part == some i && c.ctx.isNone).map (·.ticket)).foldl
    (fun s t => finishPlain s t .fault 0) s
  let s1 := (inFlight s0 i).foldl (fun s c => endRequest s c.id .fault .none) s0
  let ts := (s1.cmds.filter fun c => c.part == some i).map (·.ticket)
  ts.foldl (fun s t => finishPlain s t .fault 0) s1

/-! ### Pairs of a binding -/

/-- Cut a list of module segments into the regions of pairs, in order (13 R350). -/
def cutRegions : List Nat → List (Nat × Geometry) → List (Nat × Geometry × List Nat)
  | _, [] => []
  | segs, p :: rest => (p.1, p.2, segs.take (regionSegs p.2)) :: cutRegions (segs.drop (regionSegs p.2)) rest

/-- A pair bound afresh: its region zeroed, its indices and expected number at 0 (02 R30); error bits stay (log 44). -/
def freshPair (part : Nat) (e : Nat × Geometry × List Nat) (s : State) : State :=
  { s.modPair e.1 (fun p => { Pair.reset with
      bound := true, part := some part, geom := e.2.1, segs := e.2.2,
      tailErr := p.tailErr, headErr := p.headErr, unboundWr := p.unboundWr, via := p.via })
    with landing := Mem.zeroSegs s.landing e.2.2 }

/-- A pair that is no longer bound (02 R24). -/
def releasePair (i : Nat) (s : State) : State :=
  s.modPair i fun p => { Pair.reset with
    tailErr := p.tailErr, headErr := p.headErr, unboundWr := p.unboundWr, via := p.via }

/-- Pairs of a binding with the peer pair last (13 R350, 02 R26). -/
def withPeer (part : Nat) (pairs : List (Nat × Geometry)) : List (Nat × Geometry) :=
  pairs ++ match pairs with
    | [] => []
    | p :: _ => [(64 + part, p.2)]

/-- A re-bind whose switch is done ends: its fresh pairs are bound, and its final record has the re-bind time (13 R360, R361). -/
def rebindEnds (s : State) (i : Nat) : State :=
  match (s.part i).rebind with
  | some rb =>
    if rb.switched then
      let us := (s.now - rb.effectAt.getD s.now) / 1000
      let s1 := rb.fresh.foldl (fun s e => freshPair i e s) s
      finishPlain (s1.modPart i fun p => { p with rebind := none, lastRebindUs := us }) rb.ticket .ok us
    else s
  | none => s

/-- A partition enters FAULTED (02 R54, 15 R424); a re-bind whose switch has begun completes first (13 R362). -/
def enterFaulted (s : State) (i : Nat) : State :=
  let st := (s.part i).state
  if st == .unbound || st == .faulted then s else
    let s1 := (rebindEnds s i).modPart i fun p => { p with state := .faulted }
    let s2 := faultCommands s1 i
    let s3 := dropEngineWork s2 i
    s3.modPart i fun p => { p with rebind := none, serve := none, warm := false, recovering := [], controls := [], steps := [],
                                   changes := [], globals := [], heldTokens := [], loopbacks := [], selftests := [],
                                   reserved := [],
                                   stepsDone := p.stepsFormed }

/-- A protection violation (05 R128, R144): counted, and the partition enters FAULTED (15 R424). -/
def protection (s : State) (i : Nat) : State := enterFaulted (bump s .landingProt 0 0 1) i

end Sys2Proof.Machine
end

