-- ==== Sys2Proof/Machine/Peers.lean ====
section
/-! DEFINITION. How a module reaches a peer and host memory: peer commands (14 R380; 06 R161), the choice between owner and
replica (08 R222, 09 R263, 15 R420), and the frames of HOST space (14 R394; 05 R137). -/

namespace Sys2Proof.Machine

/-! ### Peer commands -/

/-- Header of a peer command as its frame carries it (02 R37); Seq is set where it is placed (14 R380). -/
def peerHeader (c : Code) (len : Nat) : List Byte :=
  leBytes 4 0 ++ leBytes 2 c.num ++ [0, 0] ++ leBytes 2 0xFFFF ++ [0, 0] ++ leBytes 4 len ++ List.replicate 48 0

/-- A peer command as frames to the peer pair of the same partition id on the target (14 R380, 06 R161; log 20): PEER_REQ
with an inline payload of at most 448 bytes, else PEER_DATA frames after it. The payload leaves the Landing in class LINK (01 R16). -/
def sendPeer (s : State) (part : Nat) (target : W16) (c : Code) (tag : Nat) (pay : List Byte) : State :=
  let small := decide (pay.length ≤ 448)
  let head := peerHeader c pay.length ++ if small then pay else []
  let s1 := sendFrame (charge s part .link pay.length) (4 + part) (mkFrame .peerReq target (b8 part) (b8 part) 0 (w32 head.length) (w16 tag) head)
  if small then s1 else (framePieces pay).foldl
    (fun s x => sendFrame s (4 + part) (mkFrame .peerData target (b8 part) (b8 part) (w64 (64 + x.1)) (w32 x.2.length)
      (w16 tag) x.2)) s1

/-- Can a peer be asked now: not declared lost, and a route to it exists (15 R420)? -/
def peerUp (s : State) (m : W16) : Bool := !s.lost.contains m && reachable s m

/-- Owner, or replica where the owner cannot be asked (08 R222, 09 R263); the flag says the replica was taken. -/
def pickPeer (s : State) (owner replica : Nat) : Option (W16 × Bool) :=
  if peerUp s (w16 owner) then some (w16 owner, false)
  else if replica != 0xFFFF && peerUp s (w16 replica) then some (w16 replica, true)
  else none

/-- Ask a peer: the call is kept until its reply, and its frames leave unless a snapshot holds them back (12 R341). -/
def placeCall (s : State) (part : Nat) (target : W16) (replica : Nat) (onReplica : Bool) (forWhat : CallFor) (c : Code)
    (pay : List Byte) : State :=
  let held := (s.part part).globals.any fun g => g.code == .snapshotTake && g.captured.isSome
  let t := s.nextId
  let call : Call := { tag := t, part, target := target.toNat, replica, onReplica, forWhat, pay, got := [],
                       issued := s.now, held }
  let s1 := { s with nextId := t + 1, calls := s.calls ++ [call] }
  if held then s1 else sendPeer s1 part target c t pay

def State.dropCall (s : State) (t : Nat) : State := { s with calls := s.calls.filter fun x => x.tag != t }

/-- The code of the command a call sent. -/
def Call.code (c : Call) : Code :=
  match c.forWhat with
  | .search _ _ => .peerSearch
  | .passage _ _ => .peerFetch
  | .rows _ _ _ => .peerGather
  | .update _ _ => .peerUpdate
  | .fill _ => .peerFetch

/-- The same call to another module; its bound starts again (09 R263). -/
def resendCall (s : State) (c : Call) (target : W16) : State :=
  placeCall (s.dropCall c.tag) c.part target c.replica true c.forWhat c.code c.pay

/-- Bound of a T2 fill, in counts (05 R135): 100 ms. -/
def t2Bound : Nat := 100000000

/-! ### Host memory -/

/-- The pair and the bridge by which a partition reaches HOST space (14 R394): its lowest-numbered pair that a bridge maps;
`none` as the bridge stands for this module itself. -/
def hostVia (s : State) (part : Nat) : Option (Nat × Option W16) :=
  (s.part part).pairs.findSome? fun k =>
    if s.ident.bridge && (slotOf s s.myId.toNat k).isSome then some (k, none)
    else ((s.pair k).via).map fun b => (k, some b)

/-- The endpoint's class code, a processing accelerator, and its SR-IOV constants: TotalVFs, first VF offset, VF stride (14
R390). -/
def classCode : Nat := 0x120000
def totalVFs : Nat := 32
def firstVfOffset : Nat := 1
def vfStride : Nat := 1

/-- Routing id of a function within the endpoint: the physical function, then the virtual ones (14 R390). -/
def routingId (fn : Nat) : Nat := if fn = 0 then 0 else firstVfOffset + (fn - 1) * vfStride

/-- Lowest PCIe tag of 14 bits that no read has (14 R395); none while all are taken. -/
def freePcieTag (s : State) : Option Nat :=
  (firstFrom (fun t => !s.bridge.hostReads.any fun h => h.tag == t) (s.bridge.hostReads.length + 1) 0 1).filter (· < 16384)

/-- Reads that wait are issued in order, each of at most the configured size and within one block of it, while a tag is free
(14 R395). -/
def issueReads : Nat → State → State
  | 0, s => s
  | fuel + 1, s =>
    match s.bridge.readWait.find? (fun a => s.bridge.busMaster.contains a.fn && s.bridge.rate != 0), freePcieTag s with
    | some a, some tag =>
      let n := min a.len (s.bridge.maxRead - a.addr % s.bridge.maxRead)
      let rest := if n < a.len ∧ n ≠ 0 then s.bridge.readWait.replace a { a with addr := a.addr + n, len := a.len - n }
        else s.bridge.readWait.erase a
      issueReads fuel { s with
        bridge := { s.bridge with
          readWait := rest
          hostReads := s.bridge.hostReads ++ [{ tag, fn := a.fn, module := a.module, frameTag := a.frameTag, fill := a.fill, len := n }] }
        hostOut := s.hostOut ++ [.read (routingId a.fn) (w64 a.addr) n tag] }
    | _, _ => s

/-- A write of host memory in the name of a function, in payloads of at most the configured size (14 R395). -/
def bridgeWrite (s : State) (fn : Nat) (addr : Nat) (bs : List Byte) : State :=
  { s with hostOut := s.hostOut ++ (chunks s.bridge.maxPayload addr bs.length).map fun c =>
      .write (routingId fn) (w64 c.1) ((bs.drop (c.1 - addr)).take c.2) }

/-- Bytes one HOST_READ asks for at most; Length is a u32 (14 R371). -/
def hostPiece : Nat := 0x80000000

/-- A read of host memory for a module in the name of the function that maps its pair (14 R394); without bus mastering it fails
(R395), shown as false. -/
def bridgeRead (s : State) (module : W16) (pair : Nat) (addr : Nat) (len : Nat) (frameTag : W16) (fill : Option Nat) :
    State × Bool :=
  match slotOf s module.toNat pair with
  | none => (s, false)
  | some e =>
    if !s.bridge.busMaster.contains e.fn || s.bridge.rate = 0 then (s, false) else
      (issueReads 16384 { s with bridge := { s.bridge with
        readWait := s.bridge.readWait ++ [{ fn := e.fn, module, frameTag, fill, addr, len }] } }, true)

/-- Tag of a frame that asks the bridge for host memory: the pair whose function stands as requester in the upper 6 bits, and
the low bits of the fill (14 R371, R394; log 20). -/
def hostTag (pair fill : Nat) : W16 := w16 (pair * 1024 + fill % 1024)

/-- Ask for a fill's bytes of host memory (05 R131, R137; 14 R394): the state and whether the reads could be sent. -/
def hostFetch (s : State) (part fill addr len : Nat) : State × Bool :=
  match hostVia s part with
  | none => (s, false)
  | some (pair, none) =>
    (chunks hostPiece addr len).foldl (fun (acc : State × Bool) c =>
      let r := bridgeRead acc.1 acc.1.myId pair c.1 c.2 (w16 fill) (some fill)
      (r.1, acc.2 && r.2)) (s, true)
  | some (pair, some b) =>
    ((chunks hostPiece addr len).foldl (fun s c =>
      sendFrame s (4 + part) (mkFrame .hostRead b 0xFF (b8 part) (w64 c.1) (w32 c.2) (hostTag pair fill) [])) s, reachable s b)

/-- Write bytes to host memory for a partition (14 R394); false when no bridge can take them. -/
def hostStore (s : State) (part addr : Nat) (bs : List Byte) : State × Bool :=
  match hostVia s part with
  | none => (s, false)
  | some (pair, none) =>
    match slotOf s s.myId.toNat pair with
    | some e =>
      if s.bridge.busMaster.contains e.fn && s.bridge.rate != 0 then
        (bridgeWrite s e.fn addr bs, true)
      else (s, false)
    | none => (s, false)
  | some (pair, some b) =>
    ((framePieces bs).foldl (fun s c =>
      sendFrame s (4 + part) (mkFrame .hostWrite b 0xFF (b8 part) (w64 (addr + c.1)) (w32 c.2.length) (hostTag pair 0) c.2)) s,
      reachable s b)

/-! ### Fills -/

def State.fill? (s : State) (id : Nat) : Option Fill := s.fills.find? fun f => f.id == id

def State.dropFill (s : State) (id : Nat) : State := { s with fills := s.fills.filter fun f => f.id != id }

/-- Payload of a PEER_FETCH of a T1 range (log 20): kind 0, 7 reserved bytes, address, length. -/
def fetchRange (addr len : Nat) : List Byte := leBytes 8 0 ++ leBytes 8 addr ++ leBytes 8 len

/-- Begin a fill (05 R131): from HOST its reads go out, each frame that has no route being counted (14 R379), from PEER_T1 its PEER_FETCH. False when no bridge can take the reads,
and then no fill is left behind; a peer that cannot be reached leaves the fill to its bound (05 R135). -/
def startFill (s : State) (part space peer addr len : Nat) (forWhat : FillFor) : State × Bool :=
  let id := s.nextId
  let f : Fill := { id, part, space, peer, addr, len, forWhat, issued := s.now, got := [] }
  let s1 := { s with nextId := id + 1, fills := s.fills ++ [f] }
  if space = 2 then
    let r := hostFetch s1 part id addr len
    if r.2 then r else (r.1.dropFill id, false)
  else if space = 3 then
    (placeCall s1 part (w16 peer) 0xFFFF false (.fill id) .peerFetch (fetchRange addr len), true)
  else (s1, true)

end Sys2Proof.Machine
end

