-- ==== Sys2Proof/Machine/Chipper.lean ====
section
/-! DEFINITION. The Chipper codec (05 R151 to R154, R486). An object is read through `rd off len`, its bytes from the start
of its block map. -/

namespace Sys2Proof.Machine

/-- Start of the data area of an object of `n` blocks (05 R486). -/
def chipDataAt (n : Nat) : Nat := cdiv (8 * n) 256 * 256

/-- Zig-zag of an `e`-bit value and back (05 R153). -/
def unzig (z e : Nat) : Nat := if z % 2 = 0 then z / 2 else (2 ^ e - 1) - z / 2
def zig (v e : Nat) : Nat := if v < 2 ^ (e - 1) then 2 * v else 2 * (2 ^ e - 1 - v) + 1

/-- Rotations of plane H by one bit (05 R153). -/
def rotr1 (b : Nat) : Nat := b / 2 + b % 2 * 128
def rotl1 (b : Nat) : Nat := b % 128 * 2 + b / 128

/-- The values of `g` groups of a stream from bit `pos` on, with the end position; none where a width exceeds e. -/
def chipGroups (e stream : Nat) : Nat → Nat → Option (List Nat × Nat)
  | 0, pos => some ([], pos)
  | g + 1, pos =>
    let w := stream / 2 ^ pos % 16
    let base := stream / 2 ^ (pos + 4) % 2 ^ e
    if e < w then none else
      let body := stream / 2 ^ (pos + 4 + e) % 2 ^ (32 * w)
      match chipGroups e stream g (pos + 4 + e + 32 * w) with
      | none => none
      | some (r, fin) =>
        some ((List.range 32).map (fun i => (base + body / 2 ^ (w * i) % 2 ^ w) % 2 ^ e) ++ r, fin)

/-- Bytes of the values of a stream by mode: 2 BYTE, 3 BF16, 4 NIBBLE (05 R153). -/
def chipPlace (mode : Nat) (v : List Nat) : List Byte :=
  if mode = 2 then v.map fun x => b8 (unzig x 8)
  else if mode = 3 then
    (List.zipWith (fun h l => [b8 l, b8 (rotr1 h)]) (v.take 2048) (v.drop 2048)).flatten
  else (pairUp v).map fun x => b8 (unzig x.1 4 + 16 * unzig x.2 4)
where
  /-- Neighbours as pairs. -/
  pairUp : List Nat → List (Nat × Nat)
    | a :: b :: r => (a, b) :: pairUp r
    | _ => []

/-- Block `b` of an object of `n` blocks (05 R152, R153); none where it fails to decode. -/
def chipBlock (rd : Nat → Nat → List Byte) (n b : Nat) : Option (List Byte) :=
  let entry := leNat (rd (8 * b) 8)
  let mode := bitsOf entry 63 60
  let sectors := bitsOf entry 59 56
  let sector := bitsOf entry 35 0
  if bitsOf entry 55 36 ≠ 0 || decide (4 < mode) || decide (n ≤ b) then none
  else if mode = 0 then (if sectors = 0 && sector == 0 then some (List.replicate 4096 0) else none)
  else if mode = 1 then (if sectors = 15 then some (rd (chipDataAt n + 256 * sector) 4096) else none)
  else
    let e := if mode = 4 then 4 else 8
    let stream := leNat (rd (chipDataAt n + 256 * sector) (256 * (sectors + 1)))
    match chipGroups e stream (32768 / e / 32) 0 with
    | none => none
    | some (v, fin) => if 2048 * (sectors + 1) < fin then none else some (chipPlace mode v)

/-- All the blocks from `b` on, `k` of them. -/
def chipBlocks (rd : Nat → Nat → List Byte) (n : Nat) : Nat → Nat → Option (List Byte)
  | _, 0 => some []
  | b, k + 1 =>
    match chipBlock rd n b with
    | none => none
    | some x => (chipBlocks rd n (b + 1) k).map (x ++ ·)

/-- Do the sectors of every block lie within `len` bytes from the start of the map? -/
def chipFits (rd : Nat → Nat → List Byte) (n len : Nat) : Bool :=
  (List.range n).all fun b =>
    let entry := leNat (rd (8 * b) 8)
    bitsOf entry 63 60 == 0 ||
      decide (chipDataAt n + 256 * (bitsOf entry 35 0 + bitsOf entry 59 56 + 1) ≤ len)

/-- Bytes from the start of its map that the first `k` blocks of an object of `n` blocks take, its whole map included. -/
def chipEnd (rd : Nat → Nat → List Byte) (n k : Nat) : Nat :=
  (List.range k).foldl (fun m b =>
    let entry := leNat (rd (8 * b) 8)
    if bitsOf entry 63 60 = 0 then m
    else max m (chipDataAt n + 256 * (bitsOf entry 35 0 + bitsOf entry 59 56 + 1))) (8 * n)

/-! ### Encoding (05 R154) -/

/-- Fields of (value, width) packed from bit 0 up. -/
def packBits : List (Nat × Nat) → Nat
  | [] => 0
  | x :: r => x.1 + 2 ^ x.2 * packBits r

/-- Fewest bits that hold a number. -/
def bitLen (n : Nat) : Nat := if n = 0 then 0 else n.log2 + 1

/-- Fields of `g` groups of 32 mapped values of `e` bits. -/
def chipFields (e : Nat) : Nat → List Nat → List (Nat × Nat)
  | 0, _ => []
  | g + 1, v =>
    let grp := v.take 32
    let base := grp.foldl min (2 ^ e - 1)
    let w := bitLen (grp.foldl (fun m x => max m (x - base)) 0)
    (w, 4) :: (base, e) :: (grp.map fun x => (x - base, w)) ++ chipFields e g (v.drop 32)

/-- Mapped values of a block in mode BF16: plane H, then plane L. -/
def chipPlanes : List Byte → List Nat × List Nat
  | l :: h :: r => ((rotl1 h.toNat) :: (chipPlanes r).1, l.toNat :: (chipPlanes r).2)
  | _ => ([], [])

/-- A block encoded in mode BF16: mode, sectors and bytes of its sectors (05 R154). -/
def chipEncodeBlock (block : List Byte) : Nat × Nat × List Byte :=
  if allZero block then (0, 0, [])
  else
    let planes := chipPlanes block
    let fields := chipFields 8 128 (planes.1 ++ planes.2)
    let bits := (fields.map (·.2)).sum
    let sectors := cdiv bits 2048
    if 15 < sectors then (1, 16, block) else (3, sectors, leBytes (256 * sectors) (packBits fields))

/-- Map entries and data of blocks whose sectors follow one another from sector `at_` on. -/
def chipEncodeFrom : Nat → List (List Byte) → List Byte × List Byte
  | _, [] => ([], [])
  | at_, blk :: r =>
    let (mode, k, data) := chipEncodeBlock blk
    let rest := chipEncodeFrom (at_ + k) r
    let entry := if mode = 0 then 0 else mode * 2 ^ 60 + (k - 1) * 2 ^ 56 + at_
    (leBytes 8 entry ++ rest.1, data ++ rest.2)

/-- Bytes cut into blocks of 4 KiB. -/
def blocksOf (bytes : List Byte) : List (List Byte) :=
  (List.range (bytes.length / 4096)).map fun i => (bytes.drop (4096 * i)).take 4096

/-- The object of some blocks in mode BF16, its blocks' sectors in block order (05 R154; order by log 54). -/
def chipEncode (bytes : List Byte) : List Byte :=
  let r := chipEncodeFrom 0 (blocksOf bytes)
  padTo 256 r.1 ++ r.2

end Sys2Proof.Machine
end

