-- ==== Sys2Proof/Machine/Skidder.lean ====
section
/-! DEFINITION. Move descriptors of the Skidder: their fields and validity (06 R161 to R168, R174 to R177), footprints and
protection (R169, R170), and the walk that gives the bytes written (R165, R166). -/

namespace Sys2Proof.Machine

/-- A move descriptor (06 R162); strides and pads by dimension. -/
structure Desc where
  op : Nat
  conv : Nat
  srcFmt : Nat
  dstFmt : Nat
  srcSpace : Nat
  dstSpace : Nat
  peer : Nat
  srcBase : Nat
  dstBase : Nat
  ext : List Nat
  perm : List Nat
  permWord : Nat
  srcStride : List Int
  dstStride : List Int
  padLo : List Nat
  padHi : List Nat
  padValue : Nat
  auxBase : Nat
  indexed : Bool
  chipSrc : Bool
  chipDst : Bool
  auxCount : Nat
  deriving DecidableEq, Repr

def descParse (l : List Byte) : Desc :=
  let pw := fld l 0x2C 4
  let fl := fld l 0x70 4
  { op := fld l 0 1, conv := fld l 1 1, srcFmt := fld l 2 1, dstFmt := fld l 3 1, srcSpace := fld l 4 1,
    dstSpace := fld l 5 1, peer := fld l 6 2, srcBase := fld l 8 8, dstBase := fld l 0x10 8, ext := fldList l 0x18 4 5,
    perm := (List.range 5).map fun s => bitsOf pw (3 * s + 2) (3 * s), permWord := pw,
    srcStride := 0 :: (fldList l 0x30 4 4).map (signed 32), dstStride := 0 :: (fldList l 0x40 4 4).map (signed 32),
    padLo := fldList l 0x50 2 5, padHi := fldList l 0x5A 2 5, padValue := fld l 0x64 4, auxBase := fld l 0x68 8,
    indexed := bit fl 0, chipSrc := bit fl 1, chipDst := bit fl 2, auxCount := fld l 0x74 4 }

/-! ### Formats (06 R163) -/

/-- Bytes of an element; none for a code format and for no format. -/
def fmtSize (f : Nat) : Option Nat :=
  match f with
  | 1 => some 2 | 2 => some 4 | 3 => some 1 | 4 => some 1 | 5 => some 2 | 6 => some 2 | 7 => some 4 | 8 => some 4
  | _ => none

/-- Width of a code format. -/
def fmtCode (f : Nat) : Option Nat :=
  match f with
  | 0x12 => some 2 | 0x13 => some 3 | 0x14 => some 4 | 0x16 => some 6 | 0x18 => some 8
  | _ => none

def fmtOk (f : Nat) : Bool := (fmtSize f).isSome || (fmtCode f).isSome

/-- Bytes of a run of `n` elements; codes in whole groups (06 R167). -/
def fmtBytes (f n : Nat) : Nat :=
  match fmtCode f with
  | some b => n / 32 * groupBytes b
  | none => n * (fmtSize f).getD 0

/-- Rows of the conversion table (06 R174). -/
def convOk (conv s d : Nat) : Bool :=
  match conv with
  | 0 => fmtOk s && s == d
  | 1 => s == 1 && d == 2
  | 2 => s == 2 && d == 1
  | 3 => decide (3 ≤ s ∧ s ≤ 8) && (d == 1 || d == 2)
  | 4 => s == 2 && (d == 7 || d == 8)
  | 5 => (fmtCode s).isSome && (d == 1 || d == 2)
  | 6 => s == 4 && (fmtCode d).isSome
  | 7 => (fmtCode s).isSome && d == 4
  | _ => false

/-! ### Validity (06 R164) -/

def Desc.extAt (d : Desc) (s : Nat) : Nat := d.ext.getD s 1
def Desc.permAt (d : Desc) (s : Nat) : Nat := d.perm.getD s 0
def Desc.srcSt (d : Desc) (s : Nat) : Int := d.srcStride.getD s 0
def Desc.dstSt (d : Desc) (s : Nat) : Int := d.dstStride.getD s 0

/-- Positions of a destination dimension (06 R165). -/
def Desc.dext (d : Desc) (e : Nat) : Nat :=
  d.padLo.getD e 0 + d.padHi.getD e 0 +
    (((List.range 5).filter fun s => d.permAt s == e).map d.extAt).sum

/-- Lowest and highest offset of a set of strides, by the highest index of each dimension. -/
def spanOf (terms : List (Nat × Int)) : Int × Int :=
  terms.foldl (fun b t => let v := (t.1 : Int) * t.2; (b.1 + min 0 v, b.2 + max 0 v)) (0, 0)

/-- Highest source index of a dimension; with INDEXED the rows 0 to AuxCount − 1 of dimension 1 (06 R164). -/
def Desc.srcTop (d : Desc) (s : Nat) : Nat := (if d.indexed && s == 1 then d.auxCount else d.extAt s) - 1

/-- Footprint of the source and of the destination: first byte and end (06 R170). -/
def Desc.srcSpan (d : Desc) : Int × Int :=
  let p := spanOf ((List.range 4).map fun k => (d.srcTop (k + 1), d.srcSt (k + 1)))
  ((d.srcBase : Int) + p.1, (d.srcBase : Int) + p.2 + (fmtBytes d.srcFmt (d.extAt 0) : Nat))

def Desc.dstSpan (d : Desc) : Int × Int :=
  let p := spanOf ((List.range 4).map fun k => (d.dext (k + 1) - 1, d.dstSt (k + 1)))
  ((d.dstBase : Int) + p.1, (d.dstBase : Int) + p.2 + (fmtBytes d.dstFmt (d.dext 0) : Nat))

/-- Footprint of the scale array or of the index list (06 R166, R175). -/
def Desc.auxSpan (d : Desc) : Int × Int :=
  if d.indexed then (d.auxBase, (d.auxBase : Int) + 4 * (d.extAt 1 : Nat))
  else match d.conv, fmtCode d.srcFmt with
    | 5, some b =>
      let g : Int := (groupBytes b : Nat)
      ((d.auxBase : Int) + (d.srcSpan.1 - d.srcBase) / g, (d.auxBase : Int) + (d.srcSpan.2 - d.srcBase) / g)
    | _, _ => (0, 0)

/-- Every run start is a multiple of the side's alignment, and runs off the Landing span whole 64-byte units (06 R168). -/
def runsAligned (base : Nat) (strides : List (Bool × Int)) (space run : Nat) : Bool :=
  let a : Nat := if space = 0 then 4 else 64
  base % a == 0 && strides.all (fun x => !x.1 || x.2 % (a : Int) == 0) && (space == 0 || run % 64 == 0)

/-- Blocks that a Chipper side names, counted from its map's start: one more than the highest (06 R177). -/
def Desc.chipTop (d : Desc) : Nat :=
  let st := if d.chipSrc then d.srcSt else d.dstSt
  let p := spanOf ((List.range 4).map fun k => (d.extAt (k + 1) - 1, st (k + 1)))
  (p.2.toNat + d.extAt 0) / 4096

/-- The constraints of a Chipper object on one side (06 R177, R164). -/
def Desc.chipOk (d : Desc) : Bool :=
  let objSt := if d.chipSrc then d.srcSt else d.dstSt
  let memSt := if d.chipSrc then d.dstSt else d.srcSt
  !(d.chipSrc && d.chipDst) && d.op == 1 && d.permWord == 0x4688 && d.conv == 0 && d.srcFmt == 3 && d.dstFmt == 3 &&
  d.extAt 0 % 4096 == 0 && d.padLo.all (· == 0) && d.padHi.all (· == 0) &&
  (if d.chipSrc then d.srcSpace != 0 else d.dstSpace == 1) &&
  (List.range 4).all (fun k => d.extAt (k + 1) == 1 ||
    (decide (0 ≤ objSt (k + 1)) && objSt (k + 1) % 4096 == 0 && memSt (k + 1) % 256 == 0)) &&
  (if d.chipSrc then d.dstBase else d.srcBase) % 256 == 0 && decide (d.chipTop ≤ d.auxCount)

/-- Is the source read at more than one index of dimension `s`: with INDEXED the rows 0 to AuxCount − 1 of dimension 1 (06 R166,
R168)? -/
def Desc.srcMoves (d : Desc) (s : Nat) : Bool := decide (1 < if d.indexed && s == 1 then d.auxCount else d.extAt s)

/-- Validity of a descriptor that firmware may issue (06 R161 to R168, R174 to R177). INDEXED together with DEQUANT, where AuxBase
would name both the index list and the scale array, is refused: DESIGN CHOICE, the spec lists no such case (log 94). -/
def descValid (l : List Byte) : Bool :=
  let d := descParse l
  let code := (fmtCode d.srcFmt).isSome || (fmtCode d.dstFmt).isSome
  let ks := (List.range 4).map (· + 1)
  has l 128 && zeroAt l 0x78 8 && decide (fld l 0x70 4 < 8) && decide (d.permWord < 2 ^ 15) &&
  (d.op == 1 || d.op == 2) && decide (d.srcSpace ≤ 3) && (decide (d.dstSpace ≤ 2) || d.dstSpace == 4) &&
  (d.srcSpace == 0 || d.dstSpace == 0) && (d.peer == 0 || d.srcSpace == 3 || d.dstSpace == 4) &&
  (List.range 5).all (fun e => d.perm.contains e) &&
  d.ext.all (fun x => decide (1 ≤ x ∧ x ≤ 16777216)) && decide (d.ext.foldl (· * ·) 1 ≤ 2 ^ 32) &&
  ks.all (fun e => decide (d.dext e ≤ 1) || d.dstSt e != 0) &&
  (if d.op = 1 then !d.indexed && ks.all (fun s => d.extAt s == 1 || d.srcSt s != 0) else d.permWord == 0x4688) &&
  (if d.indexed then decide (d.extAt 1 ≤ 1048576) else d.chipSrc || d.chipDst || d.auxCount == 0) &&
  (d.indexed || d.conv == 5 || d.auxBase == 0) && !(d.indexed && d.conv == 5) &&
  convOk d.conv d.srcFmt d.dstFmt &&
  (!code || (d.extAt 0 % 32 == 0 && d.padLo.getD 0 0 % 32 == 0 && d.padHi.getD 0 0 % 32 == 0 && d.permAt 0 == 0)) &&
  (d.conv != 5 || ks.all fun s => d.srcSt s % ((groupBytes ((fmtCode d.srcFmt).getD 1) : Nat) : Int) == 0) &&
  runsAligned d.srcBase (ks.map fun s => (d.srcMoves s, d.srcSt s)) d.srcSpace
    (fmtBytes d.srcFmt (d.extAt 0)) &&
  runsAligned d.dstBase (ks.map fun e => (decide (1 < d.dext e), d.dstSt e)) d.dstSpace (fmtBytes d.dstFmt (d.dext 0)) &&
  (!(d.chipSrc || d.chipDst) || d.chipOk) &&
  (d.srcSpace != 0 || d.dstSpace != 0 || decide (d.srcSpan.2 ≤ d.dstSpan.1) || decide (d.dstSpan.2 ≤ d.srcSpan.1))

/-- Validity of a descriptor of a model image, which never names PEER_MBOX (06 R161, R164). -/
def imageDescValid (l : List Byte) : Bool := descValid l && fld l 5 1 != 4

/-! ### Elements -/

/-- Bit patterns of the `n` elements of a run. -/
def runDecode (f n : Nat) (bytes : List Byte) : List Nat :=
  match fmtCode f with
  | some b => (List.range (n / 32)).flatMap fun q =>
      let g := fld bytes (groupBytes b * q) (groupBytes b)
      (List.range 32).map fun i => g / 2 ^ (b * i) % 2 ^ b
  | none => fldList bytes 0 ((fmtSize f).getD 1) n

/-- Bytes of a run of bit patterns. -/
def runEncode (f : Nat) (vals : List Nat) : List Byte :=
  match fmtCode f with
  | some b => leBytes (vals.length / 32 * groupBytes b) (packBits (vals.map fun v => (v % 2 ^ b, b)))
  | none => vals.flatMap (leBytes ((fmtSize f).getD 1))

/-- An integer pattern of an integer format as a number. -/
def fmtInt (f v : Nat) : Int :=
  match f with
  | 4 => signed 8 v
  | 6 => signed 16 v
  | 8 => signed 32 v
  | _ => (v : Int)

/-- A value as a pattern of BF16 or FP32, level 1 (03 R85). An I32 or U32 value goes to BF16 in one rounding, not through FP32:
DESIGN CHOICE, the spec leaves one or two roundings open (06 R174; log 95). -/
def numPattern (f : Nat) (x : Num) : Nat := if f = 1 then (enc16 x).toNat else (enc32 x false).toNat

/-- Pattern of one element after conversion, with shift byte `sh` for DEQUANT (06 R174, R176). -/
def convElem (d : Desc) (v sh : Nat) : Nat :=
  match d.conv with
  | 1 => (widen (w16 v)).toNat
  | 2 => (toBf16 (w32 v)).toNat
  | 3 => numPattern d.dstFmt (intNum (fmtInt d.srcFmt v))
  | 4 => if d.dstFmt = 8 then (toI32 (w32 v)).toNat else (toU32 (w32 v)).toNat
  | 5 => numPattern d.dstFmt (codeNum (signed ((fmtCode d.srcFmt).getD 8) v) (signed 8 sh))
  | 6 =>
    let b := (fmtCode d.dstFmt).getD 8
    let top : Int := 2 ^ (b - 1)
    (BitVec.ofInt 8 (max (-top) (min (top - 1) (signed 8 v)))).toNat % 2 ^ b
  | 7 => (BitVec.ofInt 8 (signed ((fmtCode d.srcFmt).getD 8) v)).toNat
  | _ => v

/-- Does PACK saturate the element (06 R176)? -/
def saturates (d : Desc) (v : Nat) : Bool :=
  d.conv == 6 &&
    let top : Int := 2 ^ ((fmtCode d.dstFmt).getD 8 - 1)
    decide (signed 8 v < -top ∨ top - 1 < signed 8 v)

/-! ### The walk (06 R165) -/

/-- Indices (j1, j2, j3, j4) of the destination runs in walk order. -/
def Desc.runs (d : Desc) : List (List Nat) :=
  (List.range (d.dext 4)).flatMap fun j4 => (List.range (d.dext 3)).flatMap fun j3 =>
    (List.range (d.dext 2)).flatMap fun j2 => (List.range (d.dext 1)).map fun j1 => [j1, j2, j3, j4]

/-- Source index of dimension `s` at destination position `j`; none where it is padding. -/
def Desc.srcIdx (d : Desc) (j : List Nat) (s : Nat) : Option Nat :=
  let e := d.permAt s
  let x := j.getD e 0
  let lo := d.padLo.getD e 0
  if lo ≤ x ∧ x < lo + d.extAt s then some (x - lo) else none

/-- Source byte offset from SrcBase of the run with outer indices `i` (06 R165). -/
def Desc.srcOff (d : Desc) (idx : List Nat) (i : List Nat) : Int :=
  let row := if d.indexed then idx.getD (i.getD 0 0) 0 else i.getD 0 0
  (row : Int) * d.srcSt 1 + (i.getD 1 0 : Nat) * d.srcSt 2 + (i.getD 2 0 : Nat) * d.srcSt 3 + (i.getD 3 0 : Nat) * d.srcSt 4

/-- What a descriptor reads through: bytes of the source at an address, bytes of the Landing at AuxBase. -/
structure MoveReads where
  src : Nat → Nat → List Byte
  aux : Nat → Nat → List Byte

/-- Converted patterns of `n` source elements from index `i0` of dimension 0 on, in the run at `off`, and how many
saturate. -/
def Desc.fetch (d : Desc) (rd : MoveReads) (off : Int) (i0 n : Nat) : List Nat × Nat :=
  let at_ := ((d.srcBase : Int) + off + (fmtBytes d.srcFmt i0 : Nat)).toNat
  let vals := runDecode d.srcFmt n (rd.src at_ (fmtBytes d.srcFmt n))
  let shifts := match d.conv, fmtCode d.srcFmt with
    | 5, some b => rd.aux ((d.auxBase : Int) + off / (groupBytes b : Nat)).toNat (n / 32)
    | _, _ => []
  ((vals.zipIdx).map fun e => convElem d e.1 ((shifts.getD (e.2 / 32) 0).toNat), vals.countP (saturates d))

/-- One destination run: its address, its bytes, and the values saturated (06 R165, R173). -/
def Desc.run (d : Desc) (rd : MoveReads) (idx : List Nat) (j : List Nat) : Nat × List Byte × Nat :=
  let da := ((d.dstBase : Int) + (j.getD 0 0 : Nat) * d.dstSt 1 + (j.getD 1 0 : Nat) * d.dstSt 2 +
    (j.getD 2 0 : Nat) * d.dstSt 3 + (j.getD 3 0 : Nat) * d.dstSt 4).toNat
  let n := d.dext 0
  let pads := List.replicate n d.padValue
  if d.permAt 0 = 0 then
    match (List.range 4).mapM fun k => d.srcIdx (0 :: j) (k + 1) with
    | none => (da, runEncode d.dstFmt pads, 0)
    | some i =>
      let f := d.fetch rd (d.srcOff idx i) 0 (d.extAt 0)
      (da, runEncode d.dstFmt (pads.take (d.padLo.getD 0 0) ++ f.1 ++ pads.take (d.padHi.getD 0 0)), f.2)
  else
    let one := fun j0 =>
      match (List.range 5).mapM fun s => d.srcIdx (j0 :: j) s with
      | some (i0 :: i) => let f := d.fetch rd (d.srcOff idx i) i0 1; (f.1.headD 0, f.2)
      | _ => (d.padValue, 0)
    let all := (List.range n).map one
    (da, runEncode d.dstFmt (all.map (·.1)), (all.map (·.2)).sum)

/-- Every run a descriptor writes, in walk order. -/
def Desc.writes (d : Desc) (rd : MoveReads) : List (Nat × List Byte × Nat) :=
  let idx := if d.indexed then fldList (rd.aux d.auxBase (4 * d.extAt 1)) 0 4 (d.extAt 1) else []
  d.runs.map (d.run rd idx)

/-! ### Protection and effect (06 R169, R170) -/

/-- What the footprint check of a descriptor finds. -/
inductive MoveCheck where
  | ok | landing | host | both
  deriving DecidableEq, Repr

/-- Is a footprint inside a space of the partition? Host ranges are (address, length). -/
def spaceHolds (p : Partition) (hosts : List (Nat × Nat)) (space : Nat) (f : Int × Int) : Bool :=
  decide (0 ≤ f.1) &&
  match space with
  | 0 => decide (f.2 ≤ ((p.segs.length * segBytes : Nat) : Int))
  | 1 => decide (f.2 ≤ ((p.frames.length * frameBytes : Nat) : Int))
  | 2 => hosts.any fun h => decide ((h.1 : Int) ≤ f.1) && decide (f.2 ≤ ((h.1 + h.2 : Nat) : Int))
  | _ => true

/-- Blocks of the Chipper side of a descriptor as a footprint: its map and what the entries of its blocks name are read
inside the space; here the map. -/
def Desc.chipMap (d : Desc) : Int × Int :=
  let b := if d.chipSrc then d.srcBase else d.dstBase
  (b, ((b + 8 * d.auxCount : Nat) : Int))

/-- What two checks find together: a violation of the partition's shares, of its host ranges, or of both (06 R170). -/
def MoveCheck.join : MoveCheck → MoveCheck → MoveCheck
  | .ok, x => x
  | x, .ok => x
  | .landing, .landing => .landing
  | .host, .host => .host
  | _, _ => .both

/-- What the check of one side's footprint finds. -/
def sideCheck (p : Partition) (hosts : List (Nat × Nat)) (space : Nat) (f : Int × Int) : MoveCheck :=
  if spaceHolds p hosts space f then .ok else if space = 2 then .host else .landing

/-- The footprint check of 06 R170 and the index check of R166. -/
def Desc.check (d : Desc) (p : Partition) (hosts : List (Nat × Nat)) (aux : Nat → Nat → List Byte) : MoveCheck :=
  let src := sideCheck p hosts d.srcSpace (if d.chipSrc then d.chipMap else d.srcSpan)
  let dst := sideCheck p hosts d.dstSpace (if d.chipDst then d.chipMap else d.dstSpan)
  let list := if (d.indexed || d.conv == 5) && !spaceHolds p hosts 0 d.auxSpan then MoveCheck.landing
    else if d.indexed && (fldList (aux d.auxBase (4 * d.extAt 1)) 0 4 (d.extAt 1)).any (fun r => decide (d.auxCount ≤ r)) then
      MoveCheck.landing
    else .ok
  (src.join dst).join list

/-- Bytes of a Landing range of a partition. -/
def State.landBytes (s : State) (i a n : Nat) : List Byte := landRead s.landing (s.part i).segs a n
/-- Bytes of a T1 range of a partition. -/
def State.t1Bytes (s : State) (i a n : Nat) : List Byte := t1Read s.t1 (s.part i).frames a n

/-- The module segments that tensors of a launch address: those of the partition, and once more those of its KV area, one
after another whatever its runs, so that a tensor of Area 2 begins at the area's start (11 R305; log 19). -/
def Partition.view (p : Partition) : List Nat := p.segs ++ (areaSegs p.runs 2).map fun k => p.segs.getD k 6144

/-- Bytes that tensors of a launch name (11 R305). -/
def State.viewBytes (s : State) (i a n : Nat) : List Byte := landRead s.landing (s.part i).view a n

/-- Write bytes that a tensor of a launch names (11 R305), and count them for a class (01 R16). -/
def State.viewStore (s : State) (i : Nat) (k : Flowing) (a : Nat) (bs : List Byte) : State :=
  charge { s with landing := landWrite s.landing (s.part i).view a bs } i k bs.length

def State.landStore (s : State) (i a : Nat) (bs : List Byte) : State :=
  { s with landing := landWrite s.landing (s.part i).segs a bs }
def State.t1Store (s : State) (i a : Nat) (bs : List Byte) : State :=
  { s with t1 := t1Write s.t1 (s.part i).frames a bs }

/-- Apply the bytes of a descriptor's runs to the partition's Landing or T1. -/
def applyRuns (s : State) (i space : Nat) (ws : List (Nat × List Byte × Nat)) : State :=
  ws.foldl (fun s w => if space = 0 then s.landStore i w.1 w.2.1 else if space = 1 then s.t1Store i w.1 w.2.1 else s) s

/-- The blocks of a CHIPPER_DST descriptor's runs, each with its number (06 R177). -/
def chipBlks (d : Desc) (ws : List (Nat × List Byte × Nat)) : List (Nat × List Byte) :=
  ws.flatMap fun w => (blocksOf w.2.1).zipIdx.map fun b => ((w.1 - d.dstBase) / 4096 + b.2, b.1)

/-- Sectors that blocks take when they are encoded (05 R154). -/
def chipSectors (blks : List (Nat × List Byte)) : Nat := (blks.map fun b => (chipEncodeBlock b.2).2.1).sum

/-- Encode the runs of a CHIPPER_DST descriptor (06 R177; log 54): its named blocks, each from a Landing run. -/
def chipStore (s : State) (i : Nat) (d : Desc) (ws : List (Nat × List Byte × Nat)) : State :=
  ((chipBlks d ws).foldl (fun (acc : State × Nat) b =>
    let (mode, k, data) := chipEncodeBlock b.2
    let entry := if mode = 0 then 0 else mode * 2 ^ 60 + (k - 1) * 2 ^ 56 + acc.2
    let s1 := acc.1.t1Store i (d.dstBase + 8 * b.1) (leBytes 8 entry)
    (s1.t1Store i (d.dstBase + chipDataAt d.auxCount + 256 * acc.2) data, acc.2 + k)) (s, 0)).1

/-- Decoded bytes of a Chipper source at an offset of its decoded data; none where a block fails (05 R153). -/
def chipRead (rd : Nat → Nat → List Byte) (n off len : Nat) : Option (List Byte) :=
  (chipBlocks rd n (off / 4096) (cdiv (off + len) 4096 - off / 4096)).map fun b => (b.drop (off % 4096)).take len

/-- Source bytes of a descriptor at an address, decoded where its source is a Chipper object, over raw bytes `raw`. -/
def Desc.source (d : Desc) (raw : Nat → Nat → List Byte) : Nat → Nat → Option (List Byte) :=
  if d.chipSrc then fun a n => chipRead (fun o k => raw (d.srcBase + o) k) d.auxCount (a - d.srcBase) n
  else fun a n => some (raw a n)

/-- Do all the blocks that a descriptor reads decode (05 R136)? -/
def Desc.decodes (d : Desc) (src : Nat → Nat → Option (List Byte)) : Bool :=
  !d.chipSrc || d.runs.all fun j =>
    match (List.range 4).mapM fun k => d.srcIdx (0 :: j) (k + 1) with
    | some ix => (src (d.srcBase + (d.srcOff [] ix).toNat) (d.extAt 0)).isSome
    | none => true

/-- Class of a descriptor's Landing accesses (01 R16). -/
def Desc.flow (d : Desc) : Flowing :=
  if 2 ≤ d.srcSpace || 2 ≤ d.dstSpace then .link else if d.srcSpace = 1 || d.dstSpace = 1 then .fill else .engine

/-- Bytes a descriptor writes: of a CHIPPER_DST one its map entries and sectors (06 R179). -/
def Desc.written (d : Desc) (ws : List (Nat × List Byte × Nat)) : Nat :=
  if d.chipDst then 8 * (chipBlks d ws).length + 256 * chipSectors (chipBlks d ws) else (ws.map fun w => w.2.1.length).sum

/-- Bytes a descriptor reads from the Landing or writes to it (01 R16). -/
def Desc.landed (d : Desc) (ws : List (Nat × List Byte × Nat)) : Nat :=
  (if d.srcSpace = 0 then fmtBytes d.srcFmt (d.extAt 0) * (d.extAt 1 * d.extAt 2 * d.extAt 3 * d.extAt 4) else 0) +
    if d.dstSpace = 0 then d.written ws else 0

/-- What a descriptor reads through. -/
def descReads (s : State) (i : Nat) (src : Nat → Nat → Option (List Byte)) : MoveReads :=
  { src := fun a n => (src a n).getD [], aux := s.landBytes i }

/-- Do the sectors that a CHIPPER_DST descriptor writes lie in the T1 share (06 R170)? They are part of its footprint. -/
def chipDstFits (s : State) (i : Nat) (d : Desc) (src : Nat → Nat → Option (List Byte)) : Bool :=
  !d.chipDst || !d.decodes src ||
    t1Ok (s.part i).frames d.dstBase
      (chipDataAt d.auxCount + 256 * chipSectors (chipBlks d (d.writes (descReads s i src))))

/-- Run a descriptor that passed its checks, its decoded source read through `src`; none where a Chipper block fails to
decode (05 R136). Counters by 06 R179, the cycles it waited for a predecessor that it overlaps a free number (R171; log 27). -/
def runDesc (s : State) (i : Nat) (d : Desc) (src : Nat → Nat → Option (List Byte)) : Option State :=
  if !d.decodes src then none else
    let ws := d.writes (descReads s i src)
    let s1 := if d.chipDst then chipStore s i d ws else applyRuns s i d.dstSpace ws
    let s2 := bump (charge s1 i d.flow (d.landed ws)) .skidBytes i d.dstSpace (d.written ws)
    some (bumpFree (bump (bump s2 .skidDesc i 0 1) .skidSat i 0 (ws.map fun w => w.2.2).sum) .skidSerial i 0)

/-- The bytes of a failed fill (05 R136): units that arrived intact hold their data, the others, and every block that does not
decode, zeros. Nothing is counted as completed. -/
def runFailed (s : State) (i : Nat) (d : Desc) (raw : Nat → Nat → List Byte) : State :=
  if d.dstSpace != 0 then s
  else
    let block := fun (b : Nat) => (chipBlock (fun o k => raw (d.srcBase + o) k) d.auxCount b).getD (List.replicate 4096 0)
    let src := fun (a n : Nat) =>
      if d.chipSrc then
        let off := a - d.srcBase
        some (((((List.range (cdiv (off + n) 4096 - off / 4096)).flatMap fun k => block (off / 4096 + k)).drop (off % 4096))).take n)
      else some (raw a n)
    applyRuns s i 0 (d.writes (descReads s i src))

end Sys2Proof.Machine
end

