-- ==== Sys2Proof/Machine/Stands.lean ====
section
/-! DEFINITION. Stand tasks: task records and their checks (04 R91 to R95, R103, R107 to R109, R112), the operations on the
scratchpad (R96, R97), vector functions (R109 to R111) and sampling (R112 to R115). -/

namespace Sys2Proof.Machine

/-! ### Records -/

/-- An operation record (04 R93). -/
structure StandOp where
  code : Nat
  sub : Nat
  dst : Nat
  srcA : Nat
  srcB : Nat
  srcC : Nat
  dim0 : Nat
  dim1 : Nat
  param : Nat
  deriving DecidableEq, Repr

def opParse (l : List Byte) : StandOp :=
  { code := fld l 0 1, sub := fld l 2 2, dst := fld l 4 4, srcA := fld l 8 4, srcB := fld l 0xC 4, srcC := fld l 0x10 4,
    dim0 := fld l 0x14 4, dim1 := fld l 0x18 4, param := fld l 0x1C 4 }

/-- Region words (04 R94): first line and number of lines. -/
def regStart (w : Nat) : Nat := bitsOf w 13 0
def regCount (w : Nat) : Nat := bitsOf w 27 14 + 1
def regOk (w : Nat) : Bool := bitsOf w 31 28 == 0 && decide (regStart w + regCount w ≤ 16384)
/-- A region of at least `n` lines. -/
def regHolds (w n : Nat) : Bool := regOk w && decide (n ≤ regCount w)

/-- Lines of a row of `n` elements of BF16 or FP32 (04 R108). -/
def rowLines (n : Nat) (bf : Bool) : Nat := cdiv (n * if bf then 2 else 4) 256

/-- Landing reference of a LOAD or STORE (04 R94, R95): tensor, byte offset and byte length of what it spans. -/
def refSpan (o : StandOp) (lines : Nat) : Nat × Nat × Nat :=
  let step := if o.dim1 = 0 then o.param else o.dim1
  (bitsOf o.dim0 31 24, bitsOf o.dim0 23 0 * 256, ((lines / o.param - 1) * step + o.param) * 256)

/-- The runs of bytes that a LOAD or STORE moves, one for each row (04 R94, R95): tensor, byte offset and length. -/
def refRuns (o : StandOp) (lines : Nat) : List (Nat × Nat × Nat) :=
  let step := if o.dim1 = 0 then o.param else o.dim1
  (List.range (lines / o.param)).map fun k => (bitsOf o.dim0 31 24, (bitsOf o.dim0 23 0 + k * step) * 256, o.param * 256)

/-- Does the span lie in the tensor, given the tensors' byte counts (log 55)? -/
def spanOk (tensors : List Nat) (x : Nat × Nat × Nat) : Bool :=
  match tensors[x.1]? with
  | some n => decide (x.2.1 + x.2.2 ≤ cdiv n 256 * 256)
  | none => false

/-- Vector functions that read operand b, operand c, and those that write one value a row (04 R109). -/
def vecUsesB (sub : Nat) : Bool := [0, 1, 2, 3, 4, 5, 6, 0x31, 0x32, 0x35].contains sub
def vecUsesC (sub : Nat) : Bool := [4, 0x32, 0x35].contains sub
def vecReduces (sub : Nat) : Bool := decide (0x20 ≤ sub ∧ sub ≤ 0x23)
def vecSubOk (sub : Nat) : Bool := decide (sub ≤ 0x15) || vecReduces sub || decide (0x30 ≤ sub ∧ sub ≤ 0x35)

/-- Dimensions of a product (04 R95). -/
def matM (o : StandOp) : Nat := bitsOf o.dim0 7 0 + 1
def matN (o : StandOp) : Nat := bitsOf o.dim0 15 8 + 1
def matLines (o : StandOp) : Nat := cdiv o.dim1 128
def matOut32 (o : StandOp) : Bool := bit o.param 6
def matInit (o : StandOp) : Bool := bit o.param 7
def matWidth (o : StandOp) : Nat := bitsOf o.param 3 0

/-- Checks of one operation record (04 R91, R93 to R95, R103, R107 to R109, R112). -/
def opOk (tensors : List Nat) (l : List Byte) : Bool :=
  let o := opParse l
  zeroAt l 1 1 && (o.code == 0x20 || o.sub == 0) &&
  [o.dst, o.srcA, o.srcB, o.srcC].all (fun w => w == 0 || regOk w) &&
  match o.code with
  | 0x01 => o.srcA == 0 && o.srcB == 0 && o.srcC == 0 && decide (1 ≤ o.param ∧ o.param ≤ 16384) &&
      regCount o.dst % o.param == 0 && spanOk tensors (refSpan o (regCount o.dst))
  | 0x02 => o.dst == 0 && o.srcB == 0 && o.srcC == 0 && decide (1 ≤ o.param ∧ o.param ≤ 16384) &&
      regCount o.srcA % o.param == 0 && spanOk tensors (refSpan o (regCount o.srcA))
  | 0x10 => decide (o.dim0 < 65536) && decide (matN o ≤ 128) && bitsOf o.param 31 8 == 0 && bitsOf o.param 5 4 == 0 &&
      (matOut32 o || !matInit o) && decide (32 ≤ o.dim1 ∧ o.dim1 ≤ 16384) && o.dim1 % 32 == 0 &&
      [8, 6, 4, 3, 2].contains (matWidth o) && regHolds o.srcB (cdiv (128 * (o.dim1 / 32) * groupBytes (matWidth o)) 256) &&
      regHolds o.srcC (cdiv (128 * (o.dim1 / 32)) 256) && regHolds o.srcA (matM o * matLines o) &&
      regHolds o.dst (matM o * if matOut32 o then 2 else 1)
  | 0x11 => decide (o.dim0 < 65536) && decide (matN o ≤ 128) && bitsOf o.param 31 8 == 0 && bitsOf o.param 5 4 == 0 &&
      (matOut32 o || !matInit o) && decide (1 ≤ o.dim1 ∧ o.dim1 ≤ 16384) && matWidth o == 0 && o.srcC == 0 &&
      regHolds o.srcB (matN o * matLines o) && regHolds o.srcA (matM o * matLines o) &&
      regHolds o.dst (matM o * if matOut32 o then 2 else 1)
  | 0x18 => o.srcB == 0 && decide (1 ≤ o.dim0 ∧ o.dim0 ≤ 256) && decide (16 ≤ o.dim1 ∧ o.dim1 ≤ 16384) &&
      bitsOf o.param 31 8 == 0 && bitsOf o.param 3 3 == 0 && decide (bitsOf o.param 7 4 ≤ 8) &&
      decide (bitsOf o.param 2 0 ≤ 4) && o.dim1 % 2 ^ (bitsOf o.param 2 0 + 4) == 0 &&
      regHolds o.srcA (o.dim0 * cdiv o.dim1 128) && regHolds o.dst (o.dim0 * cdiv o.dim1 128) &&
      regHolds o.srcC (cdiv (cdiv o.dim1 8) 256)
  | 0x20 => vecSubOk o.sub && bitsOf o.param 15 8 == 0 && bitsOf o.param 1 0 == 0 &&
      decide (1 ≤ o.dim0 ∧ o.dim0 ≤ 1048576) && decide (1 ≤ o.dim1 ∧ o.dim1 ≤ 4096) &&
      (o.sub != 0x35 || o.dim0 % 2 == 0) && (o.sub != 0x23 || !bit o.param 5) &&
      regHolds o.srcA (o.dim1 * rowLines o.dim0 (bit o.param 2)) &&
      (!vecUsesB o.sub || regHolds o.srcB ((if bit o.param 6 then 1 else o.dim1) * rowLines o.dim0 (bit o.param 3))) &&
      (!vecUsesC o.sub || regHolds o.srcC ((if bit o.param 7 then 1 else o.dim1) * rowLines o.dim0 (bit o.param 4))) &&
      regHolds o.dst (if vecReduces o.sub then o.dim1 else o.dim1 * rowLines o.dim0 (bit o.param 5))
  | 0x28 =>
      let list := bit o.param 0
      let masked := bit o.param 1
      let ml := bitsOf o.param 23 16
      bitsOf o.param 31 24 == 0 && bitsOf o.param 15 2 == 0 &&
      decide (1 ≤ o.dim0 ∧ o.dim0 ≤ if list then 4096 else 262144) && decide (1 ≤ o.dim1 ∧ o.dim1 ≤ 256) &&
      regHolds o.srcA (o.dim1 * cdiv (o.dim0 * if list then 8 else 4) 256) &&
      (if masked then decide (1 ≤ ml ∧ ml ≤ 128) && (list || decide (cdiv o.dim0 2048 ≤ ml)) && regHolds o.srcB (o.dim1 * ml)
        else ml == 0) &&
      regHolds o.srcC o.dim1 && regHolds o.dst o.dim1
  | _ => false

/-- Operation records of a task whose header stands at the start of the bytes (04 R92). -/
def taskOps (l : List Byte) : List (List Byte) := (List.range (fld l 0 2)).map fun i => bytesAt l (0x20 + 32 * i) 32

/-- Bytes of a task record. -/
def taskBytes (l : List Byte) : Nat := 0x20 + 32 * fld l 0 2

/-- Checks of a task record (04 R91, R92). -/
def taskOk (tensors : List Nat) (l : List Byte) : Bool :=
  let n := fld l 0 2
  has l 0x20 && decide (1 ≤ n ∧ n ≤ 1024) && fld l 2 1 == 1 && zeroAt l 3 1 && decide (1 ≤ fld l 4 2 ∧ fld l 4 2 ≤ 24) &&
  zeroAt l 6 2 && decide (1 ≤ fld l 8 4) && zeroAt l 0x10 16 && has l (taskBytes l) && (taskOps l).all (opOk tensors)

/-- The runs of bytes that a task's LOADs, or STOREs, move. -/
def taskRuns (code : Nat) (ops : List (List Byte)) : List (Nat × Nat × Nat) :=
  ops.flatMap fun l =>
    let o := opParse l
    if o.code = code then refRuns o (regCount (if code = 1 then o.dst else o.srcA)) else []

/-! ### Scratchpad (04 R97) -/

/-- Written lines of 256 bytes; every other line reads as zeros. -/
abbrev Pad := List (Nat × List Byte)

def padLine (p : Pad) (n : Nat) : List Byte := (p.lookup n).getD (List.replicate 256 0)

/-- `n` bytes from the start of line `line` on. -/
def padBytes (p : Pad) (line n : Nat) : List Byte :=
  ((List.range (cdiv n 256)).flatMap fun i => padLine p (line + i)).take n

/-- Write bytes from the start of a line on, the last line filled up with zeros. -/
def padWrite (p : Pad) (line : Nat) (bs : List Byte) : Pad :=
  (List.range (cdiv bs.length 256)).foldl (fun p i => setKey p (line + i) (bytesAt bs (256 * i) 256)) p

/-! ### Products and rotation -/

/-- BF16 and FP32 elements of bytes. -/
def bf16s (l : List Byte) : List W16 := (fldList l 0 2 (l.length / 2)).map w16
def fp32s (l : List Byte) : List W32 := (fldList l 0 4 (l.length / 4)).map w32

/-- Weight elements of channel `c` of an N-tile of G groups, ascending k (03 R67, R69; 06 R160). -/
def tileColumn (vals shifts : List Byte) (width groups c : Nat) : List Num :=
  (List.range groups).flatMap fun g =>
    let sh := signed 8 (fld shifts (128 * g + c) 1)
    (codesOf width ((vals.drop ((128 * g + c) * groupBytes width)).take (groupBytes width))).map fun x => codeNum x sh

/-- One output row of a product, N elements wide, from its activations, columns and initial accumulators (03 R75 to R79). -/
def matRow (out32 : Bool) (acts : List Num) (cols : List (List Num)) (init : List W32) : List Byte :=
  let accs := List.zipWith (fun col i => arrayDot i (acts.zip col)) cols init
  if out32 then bytesAt (accs.flatMap fun a => leBytes 4 a.toNat) 0 512
  else bytesAt (accs.flatMap fun a => leBytes 2 (toBf16L0 a).toNat) 0 256

/-- MATMUL_W and MATMUL_B (04 R101 to R103). -/
def runMatmul (o : StandOp) (p : Pad) : Pad :=
  let k := o.dim1
  let kl := matLines o
  let cols : List (List Num) :=
    if o.code = 0x10 then
      let vals := padBytes p (regStart o.srcB) (128 * (k / 32) * groupBytes (matWidth o))
      let shifts := padBytes p (regStart o.srcC) (128 * (k / 32))
      (List.range (matN o)).map (tileColumn vals shifts (matWidth o) (k / 32))
    else (List.range (matN o)).map fun n => (bf16s (padBytes p (regStart o.srcB + n * kl) (2 * k))).map num16
  let outs := (List.range (matM o)).map fun m =>
    let acts := (bf16s (padBytes p (regStart o.srcA + m * kl) (2 * k))).map num16
    let init := if matInit o then fp32s (padBytes p (regStart o.dst + 2 * m) (4 * matN o)) else List.replicate (matN o) 0
    matRow (matOut32 o) acts cols init
  padWrite p (regStart o.dst) outs.flatten

/-- ROTATE (04 R107; 03 R72 to R74). -/
def runRotate (o : StandOp) (p : Pad) : Pad :=
  let d := o.dim1
  let lg := bitsOf o.param 2 0 + 4
  let sv := leNat (padBytes p (regStart o.srcC) (cdiv d 8))
  let signs := (List.range d).map (bit sv ·)
  let rl := cdiv d 128
  let outs := (List.range o.dim0).map fun m =>
    let x := bf16s (padBytes p (regStart o.srcA + m * rl) (2 * d))
    let y := (List.range (d / 2 ^ lg)).flatMap fun b =>
      rotateBlock lg (bitsOf o.param 7 4) ((x.drop (b * 2 ^ lg)).take (2 ^ lg)) ((signs.drop (b * 2 ^ lg)).take (2 ^ lg))
    bytesAt (y.flatMap fun v => leBytes 2 v.toNat) 0 (256 * rl)
  padWrite p (regStart o.dst) outs.flatten

/-! ### The vector unit (04 R108 to R111) -/

/-- Position of the element that ranks first, the lower of equals (04 R110, 10 R271). -/
def argMax (a : List W32) : Nat :=
  match a.zipIdx with
  | [] => 0
  | x :: r => (r.foldl (fun b y => if selKey b.1 < selKey y.1 then y else b) x).2

/-- Reciprocal of a row's length, rounded once (04 R111). -/
def invN (n : Nat) : W32 := div32 0x3F800000 (int32f n)

def vecSoftmax (a : List W32) : List W32 :=
  let mx := reduceMax a
  if mx = infNeg then a.map fun _ => 0
  else
    let e := a.map fun x => exp32 (sub32 x mx)
    let r := recip32 (reduceSum e)
    e.map fun x => mul32 x r

def vecRmsnorm (p : W32) (a b : List W32) : List W32 :=
  let r := rsqrt32 (add32 (mul32 (reduceSum (a.map fun x => mul32 x x)) (invN a.length)) p)
  List.zipWith (fun x g => mul32 (mul32 x r) g) a b

def vecLayernorm (p : W32) (a b c : List W32) : List W32 :=
  let mu := mul32 (reduceSum a) (invN a.length)
  let d := a.map fun x => sub32 x mu
  let r := rsqrt32 (add32 (mul32 (reduceSum (d.map fun x => mul32 x x)) (invN a.length)) p)
  List.zipWith (fun x g => fma32 (mul32 x r) g.1 g.2) d (b.zip c)

def gelu32 (a : W32) : W32 := mul32 (mul32 a 0x3F000000) (add32 0x3F800000 (erf32 (mul32 a 0x3F3504F3)))

def vecRope (a b c : List W32) : List W32 :=
  let h := a.length / 2
  let pairs := (a.take h).zip (a.drop h)
  let rot := b.zip c
  List.zipWith (fun (x : W32 × W32) (g : W32 × W32) => fma32 x.1 g.1 (neg32 (mul32 x.2 g.2))) pairs rot ++
    List.zipWith (fun (x : W32 × W32) (g : W32 × W32) => fma32 x.2 g.1 (mul32 x.1 g.2)) pairs rot

/-- One row of a vector function (04 R109, R111): the FP32 results; a reduction gives one. -/
def vecRow (sub : Nat) (p : W32) (a b c : List W32) : List W32 :=
  match sub with
  | 0x00 => List.zipWith add32 a b
  | 0x01 => List.zipWith sub32 a b
  | 0x02 => List.zipWith mul32 a b
  | 0x03 => List.zipWith div32 a b
  | 0x04 => List.zipWith (fun x y => fma32 x y.1 y.2) a (b.zip c)
  | 0x05 => List.zipWith min32 a b
  | 0x06 => List.zipWith max32 a b
  | 0x07 => a.map abs32
  | 0x08 => a.map neg32
  | 0x09 => a.map sqrt32
  | 0x0A => a.map recip32
  | 0x0B => a.map rsqrt32
  | 0x0C => a.map exp32
  | 0x0D => a.map log32
  | 0x0E => a.map tanh32
  | 0x0F => a.map sigmoid32
  | 0x10 => a.map erf32
  | 0x11 => a.map sin32
  | 0x12 => a.map cos32
  | 0x13 => a.map canon32
  | 0x14 => a.map fun x => mul32 x p
  | 0x15 => a.map fun x => add32 x p
  | 0x20 => [reduceSum a]
  | 0x21 => [reduceMax a]
  | 0x22 => [reduceMin a]
  | 0x30 => vecSoftmax a
  | 0x31 => vecRmsnorm p a b
  | 0x32 => vecLayernorm p a b c
  | 0x33 => a.map fun x => mul32 x (sigmoid32 x)
  | 0x34 => a.map gelu32
  | _ => vecRope a b c

/-- A row of `n` elements of an operand, widened to FP32 (04 R108). -/
def vecOperand (p : Pad) (word n m : Nat) (bf row : Bool) : List W32 :=
  let line := regStart word + (if row then 0 else m) * rowLines n bf
  if bf then (bf16s (padBytes p line (2 * n))).map widen else fp32s (padBytes p line (4 * n))

/-- VEC (04 R108, R109). All sources are read before a line is written: DESIGN CHOICE where Dst lines overlap the operation's own
source lines, of which R96 says nothing (log 104). -/
def runVec (o : StandOp) (p : Pad) : Pad :=
  let n := o.dim0
  let bf := bit o.param 5
  let scalar := widen (w16 (bitsOf o.param 31 16))
  let pitch := if vecReduces o.sub then 1 else rowLines n bf
  let outs := (List.range o.dim1).map fun m =>
    let a := vecOperand p o.srcA n m (bit o.param 2) false
    let b := if vecUsesB o.sub then vecOperand p o.srcB n m (bit o.param 3) (bit o.param 6) else []
    let c := if vecUsesC o.sub then vecOperand p o.srcC n m (bit o.param 4) (bit o.param 7) else []
    let bytes :=
      if o.sub = 0x23 then leBytes 4 (argMax a)
      else
        let y := vecRow o.sub scalar a b c
        if bf then y.flatMap fun v => leBytes 2 (toBf16 v).toNat else y.flatMap fun v => leBytes 4 v.toNat
    bytesAt bytes 0 (256 * pitch)
  padWrite p (regStart o.dst) outs.flatten

/-! ### Sampling (04 R112 to R115) -/

/-- `mix` and `draw` of 04 R113. -/
def mix64 (z : W64) : W64 :=
  let z := (z ^^^ (z >>> 31)) * 0x9F1D37C56B28E4A3
  let z := (z ^^^ (z >>> 29)) * 0xE7C15A932D6F0B8D
  z ^^^ (z >>> 32)

def drawUnit (seed : W64) (pos : Nat) : W32 :=
  let x := mix64 (seed ^^^ mix64 (w64 pos + 1))
  enc32 (.fin false (x >>> 40).toNat (-24)) false

/-- Running sums of exp(z − mx) (04 R114). -/
def runningSums (mx : W32) : W32 → List W32 → List W32
  | _, [] => []
  | run, z :: r => let run := add32 run (exp32 (sub32 z mx)); run :: runningSums mx run r

/-- Is a token allowed by a step mask (07 R208, 04 R112)? -/
def maskAllows (mask : List Byte) (id : Nat) : Bool :=
  match mask[id / 8]? with
  | some b => b.getLsbD (id % 8)
  | none => false

/-- What SAMPLE gives for a row: token, flags, mx and the kept sum (04 R112). -/
structure Sampled where
  token : W32
  flags : Nat
  max : W32
  kept : W32
  deriving DecidableEq, Repr

/-- One row of SAMPLE over its values with their token ids (04 R114, R115). -/
def sampleRow (v : List W32) (ids : List Nat) (mask : Option (List Byte)) (seed : W64) (pos : Nat) (invTemp topP : W32)
    (greedy : Bool) : Sampled :=
  let allowed := fun id => match mask with
    | some m => maskAllows m id
    | none => true
  let z := List.zipWith (fun x id =>
    if isNan32 x || !allowed id then infNeg else if greedy then x else mul32 x invTemp) v ids
  let flags := boolNat greedy * 4 + boolNat (v.any isNan32) * 2
  let mx := reduceMax z
  if mx = infNeg then ⟨0xFFFFFFFF, flags + 1, infNeg, 0⟩
  else if greedy then
    let g := (z.findIdx? fun x => eq32 x mx).getD 0
    ⟨w32 (ids.getD g 0), flags, mx, 0x3F800000⟩
  else
    let c := runningSums mx 0 z
    let total := c.getLastD 0
    let last :=
      if lt32 topP 0x3F800000 then
        let th := mul32 topP total
        (c.findIdx? fun x => !lt32 x th).getD (c.length - 1)
      else c.length - 1
    let kept := c.getD last 0
    let t := mul32 (drawUnit seed pos) kept
    let i := ((c.take last).findIdx? fun x => !le32 x t).getD last
    ⟨w32 (ids.getD i 0), flags, mx, kept⟩

/-- SAMPLE (04 R112). -/
def runSample (o : StandOp) (p : Pad) : Pad :=
  let n := o.dim0
  let list := bit o.param 0
  let ml := bitsOf o.param 23 16
  let outs := (List.range o.dim1).map fun m =>
    let raw := padBytes p (regStart o.srcA + m * cdiv (n * if list then 8 else 4) 256) (n * if list then 8 else 4)
    let v := if list then (fldList raw 0 8 n).map w32 else fp32s raw
    let ids := if list then (List.range n).map fun i => fld raw (8 * i + 4) 4 else List.range n
    let mask := if bit o.param 1 then some (padBytes p (regStart o.srcB + m * ml) (256 * ml)) else none
    let q := padBytes p (regStart o.srcC + m) 32
    let r := sampleRow v ids mask (w64 (fld q 0 8)) (fld q 8 4) (w32 (fld q 0xC 4)) (w32 (fld q 0x10 4)) (bit (fld q 0x14 4) 0)
    bytesAt (leBytes 4 r.token.toNat ++ leBytes 4 r.flags ++ leBytes 4 r.max.toNat ++ leBytes 4 r.kept.toNat) 0 256
  padWrite p (regStart o.dst) outs.flatten

/-! ### Running a task (04 R96) -/

/-- Landing rows of a LOAD or STORE: scratchpad line and Landing address of each row (04 R95). -/
def moveRows (o : StandOp) (base lines start : Nat) : List (Nat × Nat) :=
  let step := if o.dim1 = 0 then o.param else o.dim1
  (List.range (lines / o.param)).map fun r =>
    (start + r * o.param, base + bitsOf o.dim0 23 0 * 256 + r * step * 256)

/-- One operation over the scratchpad and the Landing of a partition; `bases` are the Landing addresses of the tensors. -/
def runOp (segs : List Nat) (bases : List Nat) (st : Pad × Mem) (l : List Byte) : Pad × Mem :=
  let o := opParse l
  let base := bases.getD (bitsOf o.dim0 31 24) 0
  match o.code with
  | 0x01 => ((moveRows o base (regCount o.dst) (regStart o.dst)).foldl
      (fun p r => padWrite p r.1 (landRead st.2 segs r.2 (256 * o.param))) st.1, st.2)
  | 0x02 => (st.1, (moveRows o base (regCount o.srcA) (regStart o.srcA)).foldl
      (fun m r => landWrite m segs r.2 (padBytes st.1 r.1 (256 * o.param))) st.2)
  | 0x10 => (runMatmul o st.1, st.2)
  | 0x11 => (runMatmul o st.1, st.2)
  | 0x18 => (runRotate o st.1, st.2)
  | 0x20 => (runVec o st.1, st.2)
  | 0x28 => (runSample o st.1, st.2)
  | _ => st

/-- Bytes that the LOADs and STOREs of some operations move between the Landing and the scratchpad (04 R95; 01 R16). -/
def taskTraffic (ops : List (List Byte)) : Nat :=
  (ops.map fun l =>
    let o := opParse l
    match o.code with
    | 0x01 => 256 * o.param * (regCount o.dst / o.param)
    | 0x02 => 256 * o.param * (regCount o.srcA / o.param)
    | _ => 0).sum

/-- A task from an unwritten scratchpad: the Landing after its operations in list order (04 R96, R97). -/
def runTask (segs : List Nat) (bases : List Nat) (ops : List (List Byte)) (m : Mem) : Mem :=
  (ops.foldl (runOp segs bases) ([], m)).2

end Sys2Proof.Machine
end

