-- ==== Sys2Proof/Machine/Content.lean ====
section
/-! DEFINITION. The checks and the reading of content objects: tokenizer tables (07 R191 to R193), grammars (R202 to R207),
model images (11 R304 to R308; 04 R91), passage stores (R312), embedding tables (08 R218 to R220) and index images (09 R240
to R242). Offsets are from the start of the object. -/

namespace Sys2Proof.Machine

/-- Do two of the elements coincide? -/
def noRepeat {α : Type} [BEq α] : List α → Bool
  | [] => true
  | a :: r => !r.contains a && noRepeat r

/-- Is the section inside the object and its offset a multiple of `align`? -/
def sectionOk (len align off n : Nat) : Bool := off % align == 0 && decide (off + n ≤ len)

/-- An optional token id field: 0xFFFF_FFFF for none. -/
def optId (n : Nat) : Option Nat := if n = 0xFFFFFFFF then none else some n

/-! ### Tokenizer tables -/

def tokenizerParse (l : List Byte) (id : Nat) (res : Residence) : Tokenizer :=
  let v := fld l 8 4
  let fl := fld l 0xC 4
  let idx := fldList l (fld l 0x34 4) 4 v
  let mc := fld l 0x20 4
  { id, algo := fld l 6 1, norm := fld l 7 1, lower := bit fl 0, metaSpace := bit fl 1, byteFallback := bit fl 2,
    bos := optId (fld l 0x10 4), eos := optId (fld l 0x14 4), unk := optId (fld l 0x18 4), pad := optId (fld l 0x1C 4),
    vocab := idx.map fun e => (l.drop (fld l 0x38 4 + e / 256)).take (e % 256),
    merges := (List.range mc).map fun k =>
      let o := fld l 0x3C 4 + 12 * k
      (fld l o 4, fld l (o + 4) 4, fld l (o + 8) 4),
    unkScore := w32 (fld l 0x24 4),
    scores := if fld l 6 1 = 2 then (fldList l (fld l 0x40 4) 4 v).map w32 else [],
    classes := (List.range (fld l 0x28 2)).map fun k =>
      let o := fld l 0x30 4 + 8 * k
      (fld l o 4, fld l (o + 4) 1),
    soloMask := w16 (fld l 0x2A 2), dropMask := w16 (fld l 0x2C 2),
    join := if fld l 0x2E 1 = 0xFF then none else some (fld l 0x2E 1),
    maxWordChars := fld l 0x2F 1, contPrefix := bytesAt l 0x50 (fld l 0x4C 1),
    byteMap := if fld l 0x44 4 = 0 then [] else fldList l (fld l 0x44 4) 4 256, res }

def finite32 (w : W32) : Bool := bitsOf w.toNat 30 23 != 255
def finite16 (w : W16) : Bool := bitsOf w.toNat 14 7 != 255

/-- Checks of a tokenizer table against the command's Length (07 R191 to R193; 02 R487). A non-zero UnkScore outside UNIGRAM, a
non-zero ContLen outside WORDPIECE and non-zero reserved bytes of the class map are refused: DESIGN CHOICE, R191 says '... only'
and R11 speaks of payloads (log 105). -/
def tokenizerOk (l : List Byte) (len : Nat) : Bool :=
  let t := tokenizerParse l 0 ⟨0, 0, 0, 0, 0, 0, false, false⟩
  let v := fld l 8 4
  let bpe := t.algo == 1
  let uni := t.algo == 2
  let word := t.algo == 3
  let below := fun (x : Option Nat) => match x with
    | some n => decide (n < v)
    | none => true
  has l 0x80 && fld l 0 4 == 0x4B545753 && fld l 4 2 == 1 && decide (1 ≤ t.algo ∧ t.algo ≤ 3) && decide (t.norm ≤ 2) &&
  decide (1 ≤ v ∧ v ≤ 262144) && decide (fld l 0xC 4 < 8) && (!t.byteFallback || uni) &&
  below t.bos && below t.eos && below t.unk && below t.pad &&
  (t.unk.isSome || !(word || (uni && !t.byteFallback))) &&
  (if bpe then decide (fld l 0x20 4 ≤ v) else fld l 0x20 4 == 0) &&
  (if uni then finite32 t.unkScore else t.unkScore == 0) &&
  decide (1 ≤ fld l 0x28 2 ∧ fld l 0x28 2 ≤ 4096) && (decide (fld l 0x2E 1 ≤ 15) || fld l 0x2E 1 == 0xFF) &&
  (if word then decide (1 ≤ t.maxWordChars) else t.maxWordChars == 0) &&
  fld l 0x48 4 == len && decide (len ≤ 0x10000000) && decide (fld l 0x4C 1 ≤ 4) && (word || fld l 0x4C 1 == 0) &&
  zeroAt l 0x4D 3 && zeroAt l 0x54 44 &&
  sectionOk len 8 (fld l 0x30 4) (8 * fld l 0x28 2) && sectionOk len 8 (fld l 0x34 4) (4 * v) &&
  sectionOk len 8 (fld l 0x38 4) 0 &&
  (if bpe then sectionOk len 8 (fld l 0x3C 4) (12 * fld l 0x20 4) else fld l 0x3C 4 == 0) &&
  (if uni then sectionOk len 8 (fld l 0x40 4) (4 * v) else fld l 0x40 4 == 0) &&
  (if bpe || (uni && t.byteFallback) then fld l 0x44 4 != 0 && sectionOk len 8 (fld l 0x44 4) 1024 else fld l 0x44 4 == 0) &&
  ascending (t.classes.map (·.1)) && (t.classes.head?.map (·.1)) == some 0 &&
  t.classes.all (fun c => decide (c.1 ≤ 0x10FFFF ∧ c.2 ≤ 15)) &&
  (List.range (fld l 0x28 2)).all (fun k => zeroAt l (fld l 0x30 4 + 8 * k + 5) 3) &&
  (fldList l (fld l 0x34 4) 4 v).all (fun e => decide (e / 256 + e % 256 ≤ 0x1000000) &&
    decide (fld l 0x38 4 + e / 256 + e % 256 ≤ len)) &&
  t.merges.all (fun m => decide (m.1 < v ∧ m.2.1 < v ∧ m.2.2 < v) &&
    t.vocab.getD m.2.2 [] == t.vocab.getD m.1 [] ++ t.vocab.getD m.2.1 []) &&
  noRepeat (t.merges.map fun m => (m.1, m.2.1)) &&
  t.scores.all finite32 && (t.byteMap.zipIdx).all (fun e => decide (e.1 < v) && t.vocab.getD e.1 [] == [b8 e.2]) &&
  noRepeat ((t.vocab.zipIdx.filter fun e => isLookup t e.2 e.1).map (·.1))

/-! ### Grammars -/

def maskAt (l : List Byte) (o v : Nat) : GMask :=
  let h := fld l o 4
  match bitsOf h 31 30 with
  | 1 => .runs ((List.range (bitsOf h 29 0)).map fun k => (fld l (o + 8 + 8 * k) 4, fld l (o + 12 + 8 * k) 4))
  | 2 => .dense (bytesAt l (o + 8) (cdiv v 8))
  | _ => .empty

/-- Bytes of a mask (07 R204). -/
def maskBytes (l : List Byte) (o v : Nat) : Nat :=
  let h := fld l o 4
  match bitsOf h 31 30 with
  | 1 => 8 + 8 * bitsOf h 29 0
  | 2 => 8 + cdiv (cdiv v 8) 8 * 8
  | _ => 8

/-- Ascending ranges that do not overlap. -/
def rangesOk : List (Nat × Nat) → Bool
  | [] => true
  | [a] => decide (a.1 ≤ a.2)
  | a :: b :: r => decide (a.1 ≤ a.2 ∧ a.2 < b.1) && rangesOk (b :: r)

def stateAt (l : List Byte) (n : Nat) : GState :=
  let o := fld l 0x18 4 + 16 * n
  { mask := maskAt l (fld l 0x20 4 + fld l o 4) (fld l 8 4),
    trans := (List.range (fld l (o + 8) 4)).map fun k =>
      let q := fld l 0x1C 4 + 12 * (fld l (o + 4) 4 + k)
      (fld l q 4, fld l (q + 4) 4, fld l (q + 8) 2),
    accept := bit (fld l (o + 0xC) 2) 0 }

def grammarParse (l : List Byte) (id tok : Nat) (res : Residence) : Grammar :=
  { id, tokenizer := tok, vocab := fld l 8 4, start := fld l 0x10 4,
    states := (List.range (fld l 0xC 4)).map (stateAt l), res }

/-- Checks of one state record, its mask and its transitions (07 R203 to R207). Non-zero reserved bytes are refused: DESIGN CHOICE,
R11 speaks of payloads (log 105). -/
def stateOk (l : List Byte) (len : Nat) (eos : Nat) (n : Nat) : Bool :=
  let o := fld l 0x18 4 + 16 * n
  let v := fld l 8 4
  let m := fld l 0x20 4 + fld l o 4
  let g := stateAt l n
  let kind := bitsOf (fld l m 4) 31 30
  let count := bitsOf (fld l m 4) 29 0
  decide (fld l (o + 0xC) 2 < 2) && zeroAt l (o + 0xE) 2 && fld l o 4 % 8 == 0 &&
  decide (fld l o 4 + 8 ≤ fld l 0x24 4) && decide (fld l o 4 + maskBytes l m v ≤ fld l 0x24 4) && decide (m ≤ len) &&
  kind != 3 && zeroAt l (m + 4) 4 && (if kind = 1 then decide (1 ≤ count) else count == 0) &&
  (match g.mask with
    | .runs ps => rangesOk ps && ps.all fun p => decide (p.2 < v) && !(decide (p.1 ≤ eos ∧ eos ≤ p.2))
    | .dense bs => !(GMask.dense bs).allows eos &&
        (List.range (cdiv v 8 * 8 - v)).all fun i => !(GMask.dense bs).allows (v + i)
    | .empty => true) &&
  decide (fld l (o + 4) 4 + fld l (o + 8) 4 ≤ fld l 0x14 4) && rangesOk (g.trans.map fun e => (e.1, e.2.1)) &&
  g.trans.all (fun e => decide (e.2.1 < v) && !(decide (e.1 ≤ eos ∧ eos ≤ e.2.1)) && decide (e.2.2 < fld l 0xC 4)) &&
  (List.range (fld l (o + 8) 4)).all (fun k => zeroAt l (fld l 0x1C 4 + 12 * (fld l (o + 4) 4 + k) + 10) 2) &&
  (List.range v).all fun t => g.mask.allows t == g.trans.any fun e => decide (e.1 ≤ t ∧ t ≤ e.2.1)

/-- Checks of a grammar against its tokenizer (07 R202 to R207). -/
def grammarOk (l : List Byte) (len : Nat) (t : Tokenizer) : Bool :=
  let n := fld l 0xC 4
  has l 64 && fld l 0 4 == 0x4D524753 && fld l 4 2 == 1 && zeroAt l 6 2 && fld l 8 4 == t.vocab.length &&
  decide (1 ≤ n ∧ n ≤ 65536) && decide (fld l 0x10 4 < n) && zeroAt l 0x28 24 &&
  sectionOk len 8 (fld l 0x18 4) (16 * n) && sectionOk len 8 (fld l 0x1C 4) (12 * fld l 0x14 4) &&
  sectionOk len 8 (fld l 0x20 4) (fld l 0x24 4) &&
  ((List.range (fld l 0x14 4)).all fun k => decide (fld l (fld l 0x1C 4 + 12 * k + 8) 2 < n)) &&
  match t.eos with
  | none => false
  | some e => (List.range n).all (stateOk l len e)

/-! ### Model images -/

def tensorAt (l : List Byte) (i : Nat) : Tensor :=
  let o := fld l 0x20 8 + 32 * i
  { area := fld l o 1, fmt := fld l (o + 1) 1, layout := fld l (o + 2) 1, step := bit (fld l (o + 3) 1) 1,
    chipper := bit (fld l (o + 3) 1) 0, bytes := fld l (o + 8) 8, dataRef := fld l (o + 0x10) 8 }

def groupAt (l : List Byte) (i : Nat) : Group :=
  let o := fld l 0x28 8 + 32 * i
  { taskRef := fld l o 8, taskCount := fld l (o + 8) 2, moveCount := fld l (o + 0xA) 2, stageBytes := fld l (o + 0xC) 4,
    moveRef := fld l (o + 0x10) 8, patchRef := fld l (o + 0x18) 4, patchCount := fld l (o + 0x1C) 2,
    gatherTable := fld l (o + 0x1E) 1, gatherTensor := fld l (o + 0x1F) 1 }

/-- Slots of a prompt frame that a Kind uses (11 R308). -/
def frameSlots (kind : Nat) : Nat := if kind = 0 then 1 else if kind = 1 then 2 else 7

/-- Record bytes of the tasks of a group, in order (04 R92, 11 R306). -/
def groupTasks (l : List Byte) (g : Group) : List (List Byte) :=
  ((List.range g.taskCount).foldl (fun (acc : List (List Byte) × Nat) _ =>
    let rest := l.drop acc.2
    let n := taskBytes rest
    (acc.1 ++ [rest.take n], acc.2 + n)) ([], g.taskRef)).1

def groupMoves (l : List Byte) (g : Group) : List (List Byte) :=
  (List.range g.moveCount).map fun k => bytesAt l (g.moveRef + 128 * k) 128

/-- A patch record (11 R306). -/
structure Patch where
  index : Nat
  op : Nat
  target : Nat
  value : Nat
  byteOff : Nat
  shift : Nat
  width : Nat
  perRow : Nat
  deriving DecidableEq, Repr

def groupPatches (l : List Byte) (dataOffset : Nat) (g : Group) : List Patch :=
  (List.range g.patchCount).map fun k =>
    let o := dataOffset + g.patchRef + 12 * k
    { index := fld l o 2, op := fld l (o + 2) 2, target := fld l (o + 4) 1, value := fld l (o + 5) 1,
      byteOff := fld l (o + 6) 1, shift := fld l (o + 7) 1, width := fld l (o + 8) 1, perRow := fld l (o + 9) 1 }

/-- Value in the image of the field a patch names (11 R306). -/
def patchImage (tasks moves : List (List Byte)) (p : Patch) : Nat :=
  let word := if p.target = 0 then fld (tasks.getD p.index []) (0x20 + 32 * p.op + p.byteOff) 4
    else fld (moves.getD p.index []) p.byteOff 4
  word / 2 ^ p.shift % 2 ^ p.width

/-- Rows that a patch admits (11 R306). -/
def patchRows (p : Patch) (image : Nat) : Option Nat :=
  match p.value with
  | 0 => some (image + 1)
  | 1 => some image
  | 2 => some (image / p.perRow)
  | _ => none

def modelGroups (l : List Byte) : List Group := (List.range (fld l 0xA 2)).map (groupAt l)

/-- RowLimit as far as the image sets it (11 R306); the GatherTensors bound it through the loaded tables. -/
def imageRowLimit (l : List Byte) : Nat :=
  (modelGroups l).foldl (fun n g =>
    (groupPatches l (fld l 0x40 8) g).foldl (fun n p =>
      match patchRows p (patchImage (groupTasks l g) (groupMoves l g) p) with
      | some k => min n k
      | none => n) n) 16384

def modelParse (l : List Byte) (id : Nat) (res : Residence) : Model :=
  let d := fld l 0x40 8
  let fo := fld l 0x38 8
  { id, kind := fld l 6 1, tokenizer := fld l 7 1, layers := fld l 0xC 2, kvHeads := fld l 0xE 2, headDim := fld l 0x10 2,
    maxPos := fld l 0x14 4, outDim := fld l 0x1C 4, tensors := (List.range (fld l 8 2)).map (tensorAt l),
    groups := modelGroups l,
    passes := (List.range 2).map fun k =>
      let o := fld l 0x30 8 + 16 * k
      (fld l o 4, fld l (o + 4) 4, fld l (o + 8) 1),
    frames := (List.range (fld l 0x18 1)).map fun f => (List.range 8).map fun k =>
      let o := fo + 64 * f + 8 * k
      fldList l (d + fld l o 4) 4 (fld l (o + 4) 4),
    dataOffset := d, rowLimit := imageRowLimit l, res }

/-- Checks of a tensor table entry (11 R305), its Chipper data decoded once (05 R155). -/
def tensorOk (l : List Byte) (len i : Nat) : Bool :=
  let o := fld l 0x20 8 + 32 * i
  let t := tensorAt l i
  [1, 2, 4, 7].contains t.area && fmtOk t.fmt && decide (t.layout ≤ 3) && decide (fld l (o + 3) 1 < 4) &&
  zeroAt l (o + 4) 4 && zeroAt l (o + 0x18) 8 &&
  (if t.area = 7 then
    !t.step && (if t.chipper then
        let n := cdiv t.bytes 4096
        t.dataRef % 256 == 0 && decide (t.dataRef + 8 * n ≤ len) &&
          chipFits (fun a k => bytesAt l (t.dataRef + a) k) n (len - t.dataRef) &&
          (chipBlocks (fun a k => bytesAt l (t.dataRef + a) k) n 0 n).isSome
      else t.dataRef % 64 == 0 && decide (t.dataRef + t.bytes ≤ len))
  else t.dataRef == 0 && !t.chipper)

/-- Do runs of tensors share bytes: all tensors of Area 2 begin at one address (11 R305). -/
def spansMeet (tensors : List Tensor) (a b : Nat × Nat × Nat) : Bool :=
  let key := fun (i : Nat) => if ((tensors[i]?).map (·.area)) = some 2 then 256 else i
  key a.1 == key b.1 && rangesMeet a.2 b.2

/-- Within a group, no two tasks STORE to one byte and none LOADs what another STOREs (04 R91). -/
def groupApart (tensors : List Tensor) (tasks : List (List Byte)) : Bool :=
  let ts := (tasks.map fun t => (taskRuns 1 (taskOps t), taskRuns 2 (taskOps t))).zipIdx
  ts.all fun x => ts.all fun y => x.2 == y.2 ||
    x.1.2.all fun st => (y.1.1.all fun ld => !spansMeet tensors st ld) && y.1.2.all fun st2 => !spansMeet tensors st st2

/-- Checks of a patch record (11 R306). -/
def patchOk (tasks moves : List (List Byte)) (maxPos : Nat) (raw : List Byte) (p : Patch) : Bool :=
  zeroAt raw 10 2 && decide (p.value ≤ 3) && p.byteOff % 4 == 0 && decide (1 ≤ p.width ∧ p.shift + p.width ≤ 32) &&
  (if p.value = 2 then decide (1 ≤ p.perRow) else p.perRow == 0) &&
  (if p.target = 0 then decide (p.index < tasks.length) && decide (p.byteOff ≤ 28) &&
      decide (p.op < fld (tasks.getD p.index []) 0 2)
    else p.target == 1 && decide (p.index < moves.length) && p.op == 0 && decide (p.byteOff ≤ 124)) &&
  (p.value != 3 || decide (cdiv maxPos 16 * 16 ≤ patchImage tasks moves p))

/-- Checks of a launch group record (11 R306; 04 R91; 06 R164). -/
def groupOk (l : List Byte) (len : Nat) (tensors : List Tensor) (maxPos dataOffset : Nat) (g : Group) : Bool :=
  let tasks := groupTasks l g
  let moves := groupMoves l g
  let sizes := tensors.map (·.bytes)
  let patches := groupPatches l dataOffset g
  decide (1 ≤ g.taskCount ∧ g.taskCount ≤ 64) && decide (g.moveCount ≤ 4096) && decide (g.patchCount ≤ 4096) &&
  (g.moveCount != 0 || g.moveRef == 0) && decide (g.moveRef + 128 * g.moveCount ≤ len) &&
  decide (dataOffset + g.patchRef + 12 * g.patchCount ≤ len) &&
  tasks.all (taskOk sizes) && groupApart tensors tasks && moves.all imageDescValid &&
  (patches.zipIdx).all (fun e => patchOk tasks moves maxPos (l.drop (dataOffset + g.patchRef + 12 * e.2)) e.1) &&
  (if g.gatherTable = 0xFF then g.gatherTensor == 0xFF
    else decide (g.gatherTable ≤ 63) && match tensors[g.gatherTensor]? with
      | some t => (t.area == 1 || t.area == 4) && t.layout == 0 && (t.fmt == 1 || t.fmt == 2)
      | none => false)

/-- Checks of a pass record (11 R307). -/
def passOk (l : List Byte) (kind : Nat) (tensors : List Tensor) (groups k : Nat) : Bool :=
  let o := fld l 0x30 8 + 16 * k
  if k = 1 && kind != 2 then zeroAt l o 16
  else zeroAt l (o + 9) 7 && decide (1 ≤ fld l (o + 4) 4) && decide (fld l o 4 + fld l (o + 4) 4 ≤ groups) &&
    match tensors[fld l (o + 8) 1]? with
    | some t => t.area != 7 && t.layout == 0 && (t.fmt == 1 || t.fmt == 2)
    | none => false

/-- Checks of the slot records of the prompt frames, without the vocabulary (11 R308). -/
def framesOk (l : List Byte) (len kind : Nat) : Bool :=
  let d := fld l 0x40 8
  (List.range (fld l 0x18 1)).all fun f => (List.range 8).all fun k =>
    let o := fld l 0x38 8 + 64 * f + 8 * k
    if k < frameSlots kind then decide (fld l (o + 4) 4 ≤ 4096) && decide (d + fld l o 4 + 4 * fld l (o + 4) 4 ≤ len)
    else zeroAt l o 8

/-- Checks of a model image that need no other object (11 R304 to R308; 02 R487; 04 R91). -/
def modelOk (l : List Byte) (len : Nat) : Bool :=
  let kind := fld l 6 1
  let h := fld l 0xE 2
  let e := fld l 0x10 2
  let maxPos := fld l 0x14 4
  let nt := fld l 8 2
  let tensors := (List.range nt).map (tensorAt l)
  let inside := fun (off n : Nat) => sectionOk len 256 off n
  has l 0x80 && fld l 0 4 == 0x4C444F4D && fld l 4 2 == 1 && decide (kind ≤ 2) && decide (fld l 7 1 ≤ 7) &&
  decide (1 ≤ nt ∧ nt ≤ 256) && decide (1 ≤ fld l 0xA 2) && decide (1 ≤ fld l 0xC 2 ∧ fld l 0xC 2 ≤ 1024) &&
  (if kind = 2 then decide (1 ≤ h ∧ h ≤ 64) && decide (32 ≤ e ∧ e ≤ 512) && e % 32 == 0 && h * e % 64 == 0
    else h == 0 && e == 0) &&
  zeroAt l 0x12 2 && decide (16 ≤ maxPos ∧ maxPos ≤ 131072) && decide (1 ≤ fld l 0x18 1 ∧ fld l 0x18 1 ≤ 16) &&
  zeroAt l 0x19 3 && zeroAt l 0x50 48 &&
  (match kind with
    | 0 => decide (16 ≤ fld l 0x1C 4 ∧ fld l 0x1C 4 ≤ 4096)
    | 1 => fld l 0x1C 4 == 1
    | _ => decide (1 ≤ fld l 0x1C 4 ∧ fld l 0x1C 4 ≤ 262144)) &&
  fld l 0x48 8 == len &&
  inside (fld l 0x20 8) (32 * nt) && inside (fld l 0x28 8) (32 * fld l 0xA 2) && inside (fld l 0x30 8) 32 &&
  inside (fld l 0x38 8) (64 * fld l 0x18 1) && inside (fld l 0x40 8) 0 &&
  (List.range nt).all (tensorOk l len) && decide (tensors.countP (·.step) ≤ 1) &&
  passOk l kind tensors (fld l 0xA 2) 0 && passOk l kind tensors (fld l 0xA 2) 1 &&
  (modelGroups l).all (groupOk l len tensors maxPos (fld l 0x40 8)) && framesOk l len kind

/-- Rules that tie a model to its tokenizer (11 R304, R308). -/
def modelFits (m : Model) (t : Tokenizer) : Bool :=
  (m.kind != 2 || m.outDim == t.vocab.length) &&
  m.frames.all fun f => f.all fun sl => sl.all fun x => decide (x < t.vocab.length)

/-! ### Landing places of tensors (05 R127, 11 R305; log 19) -/

/-- Tensors of T1 that the tasks of a group name in LOAD or STORE (05 R127: operand regions lie in STAGE). -/
def groupT1 (m : Model) (tasks : List (List Byte)) : List Nat :=
  (List.range m.tensors.length).filter fun i =>
    ((m.tensors[i]?).map (·.area)) == some 7 &&
    tasks.any fun t => (taskRuns 1 (taskOps t) ++ taskRuns 2 (taskOps t)).any fun x => x.1 == i

/-- Spans of an area in partition Landing addresses: start and end, neighbouring runs joined. -/
def areaSpans (runs : List (Nat × Nat × Nat)) (area : Nat) : List (Nat × Nat) :=
  (runs.filter fun r => r.2.2 == area).foldl (fun acc r =>
    let lo := r.1 * segBytes
    let hi := (r.1 + r.2.1) * segBytes
    match acc.getLast? with
    | some (a, b) => if b = lo then acc.dropLast ++ [(a, hi)] else acc ++ [(lo, hi)]
    | none => [(lo, hi)]) []

/-- Places of sizes one after another in spans, each on a 256-byte line and none across a gap; none where they do not fit. -/
def placeGo : List (Nat × Nat) → List Nat → Option (List Nat)
  | _, [] => some []
  | [], _ :: _ => none
  | (a, b) :: more, n :: rest =>
    if a + n ≤ b then (placeGo ((a + cdiv n 256 * 256, b) :: more) rest).map (a :: ·)
    else match placeSkip n more with
      | none => none
      | some ((a', b') :: more') => (placeGo ((a' + cdiv n 256 * 256, b') :: more') rest).map (a' :: ·)
      | some [] => none
where
  /-- The first span that holds `n` bytes, and those after it. -/
  placeSkip (n : Nat) : List (Nat × Nat) → Option (List (Nat × Nat))
    | [] => none
    | (a, b) :: more => if a + n ≤ b then some ((a, b) :: more) else placeSkip n more

/-- Indices of a model's tensors of an area. -/
def areaTensors (m : Model) (area : Nat) : List Nat :=
  (List.range m.tensors.length).filter fun i => ((m.tensors[i]?).map (·.area)) == some area

def tensorBytes (m : Model) (i : Nat) : Nat := ((m.tensors[i]?).map (·.bytes)).getD 0

/-- Where every tensor of Area 2 begins: at the start of the KV area (11 R305), which in several runs is addressed behind the
partition's segments (`Partition.view`). -/
def kvBase (runs : List (Nat × Nat × Nat)) : Nat :=
  match areaSpans runs 2 with
  | [x] => x.1
  | _ => (runs.map fun r => r.2.1).sum * segBytes

/-- Lines of the WORK area that the tensors of a partition's models take from its start on (11 R305; log 85). -/
def workFloor (p : Partition) : Nat :=
  let ends := p.models.flatMap fun m =>
    let ts := (areaTensors m 4).map (tensorBytes m)
    List.zipWith (· + ·) ((placeGo (areaSpans p.runs 4) ts).getD []) ts
  let top := ends.foldl max 0
  ((areaSpans p.runs 4).map fun x => cdiv (min top x.2 - min top x.1) 256).sum

/-- Landing address of every tensor for a group whose tasks are given; tensors with none have 0. None where some area does
not hold its tensors (05 R127). -/
def tensorBases (runs : List (Nat × Nat × Nat)) (m : Model) (tasks : List (List Byte)) : Option (List Nat) :=
  let st := areaTensors m 1 ++ groupT1 m tasks
  let wk := areaTensors m 4
  let kv := areaTensors m 2
  let kvBytes := kv.foldl (fun n i => max n (tensorBytes m i)) 0
  if areaSize runs 2 * segBytes < kvBytes then none
  else match placeGo (areaSpans runs 1) (st.map (tensorBytes m)), placeGo (areaSpans runs 4) (wk.map (tensorBytes m)) with
  | some a, some b =>
    let table := st.zip a ++ wk.zip b ++ kv.map fun i => (i, kvBase runs)
    some ((List.range m.tensors.length).map fun i => lookupD table i 0)
  | _, _ => none

/-- Does the partition's Landing hold what every group of an image needs (05 R127)? -/
def modelRoom (runs : List (Nat × Nat × Nat)) (m : Model) (l : List Byte) : Bool :=
  m.groups.all fun g => decide (g.stageBytes ≤ areaSize runs 1 * segBytes) && (tensorBases runs m (groupTasks l g)).isSome

/-! ### Passage stores (11 R312) -/

def storeParse (l : List Byte) (id : Nat) (res : Residence) : Store :=
  { id, recordCount := fld l 8 8, recordOffset := fld l 0x10 8, textOffset := fld l 0x18 8, textLength := fld l 0x20 8, res }

/-- Item id, TagLen, offset and Length of record `k`. -/
def passageRecord (l : List Byte) (recOff k : Nat) : Nat × Nat × Nat × Nat :=
  let a := fld l (recOff + 16 * k) 8
  let b := fld l (recOff + 16 * k + 8) 8
  (bitsOf a 39 0, bitsOf a 47 40, bitsOf b 39 0, bitsOf b 55 40)

def storeOk (l : List Byte) (len id : Nat) : Bool :=
  let s := storeParse l id ⟨0, 0, 0, 0, 0, 0, false, false⟩
  let recs := (List.range s.recordCount).map (passageRecord l s.recordOffset)
  let n := cdiv s.textLength 4096
  let rd := fun a k => bytesAt l (s.textOffset + a) k
  has l 64 && fld l 0 4 == 0x54534750 && fld l 4 2 == 1 && fld l 6 1 == id && zeroAt l 7 1 && fld l 0x28 8 == len &&
  zeroAt l 0x30 16 && decide (s.recordOffset + 16 * s.recordCount ≤ len) && decide (s.textOffset + 8 * n ≤ len) &&
  ascending (recs.map (·.1)) &&
  (List.range s.recordCount).all (fun k => bitsOf (fld l (s.recordOffset + 16 * k) 8) 63 48 == 0 &&
    bitsOf (fld l (s.recordOffset + 16 * k + 8) 8) 63 56 == 0) &&
  recs.all (fun r => decide (1 ≤ r.2.1 ∧ r.2.1 < r.2.2.2 ∧ r.2.2.1 + r.2.2.2 ≤ s.textLength)) &&
  chipFits rd n (len - s.textOffset) && (chipBlocks rd n 0 n).isSome

/-! ### Embedding tables (08 R218 to R220) -/

def componentAt (l : List Byte) (o : Nat) : Component :=
  { rows := fld l o 8, salt := w64 (fld l (o + 8) 8), dim := fld l (o + 0x10) 2, fmt := fld l (o + 0x12) 1,
    updatable := bit (fld l (o + 0x13) 1) 0 }

def tableShardAt (l : List Byte) (k : Nat) : TableShard :=
  let o := fld l 0x50 4 + 32 * k
  { comp := fld l o 1, owner := fld l (o + 2) 2, replica := fld l (o + 4) 2, colFirst := fld l (o + 6) 2,
    colCount := fld l (o + 8) 2, rowFirst := fld l (o + 0x10) 8, rowCount := fld l (o + 0x18) 8 }

def tableParse (l : List Byte) (id : Nat) (res : Residence) : Table :=
  { id, compose := fld l 6 1, hash := fld l 7 1, combine := fld l 8 1, compA := componentAt l 0x10,
    compB := componentAt l 0x30, shards := (List.range (fld l 9 1)).map (tableShardAt l),
    sources := fldList l (fld l 0x54 4) 2 (fld l 0xA 1), dataOffset := fld l 0x58 4, scaleOffset := fld l 0x5C 4,
    dataLen := fld l 0x60 8, applied := 0, contribs := [], ends := [], sentEnds := [], sentOcc := [], sending := [], reports := [], lostSources := [],
    degraded := false, damagedRows := [], res }

def Table.component (t : Table) (comp : Nat) : Component := if comp = 0 then t.compA else t.compB

/-- Is the shard held by a module, as owner or replica (08 R219)? -/
def TableShard.heldBy (x : TableShard) (id : Nat) : Bool := x.owner == id || (x.replica == id && x.replica != 0xFFFF)

/-- Bytes of a stored row of `cols` elements (08 R219). -/
def storedRow (fmt cols : Nat) : Nat := cdiv (fmtBytes fmt cols) 64 * 64

/-- Shift bytes of a row. -/
def storedShifts (fmt cols : Nat) : Nat := if (fmtCode fmt).isSome then cols / 32 else 0

/-- Bytes of the local shift bytes of the shards a module holds (08 R219). -/
def Table.scaleLen (t : Table) (me : Nat) : Nat :=
  ((t.shards.filter (·.heldBy me)).map fun x => x.rowCount * storedShifts (t.component x.comp).fmt x.colCount).sum

/-- What T1 keeps of an image: its rows and their shift bytes (08 R219, R220). -/
def Table.rowsIn (t : Table) (me : Nat) (l : List Byte) : List Byte :=
  bytesAt l t.dataOffset t.dataLen ++ bytesAt l t.scaleOffset (t.scaleLen me)

/-- Checks of a component record (08 R218, R215). -/
def componentOk (l : List Byte) (o : Nat) (mixed : Bool) : Bool :=
  let c := componentAt l o
  decide (1 ≤ c.rows ∧ c.rows ≤ 2 ^ 40) && (mixed || c.salt == 0) && decide (1 ≤ c.dim ∧ c.dim ≤ 4096) &&
  [0x01, 0x02, 0x14, 0x18].contains c.fmt && decide (fld l (o + 0x13) 1 < 2) && zeroAt l (o + 0x14) 12 &&
  ((fmtCode c.fmt).isNone || c.dim % 32 == 0)

/-- The rectangles cover rows and elements exactly once (08 R220). -/
def shardsCover (c : Component) (xs : List TableShard) : Bool :=
  xs.all (fun x => decide (x.colFirst + x.colCount ≤ c.dim) && decide (x.rowFirst + x.rowCount ≤ c.rows)) &&
  (xs.map fun x => x.colCount * x.rowCount).sum == c.dim * c.rows &&
  (xs.zipIdx).all fun a => (xs.zipIdx).all fun b => a.2 == b.2 ||
    !(rangesMeet (a.1.colFirst, a.1.colCount) (b.1.colFirst, b.1.colCount) &&
      rangesMeet (a.1.rowFirst, a.1.rowCount) (b.1.rowFirst, b.1.rowCount) &&
      decide (0 < a.1.colCount * a.1.rowCount ∧ 0 < b.1.colCount * b.1.rowCount))

def tableOk (l : List Byte) (len me : Nat) : Bool :=
  let t := tableParse l 0 ⟨0, 0, 0, 0, 0, 0, false, false⟩
  let plain := t.compose == 0
  let comps := if plain then [0] else [0, 1]
  let code := comps.any fun c => (fmtCode (t.component c).fmt).isSome
  let upd := comps.any fun c => (t.component c).updatable
  let mine := t.shards.filter (·.heldBy me)
  has l 128 && fld l 0 4 == 0x44524159 && fld l 4 2 == 1 && decide (t.compose ≤ 2) &&
  (if plain then decide (t.hash ≤ 2) && t.combine == 0 else t.hash == 0 && decide (1 ≤ t.combine ∧ t.combine ≤ 3)) &&
  decide (1 ≤ fld l 9 1 ∧ fld l 9 1 ≤ 64) && decide (fld l 0xA 1 ≤ 64) && zeroAt l 0xB 5 && zeroAt l 0x68 24 &&
  componentOk l 0x10 ((plain && t.hash == 2) || t.compose == 2) &&
  (if plain then zeroAt l 0x30 32 else componentOk l 0x30 (t.compose == 2)) &&
  (plain || (if t.combine = 3 then decide (t.compA.dim + t.compB.dim ≤ 4096) else t.compA.dim == t.compB.dim)) &&
  (!upd || (decide (1 ≤ fld l 0xA 1) && t.combine != 2)) && (upd || fld l 0xA 1 == 0) &&
  comps.all (fun c => !(t.component c).updatable || (fmtCode (t.component c).fmt).isNone) &&
  sectionOk len 64 (fld l 0x50 4) (32 * fld l 9 1) && sectionOk len 64 (fld l 0x54 4) (2 * fld l 0xA 1) &&
  sectionOk len 64 t.dataOffset (fld l 0x60 8) && sectionOk len 64 t.scaleOffset (t.scaleLen me) &&
  (code || t.scaleOffset == 0) && ascending t.sources &&
  t.shards.all (fun x => comps.contains x.comp &&
    ((fmtCode (t.component x.comp).fmt).isNone || (x.colFirst % 32 == 0 && x.colCount % 32 == 0))) &&
  (List.range (fld l 9 1)).all (fun k => zeroAt l (fld l 0x50 4 + 32 * k + 1) 1 && zeroAt l (fld l 0x50 4 + 32 * k + 0xA) 6) &&
  comps.all (fun c => shardsCover (t.component c) (t.shards.filter fun x => x.comp == c)) &&
  fld l 0x60 8 == (mine.map fun x => x.rowCount * storedRow (t.component x.comp).fmt x.colCount).sum

/-! ### Index images (09 R240 to R242) -/

/-- Reserved item id (09 R238). -/
def noItem : Nat := 0xFFFFFFFFFF

def adjBytes (degree : Nat) : Nat := 4 * cdiv (4 + 5 * degree) 4

def nodeAt (l : List Byte) (i : Nat) : Node :=
  let nat := fld l 0x18 8
  let m := fld l 0xA 1
  let o := fld l 0x40 8 + i * adjBytes (fld l 0xB 1)
  { id := if i < nat then fld l 0x10 8 + i else bitsOf (fld l (fld l 0x50 8 + 8 * (i - nat)) 8) 39 0,
    code := bytesAt l (fld l 0x38 8 + i * m) m,
    adj := (List.range (fld l o 1)).map fun k => fld l (o + 4 + 5 * k) 5,
    stump := bit (fld l (fld l 0x58 8 + i / 8) 1) (i % 8),
    vacant := bit (fld l o 4) 31 }

def entryAt (l : List Byte) (i : Nat) : Nat × List Nat :=
  let d := fld l 0x2C 1
  let o := fld l 0x48 8 + i * (8 + 4 * d)
  (bitsOf (fld l o 8) 39 0, (fldList l (o + 8) 4 d).filter (· != 0xFFFFFFFF))

def indexParse (l : List Byte) (id : Nat) (res : Residence) : Index :=
  let isMap := fld l 6 1 == 1
  let n := fld l 0x18 8 + fld l 0x20 8
  let m := fld l 0xA 1
  { id, isMap, metricL2 := fld l 7 1 == 1, dim := fld l 8 2, subSpaces := m, degree := fld l 0xB 1,
    shardCount := fld l 0xC 1, shardIndex := fld l 0xD 1, entryEf := fld l 0xE 2, idBase := fld l 0x10 8,
    nativeCount := fld l 0x18 8, seeds := fld l 0x2D 1,
    nodes := if isMap then [] else (List.range n).map (nodeAt l),
    entry := if isMap then [] else (List.range (fld l 0x28 4)).map (entryAt l),
    codebook := if isMap then [] else (fldList l (fld l 0x30 8) 4 (256 * fld l 8 2)).map w32,
    shardMap := (List.range (fld l 0xC 1)).map fun k => (fld l (fld l 0x60 8 + 8 * k) 2, fld l (fld l 0x60 8 + 8 * k + 2) 2),
    gen := 0, bitmaps := [], seed := [], planting := none, seedFrames := [], workFrames := [], plantFrames := [],
    imageNodes := if isMap then 0 else n, adjOffset := fld l 0x40 8, stumpOffset := fld l 0x58 8, bitRes := [], res }

/-- Checks of an adjacency record (09 R241, R242). -/
def adjOk (l : List Byte) (nodes : List Node) (i : Nat) : Bool :=
  let deg := fld l 0xB 1
  let o := fld l 0x40 8 + i * adjBytes deg
  let w := fld l o 4
  let cnt := bitsOf w 7 0
  let nd := nodes.getD i ⟨0, [], [], false, false⟩
  bitsOf w 30 8 == 0 && decide (cnt ≤ deg) && (!nd.vacant || cnt == 0) &&
  (List.range (deg - cnt)).all (fun k => fld l (o + 4 + 5 * (cnt + k)) 5 == noItem) &&
  nd.adj.all (fun x => decide (x < nodes.length) && x != i && !(nodes.getD x ⟨0, [], [], false, false⟩).vacant) &&
  noRepeat nd.adj

/-- Checks of an entry-layer record (09 R241, R242). -/
def entryOk (l : List Byte) (nodes : List Node) (count i : Nat) : Bool :=
  let d := fld l 0x2C 1
  let o := fld l 0x48 8 + i * (8 + 4 * d)
  let e := entryAt l i
  bitsOf (fld l o 8) 63 40 == 0 && decide (e.1 < nodes.length) && !(nodes.getD e.1 ⟨0, [], [], false, false⟩).vacant &&
  e.2.all (fun x => decide (x < count) && x != i) && noRepeat e.2 &&
  (List.range (d - e.2.length)).all fun k => fld l (o + 8 + 4 * (e.2.length + k)) 4 == 0xFFFFFFFF

/-- An index image is accepted (09 R240 to R242). The header's ranges hold for both kinds. -/
def indexOk (l : List Byte) (len me : Nat) : Bool :=
  let kind := fld l 6 1
  let d := fld l 8 2
  let m := fld l 0xA 1
  let shards := fld l 0xC 1
  let nat := fld l 0x18 8
  let planted := fld l 0x20 8
  let n := nat + planted
  let ec := fld l 0x28 4
  let ed := fld l 0x2C 1
  let x := indexParse l 0 ⟨0, 0, 0, 0, 0, 0, false, false⟩
  let sec := fun (o k : Nat) => sectionOk len 256 (fld l o 8) k
  has l 128 && fld l 0 4 == 0x58495243 && fld l 4 2 == 1 && decide (kind ≤ 1) && decide (fld l 7 1 ≤ 1) &&
  decide (16 ≤ d ∧ d ≤ 4096) && decide (16 ≤ m ∧ m ≤ 128) && d % m == 0 && decide (d / m ≤ 256) &&
  decide (8 ≤ fld l 0xB 1 ∧ fld l 0xB 1 ≤ 64) && decide (1 ≤ shards ∧ shards ≤ 32) && zeroAt l 0x2E 2 && zeroAt l 0x70 16 &&
  decide (16 ≤ fld l 0xE 2 ∧ fld l 0xE 2 ≤ 1024) && decide (fld l 0x10 8 < 2 ^ 40) && decide (fld l 0x10 8 + nat ≤ noItem) &&
  decide (1 ≤ ec ∧ ec ≤ 16777216) && decide (4 ≤ ed ∧ ed ≤ 64) &&
  decide (1 ≤ fld l 0x2D 1 ∧ fld l 0x2D 1 ≤ 64 ∧ fld l 0x2D 1 ≤ fld l 0xE 2) &&
  fld l 0x68 8 == len && sec 0x60 (8 * shards) && (List.range shards).all (fun k => zeroAt l (fld l 0x60 8 + 8 * k + 4) 4) &&
  (if kind = 1 then fld l 0xD 1 == 0xFF && [0x30, 0x38, 0x40, 0x48, 0x50, 0x58].all (fun o => fld l o 8 == 0)
  else
    decide (fld l 0xD 1 < shards) && decide (n ≤ 4294967295) &&
    sec 0x30 (1024 * d) && sec 0x38 (n * m) && sec 0x40 (n * adjBytes (fld l 0xB 1)) && sec 0x48 (ec * (8 + 4 * ed)) &&
    (if planted = 0 then fld l 0x50 8 == 0 else sec 0x50 (8 * planted)) && sec 0x58 (cdiv (cdiv n 8) 64 * 64) &&
    (List.range planted).all (fun k => let w := fld l (fld l 0x50 8 + 8 * k) 8; decide (w < noItem)) &&
    (List.range n).all (adjOk l x.nodes) && (List.range ec).all (entryOk l x.nodes ec) && x.codebook.all finite32 &&
    noRepeat ((x.nodes.filter fun v => !v.stump).map (·.id)) &&
    (match x.shardMap[fld l 0xD 1]? with
      | some o => o.1 == me || (o.2 == me && o.2 != 0xFFFF)
      | none => false))

end Sys2Proof.Machine
end

