-- ==== Sys2Proof/Machine/Tables.lean ====
section
/-! DEFINITION. Embedding tables as gathers and updates read them: hashing (08 R216), stored rows and their places (R219),
composition and conversion (R217), the division of a gather (R225), pooling (R226) and the row cache (R230). -/

namespace Sys2Proof.Machine

/-! ### Hashing (08 R216) -/

def hashRow (kind : Nat) (i salt : W64) (rows : Nat) : Nat :=
  match kind with
  | 0 => i.toNat
  | 1 => i.toNat % rows
  | _ => (mix64 (i ^^^ salt)).toNat % rows

/-- Physical rows of components A and B; B is 0 for a plain table. -/
def rowsOf (t : Table) (i : W64) : Nat × Nat :=
  match t.compose with
  | 0 => (hashRow t.hash i t.compA.salt t.compA.rows, 0)
  | 1 => (i.toNat % t.compA.rows, i.toNat / t.compA.rows % t.compB.rows)
  | _ => (hashRow 2 i t.compA.salt t.compA.rows, hashRow 2 i t.compB.salt t.compB.rows)

/-- An IDENT index must be below Rows (08 R216). -/
def indexOkFor (t : Table) (i : Nat) : Bool := t.compose != 0 || t.hash != 0 || decide (i < t.compA.rows)

/-- Components that a table has. -/
def tableComps (t : Table) : List Nat := if t.compose = 0 then [0] else [0, 1]

/-- Logical Dim (08 R217). -/
def tableDim (t : Table) : Nat := if t.compose != 0 && t.combine == 3 then t.compA.dim + t.compB.dim else t.compA.dim

/-- Distinct elements in order of first occurrence (08 R224). -/
def distinct {α : Type} [BEq α] (l : List α) : List α :=
  (l.foldl (fun (acc : List α) a => if acc.contains a then acc else a :: acc) []).reverse

/-- Keys of occurrences (08 R224). -/
def gatherKeys (t : Table) (idx : List Nat) : List (Nat × Nat) := idx.map fun i => rowsOf t (w64 i)

/-- Shards of a component that hold a row, by record number, with at least one element. -/
def shardsOf (t : Table) (comp row : Nat) : List (Nat × TableShard) :=
  (t.shards.zipIdx.filter fun x => x.1.comp == comp && decide (x.1.rowFirst ≤ row ∧ row < x.1.rowFirst + x.1.rowCount) &&
    decide (0 < x.1.colCount)).map fun x => (x.2, x.1)

/-- What a gather needs: component, shard and row, each once, component A first, in slot order (08 R221, R224). -/
def gatherItems (t : Table) (idx : List Nat) : List (Nat × Nat × Nat) :=
  let keys := distinct (gatherKeys t idx)
  (tableComps t).flatMap fun c =>
    (distinct (keys.map fun k => if c = 0 then k.1 else k.2)).flatMap fun r => (shardsOf t c r).map fun x => (c, x.1, r)

/-! ### Stored rows -/

def tableShard (t : Table) (k : Nat) : TableShard := t.shards.getD k ⟨0, 0, 0, 0, 0, 0, 0⟩

/-- Shards before record `k` that a module holds (08 R219). -/
def heldBefore (t : Table) (me k : Nat) : List TableShard := (t.shards.take k).filter (·.heldBy me)

/-- Where in the table's T1 bytes a held row and its shift bytes lie (08 R219, R220). -/
def rowPlace (t : Table) (me k row : Nat) : Nat × Nat :=
  let x := tableShard t k
  let f := fun (y : TableShard) => (t.component y.comp).fmt
  let before := heldBefore t me k
  ((before.map fun y => y.rowCount * storedRow (f y) y.colCount).sum +
      (row - x.rowFirst) * storedRow (f x) x.colCount,
   t.dataLen + (before.map fun y => y.rowCount * storedShifts (f y) y.colCount).sum +
      (row - x.rowFirst) * storedShifts (f x) x.colCount)

/-- Stored bytes and shift bytes of a row of a shard this module holds. -/
def readRow (s : State) (i : Nat) (t : Table) (k row : Nat) : List Byte × List Byte :=
  let x := tableShard t k
  let f := (t.component x.comp).fmt
  let pl := rowPlace t s.myId.toNat k row
  let base := t.res.frame * frameBytes
  (t1Read s.t1 (s.part i).frames (base + pl.1) (fmtBytes f x.colCount),
   t1Read s.t1 (s.part i).frames (base + pl.2) (storedShifts f x.colCount))

/-- Where a shard's rows are served: the module to ask, and whether it is the replica (08 R221, R222). -/
def shardServer (s : State) (t : Table) (k : Nat) : Option (W16 × Bool) :=
  let x := tableShard t k
  pickPeer s x.owner x.replica

/-- Is the shard served by this module itself? -/
def localShard (s : State) (t : Table) (k : Nat) : Option Unit :=
  match shardServer s t k with
  | some (m, _) => if m = s.myId then some () else none
  | none => none

/-- Is a row of a gather this module's own to read: no peer has sent it, and the shard is here (08 R221 to R223)? What a gather
reads does not change with what becomes reachable while it runs. -/
def readHere (s : State) (job : Nat) (t : Table) (x : Nat × Nat × Nat) : Bool :=
  (tableShard t x.2.1).heldBy s.myId.toNat &&
    !s.fetched.any fun f => f.job == job && f.comp == x.1 && f.shard == x.2.1 && f.row == x.2.2

/-- Is a row of this module damaged (15 R417)? -/
def rowDamaged (t : Table) (comp row : Nat) : Bool := t.res.damaged || t.damagedRows.contains (comp, row)

/-! ### Composition and conversion (08 R217) -/

/-- Exact values of a stored piece of a row. -/
def rowNums (fmt n : Nat) (bytes shifts : List Byte) : List Num :=
  let vals := runDecode fmt n bytes
  match fmtCode fmt with
  | some b => vals.zipIdx.map fun e => codeNum (signed b e.1) (signed 8 (shifts.getD (e.2 / 32) 0).toNat)
  | none => vals.map fun v => if fmt = 1 then num16 (w16 v) else num32 (w32 v)

/-- FP32 patterns of a stored piece (03 R85). -/
def rowF32 (fmt n : Nat) (bytes shifts : List Byte) : List W32 :=
  match fmt with
  | 1 => (fldList bytes 0 2 n).map fun v => widen (w16 v)
  | 2 => (fldList bytes 0 4 n).map w32
  | _ => (rowNums fmt n bytes shifts).map fun x => enc32 x false

/-- A row that is at hand: component, shard, row, stored bytes and shift bytes. -/
structure RowBytes where
  comp : Nat
  shard : Nat
  row : Nat
  bytes : List Byte
  shifts : List Byte

/-- The pieces of a component row in column order. -/
def rowPieces (t : Table) (rows : List RowBytes) (comp row : Nat) : List (TableShard × RowBytes) :=
  let here := (shardsOf t comp row).filterMap fun x =>
    (rows.find? fun r => r.comp == comp && r.shard == x.1 && r.row == row).map fun r => (x.2, r)
  (List.range ((t.component comp).dim)).filterMap fun col => here.find? fun x => x.1.colFirst == col

/-- A component row in FP32 (08 R217). -/
def compRow (t : Table) (rows : List RowBytes) (comp row : Nat) : List W32 :=
  let f := (t.component comp).fmt
  (rowPieces t rows comp row).flatMap fun x => rowF32 f x.1.colCount x.2.bytes x.2.shifts

/-- An FP32 value in the output format, level 1: a NaN is the canonical one (03 R65). -/
def outElem (outFmt : Nat) (v : W32) : Nat := if outFmt = 1 then (toBf16 v).toNat else (canon32 v).toNat

/-- The row of a key in the output format (08 R217): a plain row in one rounding, BF16 to BF16 copied. -/
def keyRow (t : Table) (rows : List RowBytes) (outFmt : Nat) (key : Nat × Nat) : List Nat :=
  if t.compose = 0 then
    let f := t.compA.fmt
    (rowPieces t rows 0 key.1).flatMap fun x =>
      if f = 1 && outFmt = 1 then runDecode f x.1.colCount x.2.bytes
      else if f ≤ 2 then (rowF32 f x.1.colCount x.2.bytes x.2.shifts).map (outElem outFmt)
      else (rowNums f x.1.colCount x.2.bytes x.2.shifts).map (numPattern outFmt)
  else
    let a := compRow t rows 0 key.1
    let b := compRow t rows 1 key.2
    (match t.combine with
      | 1 => List.zipWith add32 a b
      | 2 => List.zipWith mul32 a b
      | _ => a ++ b).map (outElem outFmt)

/-! ### Division of a gather (08 R225) -/

def fmtElem (outFmt : Nat) : Nat := if outFmt = 1 then 2 else 4

/-- Bytes between output rows, and of a slot (08 R224, R228). -/
def rowBytesOf (dim outFmt : Nat) : Nat := cdiv (dim * fmtElem outFmt) 64 * 64

/-- The interior bag boundary nearest the middle occurrence, the lower of two equally near. -/
def nearestCut (bounds : List Nat) (a b : Nat) : Option Nat :=
  let mid := a + (b - a) / 2
  let dist := fun x => if x ≤ mid then mid - x else x - mid
  (bounds.filter fun x => decide (a < x ∧ x < b)).foldl (fun m x => match m with
    | none => some x
    | some y => if dist x < dist y then some x else some y) none

/-- Parts of occurrences `a` to `b`, at most `fuel` cuts deep; none when a part of one bag does not fit. -/
def cutParts (keys : List (Nat × Nat)) (bounds : List Nat) (slotBytes work : Nat) : Nat → Nat → Nat → Option (List (Nat × Nat))
  | 0, _, _ => none
  | fuel + 1, a, b =>
    if b - a ≤ 1048576 ∧ (distinct ((keys.drop a).take (b - a))).length * slotBytes ≤ work then some [(a, b)]
    else match nearestCut bounds a b with
      | none => none
      | some m => match cutParts keys bounds slotBytes work fuel a m, cutParts keys bounds slotBytes work fuel m b with
        | some x, some y => some (x ++ y)
        | _, _ => none

/-! ### Pooling (08 R226) -/

/-- One bag: its occurrences' FP32 rows with weights, in order. -/
def poolBag (dim : Nat) (mean : Bool) (occ : List (List W32 × Option W32)) : List W32 :=
  let acc := occ.foldl (fun (acc : List W32) o => match o.2 with
    | some w => List.zipWith (fun a v => fma32 w v a) acc o.1
    | none => List.zipWith (fun a v => add32 a v) acc o.1) (List.replicate dim 0)
  if mean && !occ.isEmpty then acc.map fun a => div32 a (int32f occ.length) else acc

/-! ### The row cache (08 R230) -/

/-- Key of a row-cache way (08 R230; packing by log 57): table, component, physical row, first column. -/
def cacheKey (table comp row col : Nat) : W64 := w64 (table * 2 ^ 53 + comp * 2 ^ 52 + row * 2 ^ 12 + col)

def cacheKeyTable (k : W64) : Nat := k.toNat / 2 ^ 53

/-- Sets of a partition's row cache. -/
def cacheSets (p : Partition) : Nat := areaSize p.runs 3 * segBytes / 131072

/-- The way of a set that a miss may replace: least count, lowest way; an empty way counts 0. -/
def cacheVictim (c : RowCache) (set : Nat) : Nat × Nat :=
  (List.range 8).foldl (fun (m : Nat × Nat) w =>
    let n := ((c.ways.find? fun x => x.set == set && x.way == w).map (·.count)).getD 0
    if n < m.2 then (w, n) else m) (0, ((c.ways.find? fun x => x.set == set && x.way == 0).map (·.count)).getD 0)

/-- Every count and every candidate count halved, rounding down, after 65,536 distinct fetches (08 R230). -/
def RowCache.halved (c : RowCache) : RowCache :=
  { ways := c.ways.map fun w => { w with count := w.count / 2 }
    candidates := c.candidates.map fun x => (x.1, x.2.1, x.2.2 / 2)
    fetches := c.fetches - 65536 }

/-- A distinct fetch (08 R230): the cache after it, whether it hit, and the set and way whose row it replaced. The counts are
halved once 65,536 fetches have passed, at the latest before the next one. -/
def cacheFetch (c : RowCache) (sets : Nat) (key : W64) : RowCache × Bool × Option (Nat × Nat) :=
  let c := if 65536 ≤ c.fetches then c.halved else c
  let c := { c with fetches := c.fetches + 1 }
  if sets = 0 then (c, false, none) else
    let set := (mix64 key).toNat % sets
    if c.ways.any fun x => x.set == set && x.key == key then
      ({ c with ways := c.ways.map fun x => if x.set = set ∧ x.key = key then { x with count := min 15 (x.count + 1) } else x },
        true, none)
    else
      let v := cacheVictim c set
      let others := c.candidates.filter fun x => x.1 != set
      match c.candidates.find? fun x => x.1 == set with
      | some (_, k, n) =>
        if k = key then
          if v.2 ≤ n then
            ({ c with ways := (c.ways.filter fun x => !(x.set == set && x.way == v.1)) ++ [⟨set, v.1, key, n⟩], candidates := others },
              false, some (set, v.1))
          else ({ c with candidates := others ++ [(set, key, n + 1)] }, false, none)
        else ({ c with candidates := others ++ [(set, key, 0)] }, false, none)
      | none => ({ c with candidates := others ++ [(set, key, 0)] }, false, none)

/-- A way's place in the CACHE area, in bytes (08 R230). -/
def wayBytes : Nat := 16384
def wayAt (set way : Nat) : Nat := (set * 8 + way) * wayBytes

/-- Write bytes at a byte offset of an area, whose segments follow one another through its runs (13 R348). -/
def areaStore (s : State) (i area off : Nat) (bs : List Byte) : State :=
  let segs := areaSegs (s.part i).runs area
  (chunks segBytes off bs.length).foldl (fun s c => match segs[c.1 / segBytes]? with
    | some g => s.landStore i (g * segBytes + c.1 % segBytes) ((bs.drop (c.1 - off)).take c.2)
    | none => s) s

/-- Bytes of an area from a byte offset on. -/
def areaLoad (s : State) (i area off n : Nat) : List Byte :=
  let segs := areaSegs (s.part i).runs area
  (chunks segBytes off n).flatMap fun c => match segs[c.1 / segBytes]? with
    | some g => s.landBytes i (g * segBytes + c.1 % segBytes) c.2
    | none => List.replicate c.2 0

/-- Write bytes at a byte offset of an area, and count them for a class (01 R16). -/
def areaPut (s : State) (i : Nat) (k : Flowing) (area off : Nat) (bs : List Byte) : State :=
  charge (areaStore s i area off bs) i k bs.length

/-- This module's Yarder fetches a row of its own, once for an engine command: through the row cache, which keeps the stored
row with its shift bytes when it admits it (08 R230, R236). -/
def fetchOwn (s : State) (i : Nat) (t : Table) (x : Nat × Nat × Nat) : State :=
  let p := s.part i
  let r := cacheFetch p.cache (cacheSets p) (cacheKey t.id x.1 x.2.2 (tableShard t x.2.1).colFirst)
  let s1 := bump (s.modPart i fun p => { p with cache := r.1 }) (if r.2.1 then .yardCacheHit else .yardCacheMiss) i 0 1
  match r.2.2 with
  | some w =>
    let b := readRow s i t x.2.1 x.2.2
    areaStore s1 i 3 (wayAt w.1 w.2) (b.1 ++ b.2)
  | none => s1

/-- The row-cache copy of a row follows its bytes in T1 (08 R232). -/
def refreshCopy (s : State) (i : Nat) (t : Table) (k row : Nat) : State :=
  let key := cacheKey t.id (tableShard t k).comp row (tableShard t k).colFirst
  match (s.part i).cache.ways.find? fun w => w.key == key with
  | some w =>
    let b := readRow s i t k row
    areaStore s i 3 (wayAt w.set w.way) (b.1 ++ b.2)
  | none => s

end Sys2Proof.Machine
end

