-- ==== Sys2Proof/Machine/Engines.lean ====
section
/-! DEFINITION. The turns of the shared units: traversal engines, Tally pipelines, Sawmill lanes and the Yarder take the
partitions' work in rotation (13 R345; 09 R246, R255; 15 R414), in launches that ask for current (15 R401). What a piece of work does is done when its last slice ends
(log 31). -/

namespace Sys2Proof.Machine

/-- Which units run a piece of work (13 R344). -/
def unitRuns : EngineUnit → JobKind → Bool
  | .traversal _, .searchPart _ _ _ _ => true
  | .traversal _, .planting _ => true
  | .tally _, .tally => true
  | .tally _, .shardMerge _ => true
  | .tally _, .homeMerge _ => true
  | .tally _, .ctxSelect => true
  | .tally _, .candidates _ _ => true
  | .lane _, .tokenize => true
  | .lane _, .detokenize => true
  | .lane _, .ctxTokens => true
  | .yarder, .gather => true
  | _, _ => false

def State.job? (s : State) (id : Nat) : Option Job := s.jobs.find? fun j => j.id == id

def State.modJob (s : State) (id : Nat) (f : Job → Job) : State :=
  { s with jobs := s.jobs.map fun j => if j.id = id then f j else j }

/-- A piece of work is no more; its unit is free. -/
def State.dropJob (s : State) (id : Nat) : State := dropJobs s [id]

def State.search? (s : State) (id : Nat) : Option Search := s.searches.find? fun x => x.id == id

/-- Has some part of the search begun (09 R255: it is in flight at its shard)? -/
def searchBegun (s : State) (x : Search) : Bool :=
  !x.parts.isEmpty || s.jobs.any fun j => match j.kind with
    | .searchPart n _ _ _ => n == x.id && (j.started.isSome || j.unit.isSome)
    | _ => false

/-- A boundary has passed at which a change of the shard was pending: no further part of it begins (09 R255). -/
def changePending (s : State) (part index : Nat) : Bool := (s.part part).changes.any fun c => c.index == index && c.seen

/-- This module's own shards serve a gather once their applied epoch has reached AfterEpoch (08 R229). -/
def epochReady (s : State) (j : Job) : Bool :=
  match s.cmd? j.ticket with
  | some c => match (s.part j.part).tables.find? fun t => t.id == fld c.pay 0 1 with
    | some t =>
      if c.code == .gatherSubmit then
        let items := gatherItems t (fldList c.pay (fld c.pay 0x10 4) 8 (fld c.pay 4 4))
        decide (fld c.pay 0xC 4 ≤ t.applied) || items.all fun x => !readHere s j.id t x
      else decide (fld c.pay 4 4 ≤ t.applied)
    | none => true
  | none => true

/-- Does a poisoned page of the partition wait for its repair (15 R417)? Its blocked work waits too. -/
def repairing (s : State) (i : Nat) : Bool := s.fills.any fun f => f.part == i && match f.forWhat with
  | .repair _ _ => true
  | _ => false

/-- A re-bind of the partition has taken effect and its switch is not complete: no slice of it is issued (13 R360). -/
def switching (s : State) (i : Nat) : Bool :=
  match (s.part i).rebind with
  | some rb => rb.effectAt.isSome
  | none => false

/-- May the work begin: its rows have all arrived (08 R221), its shard has no pending change unless its search has begun
(09 R255)? -/
def jobReady (s : State) (j : Job) : Bool :=
  !repairing s j.part && !switching s j.part && match j.kind with
  | .gather =>
    s.calls.all (fun c => match c.forWhat with
      | .rows n _ _ => n != j.id
      | _ => true) && epochReady s j
  | .searchPart n _ _ _ => match s.search? n with
    | some x => searchBegun s x || !changePending s j.part x.index
    | none => true
  | _ => true

/-- Does the work ride in the launches of its request's step (11 R289; 09 R246; 10 R280)? Other work of engines, Tally and
Yarder is queue-driven and has launches of its own (15 R401). -/
def rides (s : State) (j : Job) : Bool :=
  let mine := fun (n : Nat) => match s.search? n with
    | some x => match x.owner with
      | .context _ => true
      | _ => false
    | none => false
  match j.kind with
  | .searchPart n _ _ _ => mine n
  | .shardMerge n => mine n
  | .homeMerge n => mine n
  | .ctxSelect => true
  | _ => false

/-- Lines of a partition's WORK area that tensors of its models take, while launches of it are formed (log 85). -/
def workTaken (s : State) (i : Nat) : Nat :=
  if s.launches.any fun l => l.part == i && !taskless l then workFloor (s.part i) else 0

/-- Lowest line from which `n` lines of a partition's WORK area are free (05 R127; log 85). -/
def workPlace (s : State) (i n : Nat) : Option Nat :=
  lowestFree 1 ((0, workTaken s i) :: (s.part i).work.map fun w => w.2) (areaSize (s.part i).runs 4 * 256) n

/-- Lines of a partition's WORK area that commands and launches may take (log 85). -/
def workLines (s : State) (i : Nat) : Nat := areaSize (s.part i).runs 4 * 256 - workTaken s i

/-- Does a job or a launch hold lines of WORK? -/
def holdsWork (s : State) (i owner : Nat) : Bool := (s.part i).work.any fun w => w.1 == owner

/-- May a job or a launch have the lines it needs now (08 R225)? -/
def workFits (s : State) (i owner n : Nat) : Bool := n == 0 || holdsWork s i owner || (workPlace s i n).isSome

/-- Take lines of a partition's WORK area for a job or a launch, at their place, unless it holds them already. -/
def takeWork (s : State) (i owner n : Nat) : State :=
  if n = 0 || holdsWork s i owner then s
  else match workPlace s i n with
    | some k => s.modPart i fun p => { p with work := p.work ++ [(owner, k, n)] }
    | none => s

/-- First byte of the lines an owner holds in a WORK area, counted from the area's start. -/
def workAt (s : State) (i owner : Nat) : Nat :=
  match (s.part i).work.find? fun w => w.1 == owner with
  | some w => 256 * w.2.1
  | none => 0

/-- The next partition in rotation among those with ready work: the lowest after the last one served, else the lowest (13 R345). -/
def rotate (last : Option Nat) (ready : List Nat) : Option Nat :=
  let after := match last with
    | none => []
    | some p => ready.filter fun i => decide (p < i)
  match if after.isEmpty then ready else after with
  | [] => none
  | i :: r => some (r.foldl min i)

/-- The work a free unit takes next: of the next partition in rotation, its oldest ready piece (13 R345). -/
def nextJob (s : State) (u : EngineUnit) (last : Option Nat) : Option Job :=
  let ready := s.jobs.filter fun j => j.unit.isNone && unitRuns u j.kind && !rides s j && jobReady s j &&
    workFits s j.part j.id j.room
  (rotate last (ready.map (·.part))).bind fun p => ready.find? fun x => x.part == p

/-- Amperes a unit's work declares (15 R401): a traversal engine and the Yarder 6, a Tally pipeline 2; Sawmill and Skidder work
draws on the standing reserve and requests nothing. -/
def unitAmps : EngineUnit → Nat
  | .traversal _ => 6
  | .tally _ => 2
  | .yarder => 6
  | .lane _ => 0
  | .skidder => 0

/-- A slice of a piece of work begins; that of its first one is noted (09 R251). -/
def Job.begin (j : Job) (now : Nat) : Job := { j with started := some (j.started.getD now) }

/-- A launch without tasks that firmware forms, with its target as 12 R323 gives it (log 31). -/
def ownLaunch (s : State) (part : Nat) (kind : LaunchKind) (amps : Nat) : Launch :=
  { id := s.nextId, part, kind, stepNo := 0, cont := true, posted := true, target := alignUp 256 (s.now + 512),
    release := none, bases := [], tasks := [], rows := [], after := [], gather := none, moves := [], awaits := [], slices := [], lists := [], room := 0, amps,
    granted := none, fired := none, stallLate := 0, stallCredit := 0 }

/-- The launch is posted, and asks for its current at T − 512 (15 R402). -/
def postOwn (s : State) (l : Launch) : State :=
  { s with
    nextId := s.nextId + 1
    launches := s.launches ++ [l]
    cut := { s.cut with requests := s.cut.requests ++ [{ launch := l.id, part := l.part, amps := l.amps, epoch := l.target,
                                                         arrived := l.target - 512, refusals := 0, cause := none }] } }

/-- A unit is committed to a piece of work, with the lines of WORK that it needs. -/
def assignUnit (s : State) (u : EngineUnit) (j : Job) : State :=
  let s1 := (takeWork s j.part j.id j.room).modJob j.id fun j => { j with unit := some u }
  { s1 with units := s1.units.map fun x => if x.unit = u then { x with job := some j.id, last := some j.part } else x }

/-- A unit takes a piece of queue-driven work: one that needs current begins when the launch formed for it fires (15 R401), any
other at once. -/
def giveUnit (s : State) (u : EngineUnit) (j : Job) : State :=
  let s2 := assignUnit s u j
  if unitAmps u = 0 then s2.modJob j.id fun j => j.begin s.now else postOwn s2 (ownLaunch s j.part (.engine j.id) (unitAmps u))

/-- One free unit takes work if there is any for it. -/
def feedUnit (s : State) (u : EngineUnit) : State :=
  match s.units.find? fun x => x.unit == u with
  | some x =>
    if x.status == .inService && x.job.isNone then
      match nextJob s u x.last with
      | some j => giveUnit s u j
      | none => s
    else s
  | none => s

/-- Every free unit takes work, lowest-numbered first (13 R345). -/
def feedUnits (s : State) : State := s.units.foldl (fun s x => feedUnit s x.unit) s

/-- No launch of a kind waits to fire (15 R401; 01 R18; 17 X19). -/
def kindFired (s : State) (k : LaunchKind) : Bool := s.launches.all fun l => l.kind != k || l.fired.isSome

/-- Has the launch fired that runs the present slice of a piece of work: its own, or the one of a step that it rides in? -/
def sliceFired (s : State) (job : Nat) : Bool :=
  s.launches.all fun l => (l.kind != .engine job && !l.slices.contains job) || l.fired.isSome

/-- The lowest-numbered free unit that runs a piece of work (09 R246; 10 R280; 13 R345). -/
def freeUnitFor (s : State) (k : JobKind) : Option EngineUnit :=
  (s.units.find? fun x => x.status == .inService && x.job.isNone && unitRuns x.unit k).map (·.unit)

/-- The work of a partition's requests that may ride in its next launches, oldest first. -/
def ridersOf (s : State) (i : Nat) : List Job :=
  s.jobs.filter fun j => j.part == i && j.unit.isNone && rides s j && jobReady s j

/-- What can ride takes a free unit: the slices that the launches of a step are to carry (11 R289). -/
def takeRiders (s : State) (i : Nat) : State × List Nat :=
  (ridersOf s i).foldl (fun (acc : State × List Nat) j =>
    match freeUnitFor acc.1 j.kind with
    | some u => (assignUnit acc.1 u j, acc.2 ++ [j.id])
    | none => acc) (s, [])

/-- Amperes that the slices of a launch declare: a Cruiser batch of slices 6, each Tally task 2 (15 R401). -/
def sliceAmps (s : State) (ids : List Nat) : Nat :=
  let us := ids.filterMap fun id => (s.job? id).bind (·.unit)
  (if us.any fun u => (match u with
    | .traversal _ => true
    | _ => false) then 6 else 0) + 2 * us.countP fun u => match u with
      | .tally _ => true
      | _ => false

/-- A slice of the partition is in progress on a shared unit (13 R360): its work has a unit, and its launch has fired. -/
def slicesRunning (s : State) (i : Nat) : Bool :=
  s.jobs.any fun j => j.part == i && j.unit.isSome && sliceFired s j.id

/-- Put a piece of work in line. -/
def addJob (s : State) (part ticket : Nat) (ctx : Option Nat) (kind : JobKind) : State :=
  let j : Job := { id := s.nextId, part, ticket, ctx, kind, unit := none, started := none, reruns := 0, room := 0 }
  { s with nextId := s.nextId + 1, jobs := s.jobs ++ [j] }

/-- As `addJob`, and a free unit takes it at once. -/
def queueJob (s : State) (part ticket : Nat) (ctx : Option Nat) (kind : JobKind) : State :=
  feedUnits (addJob s part ticket ctx kind)

/-- A unit lets go of its work: the launch of its turn is over, or what rode in a launch of a step rides no more. -/
def freeUnit (s : State) (u : EngineUnit) : State :=
  let ids := (s.jobs.filter fun j => j.unit == some u).map (·.id)
  let s1 := unride (dropTurns s ids) ids
  { s1 with units := s1.units.map fun x => if x.unit = u then { x with job := none } else x,
            jobs := s1.jobs.map fun j => if j.unit = some u then { j with unit := none } else j }

/-- Index of a unit kind in UNIT_FAULT and UNIT_RETIRED (15 R430): stand, traversal, Tally, lane, Yarder, Skidder. -/
def unitKind : EngineUnit → Nat
  | .traversal _ => 1
  | .tally _ => 2
  | .lane _ => 3
  | .yarder => 4
  | .skidder => 5

end Sys2Proof.Machine
end

