-- ==== Sys2Proof/Machine/Partitions.lean ====
section
/-! DEFINITION. Partitions (13): binding, unbinding, re-binding, reading a partition, and the zeroing of released segments
(05 R129). -/

namespace Sys2Proof.Machine

/-! ### What is free -/

/-- Module segments that a partition holds, that a pending re-bind has chosen, or that are retired (13 R344, 15 R416). -/
def takenSegs (s : State) : List Nat :=
  s.parts.flatMap (fun p => p.segs ++ match p.rebind with
    | some b => b.newSegs
    | none => []) ++ s.segRetired

/-- Module frames that a partition holds or a pending re-bind has chosen, and those taken as further reserve (05 R149). -/
def takenFrames (s : State) : List Nat :=
  s.parts.flatMap (fun p => p.frames.map (·.1) ++ match p.rebind with
    | some b => b.newFrames
    | none => []) ++ s.t1.reserve

/-- Logical stands bound to no partition and chosen by no pending re-bind, ascending (13 R350, 04 R88). -/
def freeStands (s : State) : List Nat :=
  let chosen := s.parts.flatMap fun p => match p.rebind with
    | some b => b.newStands
    | none => []
  (List.range 64).filter fun n =>
    !chosen.contains n && s.stands.any fun x => x.logical == some n && x.part.isNone

/-- Logical stands of a partition, ascending. -/
def partStands (s : State) (i : Nat) : List Nat :=
  (List.range 64).filter fun n => s.stands.any fun x => x.logical == some n && x.part == some i

/-- For each index in order, the lowest number below `limit` with the same residue that is not taken (13 R350). -/
def pickUnits (step limit : Nat) : List Nat → List Nat → Option (List Nat)
  | _, [] => some []
  | taken, i :: rest =>
    match firstFrom (fun x => !taken.contains x) (taken.length + 1) (i % step) step with
    | some x => if x < limit then (pickUnits step limit (x :: taken) rest).map (x :: ·) else none
    | none => none

/-- As `pickUnits`, taking from `spare` in ascending order where the free ones do not suffice (13 R358). -/
def pickUnitsOr (step limit : Nat) : List Nat → List Nat → List Nat → Option (List Nat)
  | _, _, [] => some []
  | taken, spare, i :: rest =>
    match firstFrom (fun x => !taken.contains x) (taken.length + 1) (i % step) step with
    | some x =>
      if x < limit then (pickUnitsOr step limit (x :: taken) spare rest).map (x :: ·)
      else match spare.filter (fun y => y % step == i % step) with
        | [] => none
        | y :: ys =>
          let z := ys.foldl min y
          (pickUnitsOr step limit taken (spare.filter (· != z)) rest).map (z :: ·)
    | none => none

/-- Pairs that a partition holds or that its pending re-bind names (13 R344). -/
def pairsOf (p : Partition) : List Nat :=
  p.pairs ++ match p.rebind with
    | some b => (bindParse b.pay).pairs.map (·.1)
    | none => []

/-- Named pairs bound to another partition, or that another one's pending re-bind names (13 R344, R349), ascending. -/
def pairsElsewhere (s : State) (part : Nat) (pairs : List (Nat × Geometry)) : List Nat :=
  (pairs.map (·.1)).filter fun i => (List.range 32).any fun k => k != part && (pairsOf (s.part k)).contains i

/-! ### Taking the resources -/

/-- Give stands to a partition. -/
def bindStands (s : State) (part : Nat) (ns : List Nat) : State :=
  { s with stands := s.stands.map fun x => match x.logical with
      | some n => if ns.contains n then { x with part := some part } else x
      | none => x }

/-- Free stands of a partition; a task that runs there is dropped (13 R356). -/
def unbindStands (s : State) (ns : List Nat) : State :=
  { s with stands := s.stands.map fun x => match x.logical with
      | some n => if ns.contains n then { x with part := none, task := none } else x
      | none => x }

/-- Segments that leave a partition hold no data any more and are zeroed (05 R129, 13 R351). -/
def releaseSegs (s : State) (gs : List Nat) : State :=
  { s with landing := Mem.zeroSegs s.landing gs,
           zeroing := s.zeroing ++ gs.filter fun g => !s.zeroing.contains g }

/-- Regulators as bound, their counts at Burst (13 R353). -/
def mkRegs (rs : List (Nat × Nat)) : List Regulator := rs.map fun r => ⟨r.1, r.2, r.2, false⟩

/-! ### PARTITION_BIND -/

/-- Capacity check of 13 R349 with the Detail of a pair bound elsewhere. -/
def bindRoom (s : State) (b : BindPay) : Option Status × Nat :=
  match pairsElsewhere s b.part b.pairs with
  | p :: _ => (some .noSpace, p)
  | [] =>
    if (freeStands s).length < b.stands then (some .noSpace, 0)
    else if (pickUnits 6 bindableSegs (takenSegs s) (List.range b.segs)).isNone then (some .noSpace, 0)
    else if (pickUnits 8 bindableFrames (takenFrames s) (List.range b.frames)).isNone then (some .noSpace, 0)
    else (none, 0)

/-- The binding itself (13 R350; 05 R145; 12 R330), but for the pairs, whose regions may still be zeroed. -/
def bindEffect (l : List Byte) (s : State) : State :=
  let b := bindParse l
  let segs := (pickUnits 6 bindableSegs (takenSegs s) (List.range b.segs)).getD []
  let fr := (pickUnits 8 bindableFrames (takenFrames s) (List.range b.frames)).getD []
  let gen := if b.frames = 0 then s.t1.gen else (s.t1.gen + 1) % 2 ^ 48
  let s1 := bindStands s b.part ((freeStands s).take b.stands)
  let s2 := { s1 with t1 := { s1.t1 with gen } }
  let s3 := s2.modPart b.part fun _ => { Partition.unbound with
    state := .bound, segs, runs := b.runs, frames := fr.map fun f => (f, gen), pairs := b.pairs.map (·.1),
    kvCompress := b.kvCompress, regs := mkRegs b.regs, linkWeight := b.linkWeight, peers := b.peers,
    config := bytesAt l b.configStart b.configLen, generation := if b.frames = 0 then 0 else gen }
  formDigest s3 b.part

/-- The mailbox regions occupy the CTRL area in ascending pair number, the peer pair's last (13 R350). -/
def bindPairs (l : List Byte) (s : State) : State :=
  let b := bindParse l
  let ctrl := (areaSegs b.runs 0).map fun i => (s.part b.part).segs.getD i 0
  (cutRegions ctrl (withPeer b.part b.pairs)).foldl (fun s e => freshPair b.part e s) s

/-- Does a partition hold a segment that is still being zeroed (13 R351)? -/
def awaitsZeroing (s : State) (i : Nat) : Bool := (s.part i).segs.any fun g => s.zeroing.contains g

/-- End a PARTITION_BIND once its segments are zero (13 R350, R351): until then they belong to no partition (05 R129), so no pair
of the new one can be reached and it has no work that could. -/
def bindDone (s : State) (t : Nat) (l : List Byte) : State :=
  let i := (bindParse l).part
  if awaitsZeroing s i then s else finishPlain (bindPairs l s) t .ok (partStands s i).length

/-- PARTITION_BIND (13 R346 to R351). -/
def cmdPartitionBind (r : Req) (t : Nat) (s : State) : State :=
  let b := bindParse r.pay
  let form := bindForm r.pay false
  let room := if form then bindRoom s b else (none, 0)
  runCmd .partitionBind (namedPart r.pay)
    { form, state := (s.part b.part).state == .unbound, found := true, room := room.1, detail := room.2 }
    (fun t s => bindDone (bindEffect r.pay s) t r.pay) r t s

def execPartitionBind (r : Req) (s : State) : Host.Outcome State Fault Refusal :=
  live s (enter .partitionBind cmdPartitionBind r s)

/-! ### PARTITION_UNBIND -/

/-- Unbinding by command `t` (13 R356): every other command of the partition is abandoned without a record (log 46), work
stopped, content and payloads discarded, pairs unbound, stands freed, segments zeroed, frames gone. -/
def unbindEffect (i t : Nat) (s : State) : State :=
  let p := s.part i
  let s1 := { s with cmds := s.cmds.filter (fun c => c.part != some i || c.ticket == t), ctxs := s.ctxs.filter fun c => c.part != i }
  let s2 := dropLaunches (dropEngineWork s1 i) fun l => l.part == i
  let s3 := (p.pairs ++ [64 + i]).foldl (fun s k => releasePair k s) s2
  let s4 := unbindStands s3 (partStands s3 i)
  let s5 := releaseSegs s4 p.segs
  s5.modPart i fun _ => Partition.unbound

/-- PARTITION_UNBIND (13 R356, 02 R57). -/
def cmdPartitionUnbind (r : Req) (t : Nat) (s : State) : State :=
  let i := fld r.pay 0 1
  let st := (s.part i).state
  runCmd .partitionUnbind (namedPart r.pay)
    { Need.pass with form := partitionForm r.pay, state := st == .bound || st == .loaded || st == .faulted }
    (fun t s => finishPlain (unbindEffect i t s) t .ok 0) r t s

def execPartitionUnbind (r : Req) (s : State) : Host.Outcome State Fault Refusal :=
  live s (enter .partitionUnbind cmdPartitionUnbind r s)

/-! ### Retired segments (15 R416) -/

/-- A retired segment's contents move to the lowest free one with the same residue modulo 6, under the same partition
segment number; with none the partition enters FAULTED. -/
def copySegment (s : State) (i g : Nat) : State :=
  let taken := takenSegs s ++ s.zeroing
  match (firstFrom (fun x => !taken.contains x) (taken.length + 1) (g % 6) 6).filter (fun x => decide (x < bindableSegs)) with
  | none => enterFaulted s i
  | some h =>
    let put := fun (x : Nat) => if x = g then h else x
    let bytes := Mem.readRange 0 s.landing (g * segBytes) segBytes
    { s with
      landing := Mem.writeRange 0 (s.landing.zeroSegs [g, h]) (h * segBytes) bytes
      parts := s.parts.map fun p => { p with segs := p.segs.map put }
      pairs := s.pairs.map fun p => { p with segs := p.segs.map put } }

/-- Copy every retired segment that a partition still holds. While a re-bind waits for its switch the copy waits too (15
R426). -/
def copyRetired (i : Nat) (s : State) : State :=
  let waits := match (s.part i).rebind with
    | some rb => !rb.switched
    | none => false
  if waits then s else ((s.part i).segs.filter s.segRetired.contains).foldl (fun s g => copySegment s i g) s

/-! ### PARTITION_REBIND -/

/-- Partition segments kept across a re-bind: in both bindings, with the same area (13 R358). -/
def keptSegs (p : Partition) (b : BindPay) : List Nat :=
  (List.range (min p.segs.length b.segs)).filter fun i => areaOf p.runs i == areaOf b.runs i

/-- Module segments that a re-bind releases (13 R358). -/
def leavingSegs (p : Partition) (b : BindPay) : List Nat :=
  let kept := keptSegs p b
  ((List.range p.segs.length).filter fun i => !kept.contains i).map fun i => p.segs.getD i 0

/-- Module segments chosen for the partition segments that a re-bind adds or replaces (13 R358). -/
def newSegsFor (s : State) (p : Partition) (b : BindPay) : Option (List Nat) :=
  let kept := keptSegs p b
  pickUnitsOr 6 bindableSegs (takenSegs s) ((leavingSegs p b).filter fun g => !s.segRetired.contains g)
    ((List.range b.segs).filter fun i => !kept.contains i)

/-- Module frames a re-bind adds (13 R358). -/
def newFramesFor (s : State) (p : Partition) (b : BindPay) : Option (List Nat) :=
  pickUnits 8 bindableFrames (takenFrames s)
    ((List.range (b.frames - p.frames.length)).map (p.frames.length + ·))

/-- Operands of the largest launch group of any bound model (05 R127). -/
def stageNeed (p : Partition) : Nat := (p.models.flatMap fun m => m.groups.map (·.stageBytes)).foldl max 0

/-- Bytes of an area. -/
def areaBytes (runs : List (Nat × Nat × Nat)) (area : Nat) : Nat := areaSize runs area * segBytes

/-- Commands of a partition in progress (13 R359): taken, held by FENCE or not, with no final record posted. -/
def partBusy (s : State) (i : Nat) : Bool :=
  s.cmds.any (fun c => c.part == some i) || s.ctxs.any (fun c => c.part == i) || !(fencedOf s i).isEmpty ||
  ((s.part i).pairs ++ [64 + i]).any fun k => (s.pair k).waiting.any fun r => !r.more

/-- A pair has no command without a final record and no live payload (13 R357). -/
def pairIdle (s : State) (i : Nat) : Bool :=
  s.cmds.all (fun c => c.pair != i) && s.ctxs.all (fun c => c.pair != i) && (s.pair i).fenced.isEmpty &&
  (s.pair i).results.isEmpty && (s.pair i).waiting.all (·.more)

/-- State checks of a re-bind (13 R357 to R359, R362). -/
def rebindState (s : State) (b : BindPay) : Bool :=
  let p := s.part b.part
  let kept := keptSegs p b
  let lost := (List.range p.segs.length).any fun i =>
    !kept.contains i && (areaOf p.runs i == some 0 || areaOf p.runs i == some 4)
  let names := b.pairs.map (·.1)
  (p.state == .bound || p.state == .loaded || p.state == .serving) && p.rebind.isNone &&
  (p.pairs.filter fun i => !names.contains i).all (pairIdle s) &&
  (p.models.isEmpty || b.stands != 0) &&
  (!lost || (p.state != .serving && !partBusy s b.part)) &&
  (decide (p.frames.length ≤ b.frames) || decide (framesHigh s b.part ≤ b.frames))

/-- Form rules of a re-bind beside those of its payload (13 R357): kept pairs keep their geometry, the lowest pair stays. -/
def rebindPairs (s : State) (b : BindPay) : Bool :=
  let p := s.part b.part
  (b.pairs.all fun e => !p.pairs.contains e.1 || (s.pair e.1).geom == e.2) &&
  (p.pairs.isEmpty || p.pairs.head? == (b.pairs.map (·.1)).head?)

/-- Capacity of a re-bind (13 R348, R349, R357): its own resources count as free. -/
def rebindRoom (s : State) (b : BindPay) : Option Status × Nat :=
  let p := s.part b.part
  match pairsElsewhere s b.part b.pairs with
  | i :: _ => (some .noSpace, i)
  | [] =>
    if (freeStands s).length + (partStands s b.part).length < b.stands then (some .noSpace, 0)
    else if (newSegsFor s p b).isNone then (some .noSpace, 0)
    else if (newFramesFor s p b).isNone then (some .noSpace, 0)
    else if areaBytes b.runs 1 < stageNeed p then (some .noSpace, 0)
    else (none, 0)

/-- New module segments of a partition in order: kept ones in place, chosen ones for the others. -/
def mergeSegs (p : Partition) (kept : List Nat) : List Nat → List Nat → List Nat
  | [], _ => []
  | i :: rest, chosen =>
    if kept.contains i then p.segs.getD i 0 :: mergeSegs p kept rest chosen
    else match chosen with
      | c :: cs => c :: mergeSegs p kept rest cs
      | [] => mergeSegs p kept rest []

/-- Step 3 of 13 R360: the resources change (13 R358) and the digest is formed again (12 R330). A kept pair whose region
stays keeps it; any other takes the next unused CTRL segments and starts afresh at the end of the re-bind (log 46). -/
def rebindSwitch (i : Nat) (rb : Rebind) (s : State) : State :=
  let b := bindParse rb.pay
  let p := s.part i
  let kept := keptSegs p b
  let out := leavingSegs p b
  let segs := mergeSegs p kept (List.range b.segs) rb.newSegs
  let gen := if rb.newFrames.isEmpty then s.t1.gen else (s.t1.gen + 1) % 2 ^ 48
  let stands := partStands s i
  let s1 := if b.stands < stands.length then unbindStands s (stands.drop b.stands) else bindStands s i rb.newStands
  let s2 := releaseSegs { s1 with t1 := { s1.t1 with gen } } out
  let stays := (withPeer i b.pairs).filter fun e =>
    (p.pairs.contains e.1 || e.1 == 64 + i) && (s.pair e.1).segs.all (fun g => !out.contains g)
  let gone := (p.pairs ++ [64 + i]).filter fun k => !stays.any fun e => e.1 == k
  let s3 := gone.foldl (fun s k => releasePair k s) s2
  let inUse := stays.flatMap fun e => (s.pair e.1).segs
  let unused := ((areaSegs b.runs 0).map fun k => segs.getD k 0).filter fun g => !inUse.contains g
  let fresh_ := (withPeer i b.pairs).filter fun e => !stays.any fun x => x.1 == e.1
  let s4 := s3.modPart i fun p => { p with
    segs, runs := b.runs, frames := p.frames.take b.frames ++ rb.newFrames.map (fun f => (f, gen)),
    pairs := b.pairs.map (·.1), kvCompress := b.kvCompress, regs := mkRegs b.regs, linkWeight := b.linkWeight,
    peers := b.peers, cache := if areaSegs p.runs 3 == areaSegs b.runs 3 && (areaSegs b.runs 3).all (kept.contains ·) then p.cache
      else { p.cache with ways := [], candidates := [] }
    config := if b.keepConfig then p.config else bytesAt rb.pay b.configStart b.configLen,
    generation := if rb.newFrames.isEmpty then p.generation else gen }
  let rb2 := { rb with switched := true, newSegs := [], newFrames := [], newStands := [], fresh := cutRegions unused fresh_ }
  copyRetired i (formDigest (s4.modPart i fun p => { p with rebind := some rb2 }) i)

/-- Step 4 of 13 R360: the final record, once no segment of the partition is being zeroed (13 R361). -/
def rebindDone (i : Nat) (s : State) : State :=
  if awaitsZeroing s i then s else rebindEnds s i

/-- Step 1 of 13 R360: the switch waits for every slice of the partition that is in progress on a shared unit. -/
def rebindGo (i : Nat) (s : State) : State :=
  match (s.part i).rebind with
  | some rb => if rb.effectAt.isSome && !rb.switched && !slicesRunning s i then rebindDone i (rebindSwitch i rb s) else s
  | none => s

/-- A re-bind takes effect now: no new slice of the partition is issued from here on (13 R360). -/
def rebindEffect (i : Nat) (s : State) : State :=
  rebindGo i (s.modPart i fun p => { p with rebind := p.rebind.map fun rb => { rb with effectAt := some s.now } })

/-- The pending re-bind of a partition takes effect at the boundary of step `n` (13 R360). -/
def rebindAt (i n : Nat) (s : State) : State :=
  match (s.part i).rebind with
  | some rb => if rb.effectAt.isNone && decide (rb.atStep ≤ n) then rebindEffect i s else s
  | none => s

/-- What a re-bind chooses when it is taken (13 R358). -/
def rebindStart (t : Nat) (pay : List Byte) (s : State) : State :=
  let b := bindParse pay
  let p := s.part b.part
  let have_ := (partStands s b.part).length
  let rb : Rebind :=
  { ticket := t, pay, atStep := p.stepsFormed,
    newSegs := (newSegsFor s p b).getD [], newFrames := (newFramesFor s p b).getD [],
    newStands := (freeStands s).take (b.stands - have_), effectAt := none, switched := false, fresh := [] }
  let s1 := s.modPart b.part fun p => { p with rebind := some rb }
  if p.state == .serving && decide (p.stepsDone < p.stepsFormed) then s1 else rebindEffect b.part s1

/-- PARTITION_REBIND (13 R357 to R362). -/
def cmdPartitionRebind (r : Req) (t : Nat) (s : State) : State :=
  let b := bindParse r.pay
  let form := bindForm r.pay true && rebindPairs s b
  let state := form && rebindState s b
  let room := if state then rebindRoom s b else (none, 0)
  runCmd .partitionRebind (namedPart r.pay) { form, state, found := true, room := room.1, detail := room.2 }
    (fun t s => rebindStart t r.pay s) r t s

def execPartitionRebind (r : Req) (s : State) : Host.Outcome State Fault Refusal :=
  live s (enter .partitionRebind cmdPartitionRebind r s)

/-- Zeroing of a released segment completes (05 R129): binds and re-binds that waited for it may end (13 R351, R361). -/
def segmentZeroed (segment : Nat) (s : State) : State :=
  let s1 := { s with zeroing := s.zeroing.filter (· != segment) }
  let s2 := (s1.cmds.filter fun c => c.code == .partitionBind).foldl
    (fun s c => bindDone s c.ticket c.pay) s1
  (List.range 32).foldl (fun s i => rebindDone i s) s2

/-! ### Reading a partition -/

/-- Detail of a record: the low 32 bits of the digest (13 R363). -/
def digestLow (p : Partition) : W32 := p.digest.setWidth 32

/-- Result payload of PARTITION_STATUS (13 R364). -/
def statusBytes (s : State) (i : Nat) : List Byte :=
  let p := s.part i
  let stands := partStands s i
  [b8 i, b8 p.state.code, b8 stands.length, b8 p.pairs.length] ++ leBytes 4 p.segs.length ++ leBytes 4 p.frames.length ++
  leBytes 4 (framesHigh s i) ++ leBytes 8 p.digest.toNat ++ leBytes 8 ((stands.map (2 ^ ·)).sum) ++
  leBytes 8 ((p.pairs.map (2 ^ ·)).sum) ++ leBytes 8 p.generation ++
  leBytes 4 ((s.ctxs.filter fun c => c.part == i).length) ++ leBytes 4 p.lastRebindUs ++
  [b8 (boolNat p.kvCompress + 2 * boolNat p.rebind.isSome), b8 p.peers.length] ++ leBytes 2 p.linkWeight ++
  [b8 p.runs.length, 0, 0, 0] ++
  p.regs.flatMap (fun r => leBytes 2 r.rate ++ [0, 0] ++ leBytes 4 r.burst) ++
  p.runs.flatMap (fun r => leBytes 2 r.1 ++ leBytes 2 r.2.1 ++ [b8 r.2.2, 0, 0, 0]) ++
  p.peers.flatMap fun g => leBytes 2 g.1 ++ leBytes 2 g.2

/-- PARTITION_STATUS (13 R363, R364). -/
def cmdPartitionStatus (r : Req) (t : Nat) (s : State) : State :=
  runCmd .partitionStatus (pairPart s r) { Need.pass with form := r.pay.isEmpty, state := (reqPart s r).state != .unbound }
    (fun t s => finish s t .ok (digestLow (reqPart s r)) (some (statusBytes s (reqPid s r)))) r t s

def execPartitionStatus (r : Req) (s : State) : Host.Outcome State Fault Refusal :=
  live s (enter .partitionStatus cmdPartitionStatus r s)

/-- DIGEST_READ (13 R363). -/
def cmdDigestRead (r : Req) (t : Nat) (s : State) : State :=
  runCmd .digestRead (pairPart s r) { Need.pass with form := r.pay.isEmpty, state := (reqPart s r).state != .unbound }
    (fun t s => finish s t .ok (digestLow (reqPart s r)) (some (leBytes 8 (reqPart s r).digest.toNat))) r t s

def execDigestRead (r : Req) (s : State) : Host.Outcome State Fault Refusal := live s (enter .digestRead cmdDigestRead r s)

end Sys2Proof.Machine
end

