-- ==== Sys2Proof/Machine/Records.lean ====
section
/-! DEFINITION. What flash holds (16 R432): image slots and their checks (R433, R434), fail counts, the leaf counter (R441),
the identity certificates, the configuration record (R456); and the measurements (R439). -/

namespace Sys2Proof.Machine

def flashRead (s : State) (a n : Nat) : List Byte := Mem.readRange 0xFF s.flash.mem a n

def flashWrite (s : State) (a : Nat) (bs : List Byte) : State :=
  { s with flash := { s.flash with mem := Mem.writeRange 0xFF s.flash.mem a bs } }

/-- Erased flash reads as ones (log 4). -/
def flashErase (s : State) (a n : Nat) : State :=
  { s with flash := { s.flash with mem := Mem.clearRange s.flash.mem a n } }

/-! ### Firmware images -/

def slotBytes : Nat := 0x07800000

/-- Base of image slot A or B (16 R432). -/
def slotBase (b : Bool) : Nat := if b then slotBytes else 0

def slotHeader (s : State) (b : Bool) : List Byte := flashRead s (slotBase b) 0x1000

def hdrKeySlot (h : List Byte) : Nat := fld h 0x007 1
def hdrFwVersion (h : List Byte) : Nat := fld h 0x008 8
def hdrSecVersion (h : List Byte) : Nat := fld h 0x010 4
def hdrBodyLength (h : List Byte) : Nat := fld h 0x014 4
def hdrRevokeLower (h : List Byte) : Bool := bit (fld h 0x048 4) 0

/-- Code of the first check of 16 R434 that an image slot fails; 0 when the image is valid. -/
def slotCheck (s : State) (b : Bool) : Nat :=
  let h := slotHeader s b
  let len := hdrBodyLength h
  let pub := bytesAt h 0x100 96
  let lms := bytesAt h 0x160 48
  let msg := h.take 0x190
  if fld h 0 4 != 0x4D574647 then 1
  else if !(fld h 4 2 == 1 && decide (hdrKeySlot h < 4) && decide (hdrSecVersion h ≤ 64) && len % 4096 == 0 &&
      decide (len ≤ 0x077FF000) && decide (fld h 0x048 4 < 2) && zeroAt h 0x04C 180 && zeroAt h 0x8BC 1860) then 2
  else if fld h 6 1 != s.fuses.compat.toNat then 3
  else if hdrSecVersion h < s.fuses.secVersion then 4
  else if s.fuses.rootRevoke.getLsbD (hdrKeySlot h) then 5
  else if digestOf (pub ++ lms) != s.fuses.rootKeyHash.getD (hdrKeySlot h) 0 then 6
  else if digestOf (flashRead s (slotBase b + 0x1000) len) != BitVec.ofNat 384 (fld h 0x018 48) then 7
  else if !Config.ecdsaVerify pub msg (bytesAt h 0x190 96) then 8
  else if !Config.lmsVerify lms msg (bytesAt h 0x1F0 1740) then 9
  else 0

/-! ### Boot record -/

def failAddr (b : Bool) : Nat := 0x0F000000 + boolNat b

/-- Fail count of a slot (16 R432, R435). -/
def failCount (s : State) (b : Bool) : Nat := (Mem.read 0xFF s.flash.mem (failAddr b)).toNat

def setFailCount (s : State) (b : Bool) (n : Nat) : State := flashWrite s (failAddr b) [b8 (min n 255)]

/-- The slot the ROM runs (16 R435): none when neither image is valid, else false for A, true for B. -/
def chooseSlot (va vb : Bool) (fa fb : Nat) (ha hb : List Byte) : Option Bool :=
  match va, vb with
  | false, false => none
  | true, false => some false
  | false, true => some true
  | true, true =>
    if fa < 2 ∧ 2 ≤ fb then some false
    else if fb < 2 ∧ 2 ≤ fa then some true
    else if hdrSecVersion ha != hdrSecVersion hb then some (decide (hdrSecVersion ha < hdrSecVersion hb))
    else some (decide (hdrFwVersion ha < hdrFwVersion hb))

/-! ### Leaf counter -/

/-- Places of the two copies (16 R432; layout by log 50): index, sequence number, and the complement of the index. -/
def leafAddr (k : Bool) : Nat := 0x0F010000 + if k then 0x8000 else 0

def leafBytes (q seq : Nat) : List Byte := leBytes 8 q ++ leBytes 8 seq ++ leBytes 8 (2 ^ 64 - 1 - q)

/-- A copy's index and sequence number when it is valid. -/
def leafCopy (s : State) (k : Bool) : Option (Nat × Nat) :=
  let l := flashRead s (leafAddr k) 24
  if fld l 0 8 + fld l 16 8 == 2 ^ 64 - 1 && fld l 0 8 != 2 ^ 64 - 1 then some (fld l 0 8, fld l 8 8) else none

def leafErased (s : State) (k : Bool) : Bool := (flashRead s (leafAddr k) 24).all (· == 0xFF)

/-- The leaf a boot takes (16 R441), with the sequence number its copy carries; none where no alias record may be issued. -/
def bootLeaf (s : State) : Option (Nat × Nat) :=
  let q := match leafCopy s false, leafCopy s true with
    | none, none => if s.life == 0 && leafErased s false && leafErased s true then some (0, 0) else none
    | some a, none => some a
    | none, some b => some b
    | some a, some b =>
      if a.1 + 1 < b.1 || b.1 + 1 < a.1 then none else if a.1 < b.1 then some b else some a
  match q with
  | some (n, seq) => if n < 1048576 then some (n, seq) else none
  | none => none

/-- The counter after a leaf was taken: both copies hold the next index (16 R441). -/
def writeLeaf (s : State) (q seq : Nat) : State :=
  flashWrite (flashWrite s (leafAddr false) (leafBytes (q + 1) (seq + 1))) (leafAddr true) (leafBytes (q + 1) (seq + 1))

/-! ### Identity certificates -/

def certAddr : Nat := 0x0F020000

/-- The stored identity certificate and IDENTITY record (16 R441, R443; layout by log 50): a length, then the certificate
padded to 8, then the record. -/
def storedCert (s : State) : List Byte × List Byte :=
  let n := leNat (flashRead s certAddr 4)
  let n := if n < 0x10000 then n else 0
  (flashRead s (certAddr + 8) n, flashRead s (certAddr + 8 + alignUp 8 n) 1964)

/-! ### Configuration record -/

def recordAddr : Nat := 0x0F100000

/-- End of `n` sections, each a u32 length and its bytes, from an offset; none when they leave the record (16 R456). -/
def sectionsEnd (l : List Byte) : Nat → Nat → Option Nat
  | 0, o => some o
  | n + 1, o => if has l (o + 4) then
      let e := o + 4 + fld l o 4
      if has l e then sectionsEnd l n e else none
    else none

/-- Payloads of `n` sections from an offset. -/
def sectionsOf (l : List Byte) : Nat → Nat → List (List Byte)
  | 0, _ => []
  | n + 1, o => bytesAt l (o + 4) (fld l o 4) :: sectionsOf l n (o + 4 + fld l o 4)

def recBridge (l : List Byte) : Bool := bit (fld l 0xB 1) 0
def recCaps (l : List Byte) : Bool := bit (fld l 0xB 1) 1
def recSections (l : List Byte) : Nat := fld l 0xA 1 + boolNat (recBridge l)

/-- A cap of POWER_SET (15 R409). -/
def capOk (n : Nat) : Bool := n == 0 || (decide (24 ≤ n) && decide (n ≤ 1152))

/-- Form of a configuration record (16 R456). -/
def recordForm (l : List Byte) : Bool :=
  let w := fld l 8 2
  has l 0x50 && fld l 0 4 == 0x47464E43 && fld l 4 2 == 1 && (w == 0 || (decide (600 ≤ w) && decide (w ≤ 1200))) &&
  decide (fld l 0xA 1 ≤ 32) && decide (fld l 0xB 1 < 4) && fld l 0xC 4 == l.length && decide (l.length ≤ 0x100000) &&
  (!recCaps l || (fldList l 0x10 2 32).all capOk) && sectionsEnd l (recSections l) 0x50 == some l.length

/-- The record in flash, absent when its Magic or Length does not match (16 R457, 18 R471). -/
def storedRecord (s : State) : Option (List Byte) :=
  let n := leNat (flashRead s (recordAddr + 0xC) 4)
  if leNat (flashRead s recordAddr 4) == 0x47464E43 && decide (0x50 ≤ n) && decide (n ≤ 0x100000) then
    let l := flashRead s recordAddr n
    if sectionsEnd l (recSections l) 0x50 == some n then some l else none
  else none

/-- Store a record: the area is erased, then programmed (18 R471). -/
def storeRecord (s : State) (l : List Byte) : State := flashWrite (flashErase s recordAddr 0x100000) recordAddr l

/-! ### Measurements -/

/-- Fuse values other than Uds in the order of 16 R431: each item in whole bytes, SecVersion and LifeCycle as the bits
blown (log 50). -/
def fuseBytes (f : Fuses) : List Byte :=
  leBytes 8 f.serial.toNat ++ [f.compat, f.stepping] ++ f.rootKeyHash.flatMap digestBytes ++ [f.rootRevoke.setWidth 8] ++
  leBytes 8 (2 ^ f.secVersion - 1) ++ leBytes 2 (2 ^ f.lifeCount - 1)

/-- Measurement i, for i = 1 to 37 (16 R439). -/
def measurement (s : State) (i : Nat) : Digest384 :=
  if i ≤ 5 then s.sec.meas.getD (i - 1) 0
  else if (s.part (i - 6)).state == .unbound then 0
  else digestOf (digestMessage (s.part (i - 6)))

/-- DMTF value type of measurement i (16 R439). -/
def measType (i : Nat) : Byte := if i = 1 then 0 else if i = 2 then 2 else if i = 3 then 1 else 3

end Sys2Proof.Machine
end

