-- ==== Sys2Proof/Machine/Management.lean ====
section
/-! DEFINITION. MODULE_QUERY, HEALTH_READ, POWER_SET (15 R409, R411, R412) and BRIDGE_MAP (14 R391). -/

namespace Sys2Proof.Machine

/-! ### MODULE_QUERY -/

/-- Stands with a logical number (04 R88, R89). -/
def activeStands (s : State) : Nat := s.stands.countP fun x => x.logical.isSome
def fieldSpares (s : State) : Nat := s.stands.countP fun x => x.status == .spare || x.status == .sparetesting

def maskOf (l : List Nat) : Nat := (l.map (2 ^ ·)).sum

/-- Bit of a shared unit in UnitsOut and FailMask (15 R412, R428). -/
def unitBit : EngineUnit → Option Nat
  | .traversal i => some i
  | .tally i => some (8 + i)
  | .lane i => some (10 + i)
  | .yarder => some 26
  | .skidder => none

def unitsOut (s : State) : Nat :=
  maskOf ((s.units.filter fun u => u.status == .retired).filterMap fun u => unitBit u.unit)

def retiredLaneMask (s : State) : Nat :=
  ((List.range 16).map fun i => (s.port i).retiredLanes.toNat * 2 ^ (4 * i)).sum

/-- Result of MODULE_QUERY (15 R412). -/
def moduleQueryBytes (s : State) : List Byte :=
  leBytes 2 s.myId.toNat ++ [s.fuses.compat, s.fuses.stepping, b8 (activeStands s), b8 (fieldSpares s), s.boot.coreMask,
    b8 s.boot.lastReset.code] ++ leBytes 8 s.boot.fwVersion.toNat ++ leBytes 16 (maskOf s.t1.retired) ++
  leBytes 8 (retiredLaneMask s) ++ leBytes 4 s.lost.length ++ leBytes 4 s.segRetired.length ++ leBytes 8 (unitsOut s) ++
  leBytes 8 0

def cmdModuleQuery (r : Req) (t : Nat) (s : State) : State :=
  runCmd .moduleQuery none { Need.pass with form := r.pay.isEmpty }
    (fun t s => finish s t .ok (w32 (activeStands s)) (some (moduleQueryBytes s))) r t s

/-- MODULE_QUERY (15 R412). -/
def execModuleQuery (r : Req) (s : State) : Host.Outcome State Fault Refusal :=
  live s (enter .moduleQuery cmdModuleQuery r s)

/-! ### HEALTH_READ -/

/-- A counter as HEALTH_READ lists it (15 R411): name, granularity code, and the index codes of its instances. -/
structure CtrRow where
  name : Ctr
  label : String
  gran : Nat
  idx : List Nat

/-- Stall causes (05 R133). -/
def stallCodes : List Nat := [0x00, 0x01, 0x02, 0x10, 0x11, 0x12, 0x13, 0x20, 0x21, 0x22, 0x30, 0x31]

/-- Memory and move counters (04 R99, 05, 06 R179). -/
def ctrRowsA : List CtrRow :=
  [⟨.standDepStall, "STAND_DEP_STALL", 2, List.range 64⟩, ⟨.landingBytes, "LANDING_BYTES", 2, List.range 6⟩,
   ⟨.landingWait, "LANDING_WAIT", 3, List.range 6⟩, ⟨.tierWait, "TIER_WAIT", 2, stallCodes⟩,
   ⟨.landingCe, "LANDING_CE", 0, [0]⟩, ⟨.landingUe, "LANDING_UE", 0, [0]⟩, ⟨.landingProt, "LANDING_PROT", 0, [0]⟩,
   ⟨.memCe, "MEM_CE", 3, List.range 128⟩, ⟨.memUe, "MEM_UE", 3, List.range 128⟩, ⟨.chipperErr, "CHIPPER_ERR", 0, [0]⟩,
   ⟨.skidBytes, "SKID_BYTES", 2, List.range 5⟩, ⟨.skidDesc, "SKID_DESC", 1, [0]⟩, ⟨.skidSerial, "SKID_SERIAL", 1, [0]⟩,
   ⟨.skidSat, "SKID_SAT", 1, [0]⟩, ⟨.hostProt, "HOST_PROT", 1, [0]⟩]

/-- Text, table, search and selection counters (07 R214, 08 R236, 09 R270, 10 R285). -/
def ctrRowsB : List CtrRow :=
  [⟨.sawInBytes, "SAW_IN_BYTES", 1, [0]⟩, ⟨.sawTokens, "SAW_TOKENS", 1, [0]⟩, ⟨.sawRepair, "SAW_REPAIR", 1, [0]⟩,
   ⟨.sawPieceCut, "SAW_PIECE_CUT", 1, [0]⟩, ⟨.planerRepair, "PLANER_REPAIR", 1, [0]⟩,
   ⟨.teaselDead, "TEASEL_DEAD", 1, [0]⟩, ⟨.teaselResample, "TEASEL_RESAMPLE", 1, [0]⟩,
   ⟨.sampleNone, "SAMPLE_NONE", 1, [0]⟩, ⟨.yardOcc, "YARD_OCC", 1, [0]⟩, ⟨.yardDistinct, "YARD_DISTINCT", 1, [0]⟩,
   ⟨.yardCacheHit, "YARD_CACHE_HIT", 1, [0]⟩, ⟨.yardCacheMiss, "YARD_CACHE_MISS", 1, [0]⟩,
   ⟨.yardUpdRows, "YARD_UPD_ROWS", 1, [0]⟩, ⟨.yardEpochWait, "YARD_EPOCH_WAIT", 1, [0]⟩,
   ⟨.cruQueries, "CRU_QUERIES", 2, [0, 1]⟩, ⟨.cruExpand, "CRU_EXPAND", 1, [0]⟩, ⟨.cruScored, "CRU_SCORED", 1, [0]⟩,
   ⟨.cruExtend, "CRU_EXTEND", 1, [0]⟩, ⟨.cruLimit, "CRU_LIMIT", 1, [0]⟩, ⟨.cruPartial, "CRU_PARTIAL", 1, [0]⟩,
   ⟨.cruQuiesceWait, "CRU_QUIESCE_WAIT", 1, [0]⟩, ⟨.cruPlanted, "CRU_PLANTED", 1, [0]⟩, ⟨.cruNan, "CRU_NAN", 1, [0]⟩,
   ⟨.tallyRows, "TALLY_ROWS", 1, [0]⟩, ⟨.tallyElems, "TALLY_ELEMS", 1, [0]⟩, ⟨.tallyDups, "TALLY_DUPS", 1, [0]⟩,
   ⟨.tallyNan, "TALLY_NAN", 1, [0]⟩, ⟨.tallyCe, "TALLY_CE", 0, [0]⟩]

/-- Serving, launch, Blaze and regulator counters (11 R320, 12 R325, R343, 13 R366). -/
def ctrRowsC : List CtrRow :=
  [⟨.serveSteps, "SERVE_STEPS", 1, [0]⟩, ⟨.serveTokDecode, "SERVE_TOK_DECODE", 2, [0, 1]⟩,
   ⟨.serveTokPrefill, "SERVE_TOK_PREFILL", 2, [0, 1]⟩, ⟨.serveKvWait, "SERVE_KV_WAIT", 1, [0]⟩,
   ⟨.servePaused, "SERVE_PAUSED", 1, [0]⟩, ⟨.serveCancelDropped, "SERVE_CANCEL_DROPPED", 1, [0]⟩,
   ⟨.serveCancelFreed, "SERVE_CANCEL_FREED", 1, [0]⟩, ⟨.serveReplayed, "SERVE_REPLAYED", 1, [0]⟩,
   ⟨.serveSkipped, "SERVE_SKIPPED", 1, [0]⟩, ⟨.launchFired, "LAUNCH_FIRED", 1, [0]⟩,
   ⟨.launchStalled, "LAUNCH_STALLED", 1, [0]⟩, ⟨.launchStall, "LAUNCH_STALL", 2, [1, 2]⟩,
   ⟨.launchStallMax, "LAUNCH_STALL_MAX", 1, [0]⟩, ⟨.blazeSent, "BLAZE_SENT", 1, [0]⟩,
   ⟨.blazeReceived, "BLAZE_RECEIVED", 1, [0]⟩, ⟨.blazeOps, "BLAZE_OPS", 2, List.range 14⟩,
   ⟨.blazeMismatch, "BLAZE_MISMATCH", 1, [0]⟩, ⟨.blazeTimeout, "BLAZE_TIMEOUT", 1, [0]⟩,
   ⟨.blazeDrop, "BLAZE_DROP", 1, [0]⟩, ⟨.blazeHold, "BLAZE_HOLD", 1, [0]⟩, ⟨.blazeWaitMax, "BLAZE_WAIT_MAX", 1, [0]⟩,
   ⟨.regWait, "REG_WAIT", 2, [1, 2, 3, 4, 5]⟩]

/-- Link, bridge, power, health and configuration counters (14 R397, 15 R430, 16 R457). -/
def ctrRowsD : List CtrRow :=
  [⟨.linkFecCorr, "LINK_FEC_CORR", 3, List.range 64⟩, ⟨.linkFecUncorr, "LINK_FEC_UNCORR", 3, List.range 64⟩,
   ⟨.linkReplay, "LINK_REPLAY", 3, List.range 16⟩, ⟨.linkLaneRet, "LINK_LANE_RET", 3, List.range 16⟩,
   ⟨.linkBytes, "LINK_BYTES", 3, List.range 576⟩, ⟨.linkCreditWait, "LINK_CREDIT_WAIT", 3, List.range 48⟩,
   ⟨.linkGateWait, "LINK_GATE_WAIT", 3, List.range 576⟩, ⟨.linkUnroutable, "LINK_UNROUTABLE", 0, [0]⟩,
   ⟨.linkDupId, "LINK_DUP_ID", 0, [0]⟩, ⟨.bridgeRelayTimeout, "BRIDGE_RELAY_TIMEOUT", 0, [0]⟩,
   ⟨.bridgeIrqUnmapped, "BRIDGE_IRQ_UNMAPPED", 0, [0]⟩, ⟨.cutGrant, "CUT_GRANT", 1, [0]⟩,
   ⟨.cutWait, "CUT_WAIT", 2, List.range 5⟩, ⟨.thermWarn, "THERM_WARN", 0, [0]⟩, ⟨.thermCrit, "THERM_CRIT", 0, [0]⟩,
   ⟨.unitFault, "UNIT_FAULT", 3, List.range 6⟩, ⟨.unitRetired, "UNIT_RETIRED", 3, List.range 6⟩,
   ⟨.segRetired, "SEG_RETIRED", 0, [0]⟩, ⟨.repairFill, "REPAIR_FILL", 1, [0]⟩, ⟨.objDamaged, "OBJ_DAMAGED", 1, [0]⟩,
   ⟨.coreRetired, "CORE_RETIRED", 0, [0]⟩, ⟨.peerDeclaredLost, "PEER_DECLARED_LOST", 0, [0]⟩,
   ⟨.configApplyFail, "CONFIG_APPLY_FAIL", 0, [0]⟩]

/-- Every counter, in the order of the chapters (log 52). -/
def ctrRows : List CtrRow := ctrRowsA ++ ctrRowsB ++ ctrRowsC ++ ctrRowsD

/-- Partition ids of a Scope (15 R411). -/
def scopeParts (scope : Nat) : List Nat := if scope = 0xFF then List.range 32 else [scope]

/-- Keys of the instances of a counter under a Scope, by partition, then index (15 R411). -/
def ctrKeys (c : CtrRow) (scope : Nat) : List CtrKey :=
  if c.gran = 1 ∨ c.gran = 2 then (scopeParts scope).flatMap fun p => c.idx.map fun i => ⟨c.name, p, i⟩
  else c.idx.map fun i => ⟨c.name, 0, i⟩

/-- A counter record (15 R411). -/
def ctrRecord (s : State) (scope : Nat) (c : CtrRow) : List Byte :=
  let keys := ctrKeys c scope
  bytesAt (c.label.toList.map fun ch => b8 ch.toNat) 0 24 ++ leBytes 2 keys.length ++ [b8 c.gran] ++ List.replicate 5 0 ++
    keys.flatMap fun k => leBytes 8 (lookupD s.ctr k 0)

/-- A signed tenth of a degree as 16 bits. -/
def i16Bytes (n : Int) : List Byte := leBytes 2 (BitVec.ofInt 16 n).toNat

/-- Telemetry block (15 R411). -/
def telemetry (s : State) : List Byte :=
  leBytes 4 s.cut.milliVolts ++ leBytes 4 s.cut.milliAmps ++ leBytes 2 s.cut.pavg ++ leBytes 2 s.cut.peakHr ++
  leBytes 2 s.cut.coreMilliVolts ++ leBytes 2 s.cut.b ++ leBytes 2 (heldAmps s) ++ leBytes 2 s.cut.ps ++
  (List.range 8).flatMap (fun i => i16Bytes (s.cut.temps.getD i 0)) ++ [b8 s.cut.therm.code] ++ List.replicate 27 0

/-- Result of HEALTH_READ (15 R411). -/
def healthBytes (s : State) (scope : Nat) : List Byte :=
  leBytes 4 ctrRows.length ++ leBytes 4 0 ++ leBytes 8 s.lc.toNat ++ telemetry s ++ ctrRows.flatMap (ctrRecord s scope)

def cmdHealthRead (r : Req) (t : Nat) (s : State) : State :=
  let scope := fld r.pay 0 1
  runCmd .healthRead none
    { Need.pass with form := has r.pay 8 && zeroAt r.pay 1 7 && (decide (scope < 32) || scope == 0xFF) }
    (fun t s =>
      let bs := healthBytes s scope
      finish { s with cut := { s.cut with peakHr := 0 } } t .ok 0 (some bs)) r t s

/-- HEALTH_READ (15 R411): PowerPeakW starts again at each read; Detail is not stated and reads 0 (log 51). -/
def execHealthRead (r : Req) (s : State) : Host.Outcome State Fault Refusal := live s (enter .healthRead cmdHealthRead r s)

/-! ### POWER_SET -/

/-- PS within its range (15 R409, R410). -/
def psOk (w : Nat) : Bool := decide (600 ≤ w) && decide (w ≤ 1200)

/-- Caps of a payload at 0x08, or of a record at 0x10 (15 R409, 16 R456). -/
def capsAt (l : List Byte) (o : Nat) : List Nat := fldList l o 2 32

/-- Form of POWER_SET (15 R409). -/
def powerSetForm (l : List Byte) : Bool :=
  has l 72 && psOk (fld l 0 2) && decide (fld l 2 2 < 2) && zeroAt l 4 4 && (!bit (fld l 2 2) 0 || (capsAt l 8).all capOk)

def powerSetEffect (l : List Byte) (s : State) : State :=
  { s with cut := { s.cut with
      ps := fld l 0 2
      caps := if bit (fld l 2 2) 0 then capsAt l 8 else s.cut.caps } }

def cmdPowerSet (r : Req) (t : Nat) (s : State) : State :=
  runCmd .powerSet none { Need.pass with form := powerSetForm r.pay }
    (fun t s => finishPlain (powerSetEffect r.pay s) t .ok s.cut.b) r t s

/-- POWER_SET (15 R409). -/
def execPowerSet (r : Req) (s : State) : Host.Outcome State Fault Refusal := live s (enter .powerSet cmdPowerSet r s)

/-! ### BRIDGE_MAP -/

/-- An entry of BRIDGE_MAP (14 R391): slot and whether it unmaps. -/
def mapEntry (l : List Byte) (i : Nat) : Slot × Bool :=
  let o := 8 + 8 * i
  (⟨fld l o 1, fld l (o + 2) 2, fld l (o + 4) 2, fld l (o + 6) 1⟩, bit (fld l (o + 7) 1) 0)

def mapEntries (l : List Byte) : List (Slot × Bool) := (List.range (fld l 0 2)).map (mapEntry l)

/-- The mapping after the entries have been applied in order (14 R391). -/
def applyMap (slots : List Slot) (es : List (Slot × Bool)) : List Slot :=
  es.foldl (fun m e =>
    let rest := m.filter fun x => !(x.fn == e.1.fn && x.slot == e.1.slot)
    if e.2 then rest else rest ++ [e.1]) slots

/-- No module and pair in two slots. -/
def mapDistinct : List Slot → Bool
  | [] => true
  | e :: r => r.all (fun x => !(x.module == e.module && x.pair == e.pair)) && mapDistinct r

/-- Form of BRIDGE_MAP (14 R391). -/
def bridgeMapForm (s : State) (l : List Byte) : Bool :=
  let n := fld l 0 2
  let es := mapEntries l
  let m := applyMap s.bridge.slots es
  has l 8 && decide (1 ≤ n ∧ n ≤ 512) && has l (8 + 8 * n) && decide (1 ≤ fld l 2 2) && zeroAt l 4 4 &&
  es.all (fun e => decide (e.1.fn ≤ s.bridge.numVFs) && decide (e.1.slot ≤ 511) && decide (e.1.pair < 64)) &&
  (List.range n).all (fun i => zeroAt l (9 + 8 * i) 1 && decide (fld l (15 + 8 * i) 1 < 2)) &&
  mapDistinct m && decide ((m.map (·.module)).eraseDups.length ≤ 32)

def bridgeMapEffect (l : List Byte) (s : State) : State :=
  { s with bridge := { s.bridge with slots := applyMap s.bridge.slots (mapEntries l), relayWeight := fld l 2 2 } }

/-- Slots mapped after BRIDGE_MAP (14 R391). -/
def mappedAfter (s : State) (l : List Byte) : Nat := (applyMap s.bridge.slots (mapEntries l)).length

def cmdBridgeMap (r : Req) (t : Nat) (s : State) : State :=
  runCmd .bridgeMap none
    { Need.pass with
      form := bridgeMapForm s r.pay
      room := if 512 < mappedAfter s r.pay then some .noSpace else none }
    (fun t s => finishPlain (bridgeMapEffect r.pay s) t .ok (mappedAfter s r.pay)) r t s

/-- BRIDGE_MAP (14 R391). -/
def execBridgeMap (r : Req) (s : State) : Host.Outcome State Fault Refusal := live s (enter .bridgeMap cmdBridgeMap r s)

end Sys2Proof.Machine
end

