-- ==== Sys2Proof/Machine/Security.lean ====
section
/-! DEFINITION. Attestation (16 R444 to R449), life cycle (16 R451 to R454), configuration export and import (16 R458 to
R460). Signatures, certificates and SPDM messages are the uninterpreted functions of Config (log 10). -/

namespace Sys2Proof.Machine

/-! ### Keys and records -/

/-- SHA-384 of measurements 1 to 4 in index order (16 R442). -/
def measDigest (s : State) : Digest384 := digestOf ((List.range 4).flatMap fun i => digestBytes (measurement s (i + 1)))

/-- Name of this boot's alias keys. -/
def aliasName (s : State) : Digest384 := s.sec.aliasKey.getD 0

def aliasEcdsa (s : State) : List Byte := bytesAt (Config.ecdsaPub (aliasName s)) 0 96
def aliasLms (s : State) : List Byte := bytesAt (Config.lmsPub (aliasName s)) 0 48

/-- The alias keys' digest that names an export's target (16 R459). -/
def targetAlias (s : State) : List Byte := sha384 (aliasEcdsa s ++ aliasLms s)

/-- The ALIAS record signed with leaf `q` (16 R443). -/
def aliasRecord (s : State) (q : Nat) : List Byte :=
  let body := leBytes 4 0x4352534C ++ [1, b8 s.life, 0, 0] ++ leBytes 8 s.fuses.serial.toNat ++ aliasEcdsa s ++ aliasLms s ++
    digestBytes (measDigest s) ++ leBytes 4 q ++ List.replicate 12 0
  body ++ bytesAt (Config.lmsSign s.fuses.uds q body) 0 1740

/-- Result of CHAIN (16 R445). -/
def chainBytes (s : State) (q : Nat) : List Byte :=
  let id := storedCert s
  let manufacture := s.life == 0
  let certs := Config.rootCert ++ (if manufacture then [] else id.1) ++
    Config.aliasCert s.fuses.uds (aliasName s) (measDigest s)
  leBytes 4 certs.length ++ leBytes 4 (if manufacture then 1 else 2) ++ padTo 8 certs ++
    (if manufacture then [] else id.2) ++ aliasRecord s q

/-- Alias signatures over `body`: LMS with the next leaf, then ECDSA over everything before it (16 R447, R459). -/
def aliasSigned (s : State) (body : List Byte) : List Byte :=
  let b := body ++ bytesAt (Config.lmsSign (aliasName s) s.sec.aliasLeaf body) 0 1620
  b ++ bytesAt (Config.ecdsaSign (aliasName s) b) 0 96

/-- One alias leaf is used (16 R449). -/
def useLeaf (s : State) : State := { s with sec := { s.sec with aliasLeaf := s.sec.aliasLeaf + 1 } }

/-- No alias LMS leaf is left (16 R442, R449). -/
def leavesGone (s : State) : Bool := decide (32768 ≤ s.sec.aliasLeaf)

/-! ### ATTEST_GET -/

/-- Measurements a mask selects, ascending (16 R444). -/
def maskList (m : Nat) : List Nat := (List.range 64).filter fun i => bit m i

/-- The report before its signatures (16 R447). -/
def reportHead (s : State) (l : List Byte) : List Byte :=
  let ms := maskList (fld l 0x28 8)
  leBytes 4 0x54415452 ++ leBytes 2 1 ++ [b8 s.life, b8 (boolNat s.boot.imageB)] ++ leBytes 8 s.fuses.serial.toNat ++
  leBytes 2 s.myId.toNat ++ [s.fuses.compat, s.fuses.stepping] ++ leBytes 4 ms.length ++ leBytes 8 s.lc.toNat ++
  bytesAt l 8 32 ++ leBytes 8 (fld l 0x28 8) ++
  ms.flatMap fun i => [b8 i, measType i] ++ List.replicate 6 0 ++ digestBytes (measurement s i)

/-- Form of ATTEST_GET (16 R444). -/
def attestForm (l : List Byte) : Bool :=
  let mode := fld l 0 1
  let n := fld l 4 4
  let mask := fld l 0x28 8
  has l 0x30 && decide (mode < 3) && zeroAt l 1 3 &&
  (if mode = 0 then decide (4 ≤ n ∧ n ≤ 1024) && has l (0x30 + n) else n == 0) &&
  (mode == 1 || (zeroAt l 8 32 && mask == 0)) && !bit mask 0 && decide (mask < 2 ^ 38)

/-- SPDM mode (16 R446): one message through the connection of the pair. -/
def attestSpdm (pair : Nat) (l : List Byte) (t : Nat) (s : State) : State :=
  let a := Config.spdmRespond (lookupD s.sec.spdm pair 0) (bytesAt l 0x30 (fld l 4 4))
    ((List.range 37).map fun i => measurement s (i + 1)) (aliasName s) s.sec.aliasLeaf
  if a.2.2 && leavesGone s then finishPlain s t .noSpace 0
  else
    let s1 := { s with sec := { s.sec with spdm := setKey s.sec.spdm pair a.2.1 } }
    finish (if a.2.2 then useLeaf s1 else s1) t .ok (w32 a.1.length) (some a.1)

def attestEffect (pair : Nat) (l : List Byte) (t : Nat) (s : State) : State :=
  match fld l 0 1, s.sec.leaf with
  | 0, _ => attestSpdm pair l t s
  | _, none => finishPlain s t .auth 0
  | 1, some _ =>
    if leavesGone s then finishPlain s t .noSpace 0
    else
      let bs := aliasSigned s (reportHead s l)
      finish (useLeaf s) t .ok (w32 bs.length) (some bs)
  | _, some q =>
    let bs := chainBytes s q
    finish s t .ok (w32 bs.length) (some bs)

def cmdAttestGet (r : Req) (t : Nat) (s : State) : State :=
  runCmd .attestGet none { Need.pass with form := attestForm r.pay } (attestEffect r.pair r.pay) r t s

/-- ATTEST_GET (16 R444 to R449). -/
def execAttestGet (r : Req) (s : State) : Host.Outcome State Fault Refusal := live s (enter .attestGet cmdAttestGet r s)

/-! ### LIFECYCLE_ADVANCE -/

/-- Every partition is UNBOUND (02 R57). -/
def allUnbound (s : State) : Bool := s.parts.all fun p => p.state == .unbound

/-- Authority of a transition (16 R451): none when it is not permitted, else whether it is the vendor's. -/
def transitionOf (life count target : Nat) : Option Bool :=
  if life = 0 ∧ target = 1 then some true
  else if life = 1 ∧ target = 2 then some false
  else if life = 2 ∧ target = 3 then some false
  else if life = 3 ∧ target = 1 ∧ count < 12 then some true
  else if life ≠ 4 ∧ target = 4 then some false
  else none

/-- Signed message of a vendor token (16 R453). -/
def tokenMessage (tk : List Byte) : List Byte := tk.take 0xB8 ++ tk.drop 0x7E8

/-- Bytes of an LMS record (16 R443), and whether its reserved fields are 0 (00 R11). -/
def lmsBytes : Nat := 1964
def lmsReserved (r : List Byte) : Bool := zeroAt r 6 2 && zeroAt r 0xD4 12

/-- Form of a vendor token (16 R453). -/
def tokenForm (life : Nat) (tk : List Byte) : Bool :=
  let n := fld tk 0x1C 4
  has tk 0x7E8 && fld tk 0 4 == 0x4E4B544C && zeroAt tk 6 2 && decide (fld tk 0x18 1 < 4) && zeroAt tk 0x19 3 &&
  zeroAt tk 0x20 8 && zeroAt tk 0x7E4 4 &&
  (if life = 0 then tk.length == 0x7E8 + alignUp 8 n + lmsBytes && lmsReserved (tk.drop (0x7E8 + alignUp 8 n))
    else n == 0 && tk.length == 0x7E8)

/-- Does a vendor token hold (16 R453)? -/
def tokenHolds (s : State) (target : Nat) (tk : List Byte) : Bool :=
  let pub := bytesAt tk 0x28 96
  let lms := bytesAt tk 0x88 48
  let slot := fld tk 0x18 1
  digestOf (pub ++ lms) == s.fuses.rootKeyHash.getD slot 0 && !s.fuses.rootRevoke.getLsbD slot &&
  Config.ecdsaVerify pub (tokenMessage tk) (bytesAt tk 0xB8 96) &&
  Config.lmsVerify lms (tokenMessage tk) (bytesAt tk 0x118 1740) &&
  fld tk 8 8 == s.fuses.serial.toNat && fld tk 4 1 == s.life && fld tk 5 1 == target &&
  fld tk 0x10 8 == s.fuses.lifeCount

/-- Flash records a transition writes or erases (16 R451). -/
def transitionRecords (s : State) (target : Nat) (tk : List Byte) : State :=
  if target = 4 then flashErase (flashErase (flashErase s certAddr 0x10000) 0x0F010000 0x10000) recordAddr 0x100000
  else if s.life = 0 then
    flashWrite (flashErase s certAddr 0x10000) certAddr (leBytes 8 (fld tk 0x1C 4) ++ tk.drop 0x7E8)
  else if s.life = 3 then flashErase s recordAddr 0x100000
  else s

/-- The new value of c (16 R452); fuses only ever change from 0 to 1 (16 R431). -/
def newCount (s : State) (target : Nat) : Nat := max s.fuses.lifeCount (if target = 4 then 16 else s.fuses.lifeCount + 1)

/-- The transition (16 R454). A failed read-back leaves the fuses at a value between the old and the new one that nothing
fixes (log 49). -/
def lifecycleEffect (l : List Byte) (readBackOk : Bool) (t : Nat) (s : State) : State :=
  let target := fld l 0 1
  let tk := bytesAt l 8 (fld l 4 4)
  let vendor := transitionOf s.life s.fuses.lifeCount target == some true
  if vendor && !tokenHolds s target tk then finishPlain s t .auth 0
  else
    let c1 := newCount s target
    let s1 := transitionRecords s target tk
    if readBackOk then
      let f := { s1.fuses with lifeCount := c1, uds := if target = 4 then BitVec.allOnes 384 else s1.fuses.uds }
      let s2 := { s1 with fuses := f, sec := { s1.sec with transition := some (some s.now) } }
      finishPlain s2 t .ok target
    else
      let c := s.fuses.lifeCount + (Config.freeValue s.freeIdx).toNat % (c1 - s.fuses.lifeCount + 1)
      let s2 := { s1 with fuses := { s1.fuses with lifeCount := c }, freeIdx := s.freeIdx + 1,
                          sec := { s1.sec with transition := some none } }
      finishPlain s2 t .fault 0

def cmdLifecycleAdvance (readBackOk : Bool) (r : Req) (t : Nat) (s : State) : State :=
  let target := fld r.pay 0 1
  let n := fld r.pay 4 4
  let tr := transitionOf s.life s.fuses.lifeCount target
  let tokenOk := match tr with
    | some true => tokenForm s.life (bytesAt r.pay 8 n)
    | some false => n == 0
    | none => true
  runCmd .lifecycleAdvance none
    { Need.pass with
      form := has r.pay 8 && decide (target < 5) && zeroAt r.pay 1 3 && has r.pay (8 + n) && tokenOk
      state := allUnbound s && tr.isSome }
    (lifecycleEffect r.pay readBackOk) r t s

/-- LIFECYCLE_ADVANCE (16 R451 to R454); the operand says whether the fuses read back as blown. -/
def execLifecycleAdvance (r : Req) (readBackOk : Bool) (s : State) : Host.Outcome State Fault Refusal :=
  live s (enter .lifecycleAdvance (cmdLifecycleAdvance readBackOk) r s)

/-! ### CONFIG_EXPORT and CONFIG_IMPORT -/

/-- The export package (16 R459). -/
def exportBytes (s : State) (rec_ target : List Byte) (q : Nat) : List Byte :=
  let chain := chainBytes s q
  aliasSigned s (leBytes 4 0x50584643 ++ leBytes 2 1 ++ [s.fuses.compat, b8 s.life] ++ leBytes 8 s.fuses.serial.toNat ++
    target ++ leBytes 4 rec_.length ++ leBytes 4 0 ++ padTo 8 rec_ ++ leBytes 4 chain.length ++ leBytes 4 0 ++ chain)

/-- CONFIG_EXPORT once its checks pass: without an alias record or a leaf it ends as ATTEST_GET does (16 R441, R449;
log 50). -/
def exportEffect (l : List Byte) (t : Nat) (s : State) : State :=
  match s.sec.leaf with
  | none => finishPlain s t .auth 0
  | some q =>
    if leavesGone s then finishPlain s t .noSpace 0
    else finish (useLeaf s) t .ok 0 (some (exportBytes s ((storedRecord s).getD []) (bytesAt l 0 48) q))

def cmdConfigExport (r : Req) (t : Nat) (s : State) : State :=
  runCmd .configExport none
    { Need.pass with form := has r.pay 48, state := allUnbound s, found := (storedRecord s).isSome } (exportEffect r.pay) r t s

/-- CONFIG_EXPORT (16 R459). -/
def execConfigExport (r : Req) (s : State) : Host.Outcome State Fault Refusal := live s (enter .configExport cmdConfigExport r s)

/-- Parts of an export package: record, chain and the offset of the signatures (16 R459). -/
def packageRecord (d : List Byte) : List Byte := bytesAt d 0x48 (fld d 0x40 4)
def packageChainAt (d : List Byte) : Nat := 0x48 + alignUp 8 (fld d 0x40 4)
def packageSigAt (d : List Byte) : Nat := packageChainAt d + 8 + fld d (packageChainAt d) 4
def packageChain (d : List Byte) : List Byte := bytesAt d (packageChainAt d + 8) (fld d (packageChainAt d) 4)

/-- The LMS records at the end of a chain (16 R445). -/
def chainRecords (ch : List Byte) : List (List Byte) :=
  let n := min (fld ch 4 4) (ch.length / lmsBytes)
  (List.range n).map fun k => (ch.drop (ch.length - lmsBytes * (n - k))).take lmsBytes

/-- Form of an export package (16 R459). -/
def packageForm (d : List Byte) : Bool :=
  has d 0x48 && fld d 0 4 == 0x50584643 && fld d 4 2 == 1 && zeroAt d 0x44 4 && has d (packageChainAt d + 8) &&
  zeroAt d (packageChainAt d + 4) 4 && d.length == packageSigAt d + 1716 && recordForm (packageRecord d) &&
  (chainRecords (packageChain d)).all lmsReserved

/-- The ALIAS record ends a chain (16 R445). -/
def chainAlias (ch : List Byte) : List Byte := ch.drop (ch.length - lmsBytes)

/-- Does an attested import hold (16 R460)? -/
def packageHolds (s : State) (d : List Byte) : Bool :=
  let ch := packageChain d
  let al := chainAlias ch
  fld d 6 1 == s.fuses.compat.toNat && bytesAt d 0x10 48 == targetAlias s &&
  ((List.range 4).any fun k => !s.fuses.rootRevoke.getLsbD k && Config.chainReaches ch (s.fuses.rootKeyHash.getD k 0)) &&
  Config.lmsVerify (bytesAt al 0x70 48) (d.take (packageSigAt d)) (bytesAt d (packageSigAt d) 1620) &&
  Config.ecdsaVerify (bytesAt al 0x10 96) (d.take (packageSigAt d + 1620)) (bytesAt d (packageSigAt d + 1620) 96)

def importData (l : List Byte) : List Byte := bytesAt l (fld l 8 4) (fld l 4 4)

def importEffect (l : List Byte) (t : Nat) (s : State) : State :=
  let d := importData l
  if fld l 0 1 = 0 then finishPlain (storeRecord s d) t .ok d.length
  else if packageHolds s d then finishPlain (storeRecord s (packageRecord d)) t .ok (packageRecord d).length
  else finishPlain s t .auth 0

def cmdConfigImport (r : Req) (t : Nat) (s : State) : State :=
  let l := r.pay
  runCmd .configImport none
    { Need.pass with
      form := has l 16 && decide (fld l 0 1 < 2) && zeroAt l 1 3 && fld l 8 4 % 8 == 0 && zeroAt l 12 4 &&
        has l (fld l 8 4 + fld l 4 4) && (if fld l 0 1 = 0 then recordForm (importData l) else packageForm (importData l))
      state := allUnbound s }
    (importEffect l) r t s

/-- CONFIG_IMPORT (16 R458, R460). -/
def execConfigImport (r : Req) (s : State) : Host.Outcome State Fault Refusal := live s (enter .configImport cmdConfigImport r s)

end Sys2Proof.Machine
end

