-- ==== Sys2Proof/Machine/Boot.lean ====
section
/-! DEFINITION. Power, reset and the way to READY (15 R421, R422; 16 R434 to R442, R454 to R457; 18 R468 to R473, R478). -/

namespace Sys2Proof.Machine

/-! ### Reset -/

/-- The flash registers after a reset: an operation in progress goes on (18 R471), the rest reads its Reset value. -/
def flashAfterReset (f : Flash) : Flash := { f with addr := 0, err := false, code := 0 }

/-- The module after a reset (18 R470): everything at its Reset value but what outlives resets: the supply, the pins, fuses
and flash, SbFlashBuf, SbModuleId (18 R473), the SPI operation, and the model's own fields. -/
def resetTo (s : State) (c : ResetCause) : State :=
  { State.reset with
    power := s.power
    boot := Boot.reset c
    fuses := s.fuses
    flash := flashAfterReset s.flash
    sb := { State.reset.sb with moduleId := s.sb.moduleId }
    stands := Stand.assign s.fuses.active s.fuses.passed
    readOut := s.readOut
    hostOut := s.hostOut
    nextId := s.nextId
    freeIdx := s.freeIdx
    pending := s.pending }

/-- The module is powered and its rails are up. -/
def State.powered (s : State) : Bool := s.power.inputOn && s.power.pwrgd

/-- `n` bytes that the spec leaves undefined, the next free values (log 15). -/
def freeBytes (s : State) (n : Nat) : List Byte := (List.range n).map fun i => Config.freeByte (s.freeIdx + i)

/-- A flash operation cut off by power loss leaves its sector undefined (18 R471). -/
def tearFlash (s : State) : State :=
  match s.flash.op with
  | some (.program, a) => { flashWrite s a (freeBytes s 4096) with freeIdx := s.freeIdx + 4096 }
  | some (.erase, a) => { flashWrite s a (freeBytes s 65536) with freeIdx := s.freeIdx + 65536 }
  | _ => s

/-- The input falls (18 R469): SB_PWRGD low, rails off, everything but fuses and flash lost. -/
def powerLoss (s : State) : State :=
  if !s.power.inputOn then s else
    let s1 := tearFlash s
    let s2 := resetTo s1 .powerOn
    { s2 with
      power := { s1.power with inputOn := false, pwrgd := false, railTripped := false, dynAddr := none }
      boot := { s2.boot with phase := .off }
      flash := { s2.flash with buf := [], busy := false, op := none, tainted := false }
      sb := State.reset.sb }

def execPowerLoss (s : State) : Host.Outcome State Fault Refusal := .next (powerLoss s)

/-- The input rises (18 R468, R470): rails, SB_PWRGD, straps sampled, a power-on reset. The reset-to-ready sequence is
RESET_RELEASE. -/
def powerOn (straps : BitVec 3) (s : State) : State :=
  if s.power.inputOn then s else
    let s1 := resetTo s .powerOn
    { s1 with
      power := { s.power with inputOn := true, pwrgd := true, railTripped := false, straps, dynAddr := none }
      flash := { s1.flash with buf := [], busy := false, op := none, tainted := false }
      sb := State.reset.sb }

def execPowerOn (straps : BitVec 3) (s : State) : Host.Outcome State Fault Refusal := .next (powerOn straps s)

/-- SB_RESET_N held low (18 R470): pulses shorter than 10 microseconds are ignored. -/
def resetInput (lowNs : Nat) (s : State) : State :=
  if !s.powered || decide (lowNs < 10000) then s else
    let s1 := resetTo s .resetInput
    { s1 with power := { s1.power with resetHigh := false } }

def execResetInput (lowNs : Nat) (s : State) : Host.Outcome State Fault Refusal := live s (resetInput lowNs s)

/-- A reset from within the module: SB_RESET_N stays high (18 R470). -/
def innerReset (c : ResetCause) (s : State) : State := resetTo s c

/-- A port begins to train, unless DISABLE holds it DOWN (14 R386). -/
def startTraining (p : Port) : Port := if bit p.ctl.toNat 0 then p else { p with state := .training }

/-! ### Boot ROM -/

/-- Step 2 of 16 R437: in DECOMMISSIONED every Uds bit still 0 is blown. -/
def finishUds (s : State) : State :=
  if s.life = 4 then { s with fuses := { s.fuses with uds := BitVec.allOnes 384 } } else s

/-- Error codes, with 10 FAILS for a chosen slot whose count is 2 or more (16 R435). -/
def slotErr (code fails : Nat) (chosen : Bool) : BitVec 4 :=
  if chosen ∧ code = 0 ∧ 2 ≤ fails then 10 else BitVec.ofNat 4 code

/-- Alias keys of this boot and the leaf that certifies them (16 R440 to R442); none in DECOMMISSIONED. -/
def deriveKeys (s : State) : State :=
  if s.life = 4 then s else
    let s1 := { s with sec := { s.sec with aliasKey := some (Config.random s.freeIdx), aliasLeaf := 0 },
                       freeIdx := s.freeIdx + 1 }
    match bootLeaf s1 with
    | some (q, seq) =>
      let s2 := writeLeaf s1 q seq
      { s2 with sec := { s2.sec with leaf := some q } }
    | none => s1

/-- Measurements 1 to 4 (16 R439). -/
def formMeasurements (img : Bool) (ca cb : Nat) (s : State) : State :=
  let m1 := Config.romDigest
  let m2 := digestOf (fuseBytes s.fuses)
  let m3 := digestOf ((slotHeader s img).take 0x190)
  let m4 := digestOf [b8 (boolNat img), b8 (failCount s false), b8 (failCount s true), b8 ca, b8 cb]
  { s with sec := { s.sec with meas := [m1, m2, m3, m4, 0] } }

/-- Step 8 of 18 R472: firmware reads the record and sets the module id, from SbModuleId where the record gives none, or
waits for one (18 R473). Ports 4 to 15 then train (step 10). -/
def firmwareStart (s : State) : State :=
  let rec_ := storedRecord s
  let given : W16 := match rec_ with
    | some l => fldW 16 l 6 2
    | none => 0xFFFF
  let id : W16 := if given = 0xFFFF then s.sb.moduleId.setWidth 16 else given
  let s1 := { s with sec := { s.sec with record := rec_ } }
  let s2 := match rec_ with
    | some l => { s1 with sec := { s1.sec with meas := s1.sec.meas.set 4 (digestOf l) } }
    | none => s1
  if id = 0xFFFF then { s2 with boot := { s2.boot with phase := .waitId } }
  else
    { s2 with
      boot := { s2.boot with phase := .wiping }
      ident := { s2.ident with moduleId := id }
      ports := s2.ports.mapIdx fun i p => if 4 ≤ i then startTraining p else p }

/-- Steps 2 to 6 of 16 R437, from the fuses to the release of the Ranger cores. -/
def bootRom (s0 : State) : State :=
  let s := finishUds s0
  let ca := slotCheck s false
  let cb := slotCheck s true
  let fa := failCount s false
  let fb := failCount s true
  match chooseSlot (ca == 0) (cb == 0) fa fb (slotHeader s false) (slotHeader s true) with
  | none =>
    { s with boot := { s.boot with
        phase := .recovery, checked := true, recovery := true, imageB := false, aErr := BitVec.ofNat 4 ca,
        bErr := BitVec.ofNat 4 cb, aFails := BitVec.ofNat 2 (min fa 3), bFails := BitVec.ofNat 2 (min fb 3) } }
  | some img =>
    let s1 := setFailCount s img ((if img then fb else fa) + 1)
    let ea := slotErr ca fa (!img)
    let eb := slotErr cb fb img
    let s2 := { s1 with boot := { s1.boot with
      checked := true, recovery := false, imageB := img, aErr := ea, bErr := eb,
      aFails := BitVec.ofNat 2 (min (failCount s1 false) 3), bFails := BitVec.ofNat 2 (min (failCount s1 true) 3),
      fwVersion := w64 (hdrFwVersion (slotHeader s1 img)) } }
    firmwareStart (deriveKeys (formMeasurements img ea.toNat eb.toNat s2))

/-- SB_PWRGD released and SB_RESET_N high: the reset-to-ready sequence (18 R472), up to firmware's start. The boot ROM waits
while a side-band flash operation is in progress (18 R471). -/
def resetRelease (selfTestsPass : Bool) (s : State) : State :=
  if !s.powered || s.boot.phase != .held then s else
    let s1 := { s with power := { s.power with resetHigh := true } }
    if !selfTestsPass then { s1 with boot := { s1.boot with phase := .katFailed } }
    else if s1.flash.busy then { s1 with boot := { s1.boot with phase := .booting } }
    else bootRom s1

def execResetRelease (selfTestsPass : Bool) (s : State) : Host.Outcome State Fault Refusal :=
  live s (resetRelease selfTestsPass s)

/-- PCIe detection ends (14 R387): bridge mode, with slot 0 of function 0 mapping the bridge's pair 0 (14 R391), or
Ziluaric training on ports 0 to 3. -/
def pcieDetectEnd (found : Bool) (s : State) : State :=
  if s.boot.phase != .wiping || s.boot.pcieDone then s else
    let s1 := { s with boot := { s.boot with pcieDone := true } }
    if found then
      { s1 with
        ident := { s1.ident with bridge := true }
        ports := s1.ports.mapIdx fun i p => if i < 4 then { p with state := .pcie } else p
        bridge := { s1.bridge with slots := [⟨0, 0, s1.myId.toNat, 0⟩] } }
    else { s1 with ports := s1.ports.mapIdx fun i p => if i < 4 then startTraining p else p }

def execPcieDetectEnd (found : Bool) (s : State) : Host.Outcome State Fault Refusal := live s (pcieDetectEnd found s)

/-! ### READY -/

/-- One PARTITION_BIND payload of the record (16 R457): run as on pair 0; one that fails is skipped and counted. -/
def applyBind (s : State) (l : List Byte) : State :=
  let b := bindParse l
  if bindForm l false && (s.part b.part).state == .unbound && (bindRoom s b).1.isNone && lifePermits s.life .partitionBind then
    bindEffect l s
  else bump s .configApplyFail 0 0 1

/-- The BRIDGE_MAP payload of the record, on a bridge module (16 R457). -/
def applyBridge (s : State) (l : List Byte) : State :=
  if !s.ident.bridge then s
  else if bridgeMapForm s l && decide (mappedAfter s l ≤ 512) && lifePermits s.life .bridgeMap then bridgeMapEffect l s
  else bump s .configApplyFail 0 0 1

/-- The configuration record in force is applied (16 R457). -/
def applyRecord (s : State) : State :=
  match s.sec.record with
  | none => s
  | some l =>
    let w := fld l 8 2
    let s1 := { s with cut := { s.cut with
      ps := if w = 0 then s.cut.ps else w
      caps := if recCaps l then capsAt l 0x10 else s.cut.caps } }
    let secs := sectionsOf l (recSections l) 0x50
    if recBridge l then (secs.drop 1).foldl applyBind ((secs.take 1).foldl applyBridge s1)
    else secs.foldl applyBind s1

/-- Fuses raised after READY when both slots hold valid images (16 R436). -/
def raiseFuses (s : State) : State :=
  if slotCheck s false == 0 && slotCheck s true == 0 then
    let ha := slotHeader s false
    let hb := slotHeader s true
    let v := min (hdrSecVersion ha) (hdrSecVersion hb)
    let k := min (hdrKeySlot ha) (hdrKeySlot hb)
    let low : BitVec 4 := if hdrRevokeLower ha && hdrRevokeLower hb then BitVec.ofNat 4 (2 ^ k - 1) else 0
    { s with fuses := { s.fuses with
        secVersion := max s.fuses.secVersion v, rootRevoke := s.fuses.rootRevoke ||| low } }
  else s

/-- The wipe is complete (16 R455; 05 R130, R150), the record applied, READY set and the fail count cleared (18 R472). -/
def moduleReady (s : State) : State :=
  if s.boot.phase != .wiping || !s.boot.pcieDone then s else
    let s1 := applyRecord { s with landing := [], t1 := T1.wiped }
    let s2 := setFailCount { s1 with boot := { s1.boot with phase := .ready } } s1.boot.imageB 0
    raiseFuses s2

def execModuleReady (s : State) : Host.Outcome State Fault Refusal := live s (moduleReady s)

/-! ### Watchdog, life-cycle reset -/

/-- Firmware fails to service the watchdog, which runs from the release of the cores (15 R422, 16 R437). -/
def firmwareWatchdog (s : State) : State := if s.released then innerReset .watchdog s else s

def execFirmwareWatchdog (s : State) : Host.Outcome State Fault Refusal := live s (firmwareWatchdog s)

/-- 10 ms after the final record of a LIFECYCLE_ADVANCE the module resets as by the reset input (16 R454, 18 R470). -/
def lifecycleReset (s : State) : State :=
  match s.sec.transition with
  | some (some at_) => if at_ + 10000000 ≤ s.now then innerReset .resetInput s else s
  | _ => s

def execLifecycleReset (s : State) : Host.Outcome State Fault Refusal := live s (lifecycleReset s)

/-- SETDASA (18 R474): the dynamic address is assigned from the static address, on a bus that answers (18 R468). -/
def setdasa (addr : BitVec 7) (s : State) : State :=
  if s.managed then { s with power := { s.power with dynAddr := some addr } } else s

def execSetdasa (addr : BitVec 7) (s : State) : Host.Outcome State Fault Refusal := live s (setdasa addr s)

end Sys2Proof.Machine
end

