-- ==== Sys2Proof/Machine/Loads.lean ====
section
/-! DEFINITION. Loading and removing content: what names an object (02 R56; 07 R194; 08 R220; 09 R264; 11 R309, R311), the
load commands, the arrival of their bytes, and the unload commands. -/

namespace Sys2Proof.Machine

/-! ### Who uses an object -/

/-- Does a request name the model: its generator, encoder or re-ranker (11 R313, R319)? -/
def ctxUsesModel (c : Ctx) (id : Nat) : Bool :=
  c.generator == id || (c.isQuery && (fld c.pay 1 1 == id || fld c.pay 2 1 == id))

/-- Does a query name the index, and with it the store of that id (11 R312, R313)? -/
def ctxUsesIndex (c : Ctx) (id : Nat) : Bool := c.isQuery && fld c.pay 4 1 == id

/-- Is a query's search still to come or running (log 58)? -/
def ctxSearching (c : Ctx) : Bool :=
  c.isQuery && ((c.state == .queued && c.stage == .none) || (c.state == .retrieving &&
    (c.stage == .none || c.stage == .embedTokens || c.stage == .embed || c.stage == .search)))

/-- Commands of a code in progress in a partition. -/
def cmdsOf (s : State) (i : Nat) (c : Code) : List Cmd := s.cmds.filter fun x => x.part == some i && x.code == c

/-- A search, change or planting of the index is in flight (09 R264, R265). -/
def indexBusy (s : State) (i id : Nat) : Bool :=
  ([Code.searchSubmit, .peerSearch, .searchInsert, .searchDelete, .plantStart].any fun k =>
    (cmdsOf s i k).any fun c => fld c.pay 0 1 == id) ||
  s.searches.any (fun x => x.part == i && x.index == id) || (s.part i).changes.any (fun c => c.index == id) ||
  ((s.part i).indexes.any fun x => x.id == id && x.planting.isSome) ||
  (inFlight s i).any fun c => ctxUsesIndex c id && ctxSearching c

/-- The grammar a DETOKENIZE_SUBMIT names (07 R201, R213). -/
def detokGrammar (l : List Byte) : Option Nat :=
  if bit (fld l 1 1) 0 then (optionsParse (l.drop (fld l 8 4))).grammar else none

/-- Is the tokenizer used by a request, a TOKENIZE_SUBMIT or a DETOKENIZE_SUBMIT in flight (02 R56, 07 R194)? -/
def tokenizerBusy (s : State) (i id : Nat) : Bool :=
  (cmdsOf s i .tokenizeSubmit ++ cmdsOf s i .detokenizeSubmit).any (fun c => fld c.pay 0 1 == id) ||
  (inFlight s i).any fun c => (s.part i).models.any fun m => m.tokenizer == id && ctxUsesModel c m.id

/-- Is the grammar named by a request or a DETOKENIZE_SUBMIT in flight (02 R56)? -/
def grammarBusy (s : State) (i id : Nat) : Bool :=
  (cmdsOf s i .detokenizeSubmit).any (fun c => detokGrammar c.pay == some id) ||
  (inFlight s i).any fun c => c.opts.grammar == some id

/-- Is the table read by a gather in flight, a launch's among them (02 R56)? -/
def tableRead (s : State) (i id : Nat) : Bool :=
  s.jobs.any (fun j => j.part == i && j.kind == .gather && match s.cmd? j.ticket with
    | some c => fld c.pay 0 1 == id
    | none => false) ||
  (cmdsOf s i .gatherSubmit ++ cmdsOf s i .peerGather).any (fun c => fld c.pay 0 1 == id) ||
  s.launches.any fun l => l.part == i && match l.gather with
    | some (t, _, _) => t == id
    | none => false

/-- Has the table an epoch received but not yet applied (02 R56, 08 R232)? -/
def epochOpen (s : State) (i id : Nat) : Bool :=
  (s.part i).tables.any fun t => t.id == id &&
    (t.contribs.any (fun c => decide (t.applied < c.epoch)) || t.ends.any fun e => decide (t.applied < e.2))

/-- Has the table an update in flight: one being sent, or received but not applied (08 R220)? -/
def tableUpdating (s : State) (i id : Nat) : Bool :=
  (cmdsOf s i .updateSubmit).any (fun c => fld c.pay 0 1 == id) || epochOpen s i id

/-! ### Objects as commands find them: not while a load of their id runs (11 R310, log 58) -/

/-- Is a load of a code under an id in progress? `kind` is byte 1 where the command has kinds. -/
def loading (s : State) (i : Nat) (c : Code) (id : Nat) (kind : Option Nat) : Bool :=
  (cmdsOf s i c).any fun x => fld x.pay 0 1 == id && match kind with
    | some k => fld x.pay 1 1 == k
    | none => true

def findModel (s : State) (i id : Nat) : Option Model :=
  if loading s i .modelSwapIn id (some 0) then none else partModel (s.part i) id

def findStore (s : State) (i id : Nat) : Option Store :=
  if loading s i .modelSwapIn id (some 1) then none else (s.part i).stores.find? fun x => x.id == id

def findIndex (s : State) (i id : Nat) : Option Index :=
  if loading s i .indexLoad id (some 0) then none else (s.part i).indexes.find? fun x => x.id == id

def findTable (s : State) (i id : Nat) : Option Table :=
  if loading s i .tableLoad id none then none else (s.part i).tables.find? fun x => x.id == id

def findTokenizer (s : State) (i id : Nat) : Option Tokenizer :=
  if loading s i .tokenizerLoad id none then none else (s.part i).tokenizers.find? fun x => x.id == id

def findGrammar (s : State) (i id : Nat) : Option Grammar :=
  if (cmdsOf s i .grammarLoad).any (fun x => fld x.pay 0 2 == id) then none
  else (s.part i).grammars.find? fun x => x.id == id

/-! ### Load payloads -/

/-- Where a load comes from: space, peer, address, and the object's length. -/
structure LoadSrc where
  id : Nat
  space : Nat
  peer : Nat
  addr : Nat
  len : Nat
  chipper : Bool
  deriving DecidableEq, Repr

/-- Source fields of a load payload (11 R309; 09 R264; 08 R220; 07 R194, R207). -/
def loadSrc (c : Code) (l : List Byte) : LoadSrc :=
  match c with
  | .tokenizerLoad => ⟨fld l 0 1, fld l 1 1, 0, fld l 8 8, fld l 4 4, false⟩
  | .grammarLoad => ⟨fld l 0 2, fld l 3 1, 0, fld l 8 8, fld l 4 4, false⟩
  | .tableLoad => ⟨fld l 0 1, fld l 1 1, 0, fld l 0x10 8, fld l 8 8, false⟩
  | .indexLoad => ⟨fld l 0 1, fld l 2 1, 0, fld l 0x10 8, fld l 8 8, bit (fld l 4 4) 0⟩
  | _ => ⟨fld l 0 1, fld l 2 1, fld l 4 2, fld l 0x10 8, fld l 8 8, false⟩

/-- T1 or HOST (06 R161). -/
def spaceForm (n : Nat) : Bool := n == 1 || n == 2

/-- Form of a load payload (11 R309; 09 R264; 08 R220; 07 R194, R207). -/
def loadForm (c : Code) (l : List Byte) : Bool :=
  let x := loadSrc c l
  x.addr % 64 == 0 &&
  match c with
  | .tokenizerLoad => has l 16 && decide (x.id ≤ 7) && spaceForm x.space && zeroAt l 2 2 &&
      decide (128 ≤ x.len ∧ x.len ≤ 0x10000000)
  | .grammarLoad => has l 16 && decide (x.id ≤ 255) && decide (fld l 2 1 ≤ 7) && spaceForm x.space &&
      decide (64 ≤ x.len ∧ x.len ≤ 0x40000000)
  | .tableLoad => has l 24 && decide (x.id ≤ 63) && spaceForm x.space && zeroAt l 2 6 && x.len % 64 == 0 &&
      decide (128 ≤ x.len ∧ x.len ≤ 0x1000000000)
  | .indexLoad => has l 24 && decide (x.id ≤ 15) && decide (fld l 1 1 ≤ 1) && spaceForm x.space && decide (fld l 3 1 ≤ 63) &&
      (fld l 1 1 == 1 || fld l 3 1 == 0) && decide (fld l 4 4 < 2) && x.len % (if x.chipper then 4096 else 64) == 0
  | _ => has l 24 && decide (x.id ≤ 15) && decide (fld l 1 1 ≤ 1) && (spaceForm x.space || x.space == 3) && zeroAt l 3 1 &&
      zeroAt l 6 2 && (x.space == 3 || x.peer == 0) && x.len % 64 == 0

/-- T1 bytes that a load takes when it begins: the object, and for a tokenizer its lookup structures (07 R194; log 56). How
many rows of a table stay here its image says, so their place is found when it has come (08 R220). -/
def loadRoom (c : Code) (l : List Byte) : Nat :=
  let x := loadSrc c l
  if c == .tokenizerLoad then 4 * x.len else if c == .tableLoad then 0 else x.len

/-- Replacement rule of 07 R194 as far as the command decides it when it is taken. -/
def replaceOk (s : State) (i : Nat) (c : Code) (l : List Byte) : Bool :=
  let p := s.part i
  let id := (loadSrc c l).id
  match c with
  | .tokenizerLoad => !p.tokenizers.any (fun x => x.id == id) || !tokenizerBusy s i id
  | .grammarLoad => !p.grammars.any (fun x => x.id == id) || !grammarBusy s i id
  | .tableLoad => !p.tables.any (fun x => x.id == id) || !(tableRead s i id || tableUpdating s i id)
  | .indexLoad =>
    if fld l 1 1 = 0 then !p.indexes.any (fun x => x.id == id) || !indexBusy s i id
    else !p.indexes.any (fun x => x.id == id && x.bitmaps.any fun b => b.1 == fld l 3 1) || !indexBusy s i id
  | _ =>
    if fld l 1 1 = 0 then !p.models.any (fun x => x.id == id) || !(inFlight s i).any fun q => ctxUsesModel q id
    else !p.stores.any (fun x => x.id == id) || !(inFlight s i).any fun q => ctxUsesIndex q id

/-- Objects a load names beside its own id. -/
def loadFound (s : State) (i : Nat) (c : Code) (l : List Byte) : Bool :=
  match c with
  | .grammarLoad => (findTokenizer s i (fld l 2 1)).isSome
  | .indexLoad => fld l 1 1 == 0 || match findIndex s i (fld l 0 1) with
    | some x => !x.isMap
    | none => false
  | _ => true

/-- Legal partition states of the load commands (02 R57). -/
def loadState (st : PState) : Bool := st == .bound || st == .loaded || st == .serving

/-- Checks of a load when it is taken (02 R51). -/
def loadNeed (s : State) (c : Code) (r : Req) : Need :=
  let i := reqPid s r
  let st := (reqPart s r).state
  { form := loadForm c r.pay
    state := loadState st && replaceOk s i c r.pay
    found := loadFound s i c r.pay
    room := if c == .modelSwapIn && fld r.pay 1 1 == 0 && (partStands s i).isEmpty then some .noSpace
      else if (t1PlaceObject s i (loadRoom c r.pay)).isNone then some .noSpace else none
    detail := 0
    stateDetail := if loadState st then (loadSrc c r.pay).id else 0 }

/-- A load begins (11 R311 step 1): frames are reserved and the fill starts. A source outside the T1 share is a protection
violation (05 R144); a host or peer that cannot be reached fails it (15 R491). A bitmap load takes its place among the
changes of its shard (09 R255). -/
def loadStart (c : Code) (i t : Nat) (l : List Byte) (s : State) : State :=
  let x := loadSrc c l
  match t1PlaceObject s i (loadRoom c l) with
  | none => finishPlain s t .noSpace 0
  | some (frame, n) =>
    let stored := if x.chipper then 8 * (x.len / 4096) else x.len
    if x.space = 1 && !t1Ok (s.part i).frames x.addr stored then protection s i
    else
      let s1 := s.modPart i fun p => { p with reserved := p.reserved ++ [(t, frame, n)] }
      let res : Residence := ⟨x.space, x.peer, x.addr, frame, n, x.len, x.chipper, false⟩
      let s2 := if c == .indexLoad && fld l 1 1 == 1 then
          s1.modPart i fun p => { p with changes := p.changes ++ [⟨t, x.id, .bitmapLoad (fld l 3 1) x.chipper res none, p.stepsFormed, false⟩] }
        else s1
      let r := startFill s2 i x.space x.peer x.addr stored (.load t)
      if r.2 then r.1
      else finishPlain (r.1.modPart i fun p => { p with
        reserved := p.reserved.filter fun e => e.1 != t, changes := p.changes.filter fun e => e.ticket != t }) t .fault 0

/-- A load command (02 R51, 11 R309). -/
def cmdLoad (c : Code) (r : Req) (t : Nat) (s : State) : State :=
  runCmd c (pairPart s r) (loadNeed s c r) (fun t s => loadStart c (reqPid s r) t r.pay s) r t s

/-! ### The commands -/

def cmdModelSwapIn (r : Req) (t : Nat) (s : State) : State := cmdLoad .modelSwapIn r t s
def cmdIndexLoad (r : Req) (t : Nat) (s : State) : State := cmdLoad .indexLoad r t s
def cmdTableLoad (r : Req) (t : Nat) (s : State) : State := cmdLoad .tableLoad r t s
def cmdTokenizerLoad (r : Req) (t : Nat) (s : State) : State := cmdLoad .tokenizerLoad r t s
def cmdGrammarLoad (r : Req) (t : Nat) (s : State) : State := cmdLoad .grammarLoad r t s

/-- MODEL_SWAP_IN (11 R309). -/
def execModelSwapIn (r : Req) (s : State) : Host.Outcome State Fault Refusal := live s (enter .modelSwapIn cmdModelSwapIn r s)
/-- INDEX_LOAD (09 R264). -/
def execIndexLoad (r : Req) (s : State) : Host.Outcome State Fault Refusal := live s (enter .indexLoad cmdIndexLoad r s)
/-- TABLE_LOAD (08 R220). -/
def execTableLoad (r : Req) (s : State) : Host.Outcome State Fault Refusal := live s (enter .tableLoad cmdTableLoad r s)
/-- TOKENIZER_LOAD (07 R194). -/
def execTokenizerLoad (r : Req) (s : State) : Host.Outcome State Fault Refusal :=
  live s (enter .tokenizerLoad cmdTokenizerLoad r s)
/-- GRAMMAR_LOAD (07 R207). -/
def execGrammarLoad (r : Req) (s : State) : Host.Outcome State Fault Refusal := live s (enter .grammarLoad cmdGrammarLoad r s)

/-! ### Arrival of a load's bytes -/

/-- A table's row-cache entries are emptied (02 R56, 08 R220). -/
def flushCache (p : Partition) (table : Nat) : Partition :=
  { p with cache := { p.cache with
      ways := p.cache.ways.filter fun w => cacheKeyTable w.key != table
      candidates := p.cache.candidates.filter fun c => cacheKeyTable c.2.1 != table } }

/-- What the check of a loaded object's bytes finds: a failing status with its Detail, or the partition with it. -/
abbrev LoadResult := Except (Status × Nat) Partition

def loadModel (s : State) (i id : Nat) (l : List Byte) (res : Residence) : LoadResult :=
  let p := s.part i
  let m := modelParse l id res
  if !modelOk l res.len then .error (.invalid, 0)
  else match findTokenizer s i m.tokenizer with
    | none => .error (.notFound, 0)
    | some t =>
      if !modelFits m t then .error (.invalid, 0)
      else if !modelRoom p.runs m l then .error (.noSpace, 0)
      else .ok { p with models := p.models.filter (fun x => x.id != id) ++ [m] }

def loadStore (s : State) (i id : Nat) (l : List Byte) (res : Residence) : LoadResult :=
  let p := s.part i
  if storeOk l res.len id then .ok { p with stores := p.stores.filter (fun x => x.id != id) ++ [storeParse l id res] }
  else .error (.invalid, 0)

/-- Own length of an index image that was a Chipper object (02 R487). -/
def indexOwnLen (l : List Byte) (chipper : Bool) (len : Nat) : Nat :=
  let own := fld l 0x68 8
  if chipper && decide (len - 4095 ≤ own ∧ own ≤ len) then own else len

def loadIndex (s : State) (i id : Nat) (chipper : Bool) (l : List Byte) (res : Residence) : LoadResult :=
  let p := s.part i
  if indexOk l (indexOwnLen l chipper res.len) s.myId.toNat then
    .ok { p with indexes := p.indexes.filter (fun x => x.id != id) ++ [indexParse l id res] }
  else .error (.invalid, 0)

def loadTable (s : State) (i id : Nat) (l : List Byte) (res : Residence) : LoadResult :=
  let p := s.part i
  if tableOk l l.length s.myId.toNat then
    .ok (flushCache { p with tables := p.tables.filter (fun x => x.id != id) ++ [tableParse l id res] } id)
  else .error (.invalid, 0)

/-- The second condition of 07 R194: a grammar that names the tokenizer with a different VocabSize keeps it. -/
def loadTokenizer (s : State) (i id : Nat) (l : List Byte) (res : Residence) : LoadResult :=
  let p := s.part i
  let t := tokenizerParse l id res
  if !tokenizerOk l res.len then .error (.invalid, 0)
  else if p.tokenizers.any (fun x => x.id == id) &&
      p.grammars.any (fun g => g.tokenizer == id && g.vocab != t.vocab.length) then .error (.wrongState, id)
  else .ok { p with tokenizers := p.tokenizers.filter (fun x => x.id != id) ++ [t] }

def loadGrammar (s : State) (i id tok : Nat) (l : List Byte) (res : Residence) : LoadResult :=
  let p := s.part i
  match findTokenizer s i tok with
  | none => .error (.notFound, 0)
  | some t =>
    if grammarOk l res.len t then .ok { p with grammars := p.grammars.filter (fun x => x.id != id) ++ [grammarParse l id tok res] }
    else .error (.invalid, 0)

/-- The object of a load whose bytes have arrived, decoded where it came as a Chipper object. The replacement rule holds when
the object replaces the old one too: a request may have come to use it meanwhile (07 R194). -/
def loadObject (s : State) (i : Nat) (c : Code) (pay : List Byte) (l : List Byte) (res : Residence) : LoadResult :=
  let id := (loadSrc c pay).id
  if !replaceOk s i c pay then .error (.wrongState, id) else
  match c with
  | .modelSwapIn => if fld pay 1 1 = 0 then loadModel s i id l res else loadStore s i id l res
  | .indexLoad => loadIndex s i id (loadSrc c pay).chipper l res
  | .tableLoad => loadTable s i id l res
  | .tokenizerLoad => loadTokenizer s i id l res
  | _ => loadGrammar s i id (fld pay 2 1) l res

/-- Objects that count in the digest (12 R329). -/
def inDigest (c : Code) : Bool := c == .modelSwapIn || c == .indexLoad

/-- The first object of a BOUND partition makes it LOADED (02 R54, R55). The state moves before the load's final record is formed,
which shows the new one, whether or not the ring has room: DESIGN CHOICE, R54 says only 'at the final record' (log 103). -/
def contentIn (s : State) (i : Nat) : State :=
  if (s.part i).state == .bound then s.modPart i fun p => { p with state := loadedOr p } else s

/-- A failed load leaves nothing behind. -/
def loadFail (s : State) (i t : Nat) (st : Status) (detail : Nat) : State :=
  finishPlain (s.modPart i fun p => { p with
    reserved := p.reserved.filter fun e => e.1 != t, changes := p.changes.filter fun e => e.ticket != t }) t st detail

/-- What T1 keeps of an object's bytes: of a table its rows (08 R220), of any other all of it. -/
def keptBytes (s : State) (c : Code) (l : List Byte) (res : Residence) : List Byte :=
  if c == .tableLoad then (tableParse l 0 res).rowsIn s.myId.toNat l else l

/-- The bytes of a load have all arrived (11 R310, R311): they are checked, stored in the reserved frames, and the object is
in place; its final record follows. A bitmap waits for its turn among the changes (09 R255). -/
def loadArrive (s : State) (t : Nat) (bytes : List Byte) : State :=
  match s.cmd? t with
  | none => s
  | some c =>
    let i := c.part.getD 0
    let x := loadSrc c.code c.pay
    match (s.part i).reserved.find? fun e => e.1 == t with
    | none => s
    | some (_, frame, n) =>
      let raw := if x.chipper then chipBlocks (fun a k => bytesAt bytes a k) (x.len / 4096) 0 (x.len / 4096)
        else some (bytesAt bytes 0 x.len)
      let res : Residence := ⟨x.space, x.peer, x.addr, frame, n, x.len, x.chipper, false⟩
      match raw with
      | none => loadFail s i t .invalid 0
      | some l =>
        if c.code == .indexLoad && fld c.pay 1 1 == 1 then
          s.modPart i fun p => { p with changes := p.changes.map fun e =>
            if e.ticket = t then { e with kind := .bitmapLoad (fld c.pay 3 1) x.chipper res (some l) } else e }
        else
          let kept := keptBytes s c.code l res
          let place := if c.code == .tableLoad then t1PlaceObject s i kept.length else some (frame, n)
          let at_ := place.getD (0, 0)
          match loadObject s i c.code c.pay l { res with frame := at_.1, frames := at_.2, len := kept.length } with
          | .error (st, d) => loadFail s i t st d
          | .ok p =>
            if place.isNone then loadFail s i t .noSpace 0
            else
              let p' := { p with reserved := p.reserved.filter fun e => e.1 != t }
              let s1 := (s.modPart i fun _ => p').t1Store i (at_.1 * frameBytes) kept
              let s2 := if inDigest c.code then formDigest s1 i else s1
              finishPlain (contentIn s2 i) t .ok x.id

/-! ### Removal -/

/-- The removal of the last object takes a LOADED partition to BOUND (02 R54, R55), before the final record is formed (DESIGN
CHOICE, log 103). -/
def contentOut (s : State) (i : Nat) : State :=
  if (s.part i).state == .loaded then s.modPart i fun p => { p with state := loadedOr p } else s

/-- Legal partition states of the unload commands (02 R57). -/
def unloadState (st : PState) : Bool := st == .loaded || st == .serving

/-- MODEL_SWAP_OUT (11 R311). -/
def cmdModelSwapOut (r : Req) (t : Nat) (s : State) : State :=
  let i := reqPid s r
  let id := fld r.pay 0 1
  let isModel := fld r.pay 1 1 == 0
  let used := (inFlight s i).any fun c => if isModel then ctxUsesModel c id else ctxUsesIndex c id
  runCmd .modelSwapOut (pairPart s r)
    { Need.pass with
      form := has r.pay 8 && decide (id ≤ 15) && decide (fld r.pay 1 1 ≤ 1) && zeroAt r.pay 2 6
      state := unloadState (reqPart s r).state && !used
      found := if isModel then (findModel s i id).isSome else (findStore s i id).isSome }
    (fun t s =>
      let s1 := s.modPart i fun p => if isModel then { p with models := p.models.filter fun m => m.id != id }
        else { p with stores := p.stores.filter fun m => m.id != id }
      finishPlain (contentOut (formDigest s1 i) i) t .ok id) r t s

def execModelSwapOut (r : Req) (s : State) : Host.Outcome State Fault Refusal := live s (enter .modelSwapOut cmdModelSwapOut r s)

/-- INDEX_UNLOAD (09 R265): an image goes at once, a bitmap as a change. -/
def cmdIndexUnload (r : Req) (t : Nat) (s : State) : State :=
  let i := reqPid s r
  let id := fld r.pay 0 1
  let image := fld r.pay 1 1 == 0
  let b := fld r.pay 2 1
  runCmd .indexUnload (pairPart s r)
    { Need.pass with
      form := has r.pay 8 && decide (id ≤ 15) && decide (fld r.pay 1 1 ≤ 1) && decide (b ≤ 63) && (!image || b == 0) &&
        zeroAt r.pay 3 5
      state := unloadState (reqPart s r).state && !(image && indexBusy s i id)
      found := match findIndex s i id with
        | some x => image || x.bitmaps.any fun e => e.1 == b
        | none => false }
    (fun t s =>
      if image then
        let s1 := s.modPart i fun p => { p with indexes := p.indexes.filter fun x => x.id != id }
        finishPlain (contentOut (formDigest s1 i) i) t .ok id
      else s.modPart i fun p => { p with changes := p.changes ++ [⟨t, id, .bitmapUnload b, p.stepsFormed, false⟩] }) r t s

def execIndexUnload (r : Req) (s : State) : Host.Outcome State Fault Refusal := live s (enter .indexUnload cmdIndexUnload r s)

/-- Is the object of a CONTENT_UNLOAD in use (02 R56)? -/
def unloadBusy (s : State) (i kind id : Nat) : Bool :=
  let p := s.part i
  match kind with
  | 0 => p.models.any (fun m => m.tokenizer == id) || p.grammars.any (fun g => g.tokenizer == id) || tokenizerBusy s i id
  | 1 => grammarBusy s i id
  | _ => p.models.any (fun m => m.groups.any fun g => g.gatherTable == id) || tableRead s i id || epochOpen s i id

/-- CONTENT_UNLOAD (02 R56). An object that is not loaded completes with ST_NOT_FOUND whatever names its id. -/
def cmdContentUnload (r : Req) (t : Nat) (s : State) : State :=
  let i := reqPid s r
  let kind := fld r.pay 0 1
  let id := fld r.pay 1 1
  let there := match kind with
    | 0 => (findTokenizer s i id).isSome
    | 1 => (findGrammar s i id).isSome
    | _ => (findTable s i id).isSome
  runCmd .contentUnload (pairPart s r)
    { Need.pass with
      form := has r.pay 8 && decide (kind ≤ 2) && decide (id ≤ if kind = 0 then 7 else if kind = 1 then 255 else 63) &&
        zeroAt r.pay 2 6
      state := unloadState (reqPart s r).state && !(there && unloadBusy s i kind id)
      found := there }
    (fun t s =>
      let s1 := s.modPart i fun p => match kind with
        | 0 => { p with tokenizers := p.tokenizers.filter fun x => x.id != id }
        | 1 => { p with grammars := p.grammars.filter fun x => x.id != id }
        | _ => flushCache { p with tables := p.tables.filter fun x => x.id != id } id
      finishPlain (contentOut s1 i) t .ok id) r t s

def execContentUnload (r : Req) (s : State) : Host.Outcome State Fault Refusal := live s (enter .contentUnload cmdContentUnload r s)

end Sys2Proof.Machine
end

