-- ==== Sys2Proof/Machine/Sawmill.lean ====
section
/-! DEFINITION. TOKENIZE_SUBMIT and DETOKENIZE_SUBMIT (07 R195, R196, R213). Their work is a piece for a Sawmill lane; its
result is formed when the lane has finished it (log 31). -/

namespace Sys2Proof.Machine

/-- A loaded tokenizer of a partition. -/
def partTokenizer (p : Partition) (id : Nat) : Option Tokenizer := p.tokenizers.find? fun x => x.id == id

def partGrammar (p : Partition) (id : Nat) : Option Grammar := p.grammars.find? fun x => x.id == id

/-- Form of an engine command's flag of priority is the header's (02 R37); engine commands run in SERVING (02 R57). -/
def engineState (s : State) (r : Req) : Bool := (reqPart s r).state == .serving

/-! ### TOKENIZE_SUBMIT -/

/-- Text bytes of each segment (07 R195). -/
def tokSegments (l : List Byte) : List (List Byte) :=
  (List.range (fld l 2 2)).map fun k =>
    bytesAt l (fld l 8 4 + fld l (0x10 + 8 * k) 4) (fld l (0x14 + 8 * k) 4)

/-- Form of TOKENIZE_SUBMIT (07 R182, R195). -/
def tokForm (l : List Byte) : Bool :=
  let n := fld l 2 2
  let ts := fld l 8 4
  let mt := fld l 4 4
  has l 0x10 && decide (fld l 0 1 ≤ 7) && decide (fld l 1 1 < 8) && decide (1 ≤ n ∧ n ≤ 4096) &&
  decide (1 ≤ mt ∧ mt ≤ 1048576) && zeroAt l 0xC 4 && ts % 8 == 0 && decide (0x10 + 8 * n ≤ ts ∧ ts ≤ l.length) &&
  (List.range n).all (fun k => decide (ts + fld l (0x10 + 8 * k) 4 + fld l (0x14 + 8 * k) 4 ≤ l.length)) &&
  (!bit (fld l 1 1) 2 || (tokSegments l).all utf8Valid)

/-- Records of each segment: index of its first token, TRUNC and count (07 R196). -/
def segResults : Nat → List (List Nat × Bool) → List Byte
  | _, [] => []
  | at_, (ts, tr) :: r =>
    leBytes 4 at_ ++ leBytes 4 (ts.length + if tr then 2 ^ 31 else 0) ++ segResults (at_ + ts.length) r

/-- What the lanes make of a TOKENIZE_SUBMIT. -/
structure TokWork where
  segs : List (List Nat × Bool)
  repaired : Nat
  cuts : Nat
  bytes : Nat

def tokWork (t : Tokenizer) (l : List Byte) : TokWork :=
  let fl := fld l 1 1
  let ws := (tokSegments l).map fun x => (tokenizeText t x, x.length)
  { segs := ws.map fun w => limitTokens (if bit fl 0 then t.bos else none) (if bit fl 1 then t.eos else none) (fld l 4 4) w.1.tokens
    repaired := (ws.map fun w => w.1.repaired).sum
    cuts := (ws.map fun w => w.1.cuts).sum
    bytes := (ws.map fun w => w.2).sum }

def TokWork.total (w : TokWork) : Nat := (w.segs.map fun x => x.1.length).sum

/-- Result payload (07 R196). -/
def tokResult (w : TokWork) : List Byte :=
  leBytes 4 w.total ++ leBytes 4 w.segs.length ++ leBytes 4 w.repaired ++ leBytes 4 0 ++ segResults 0 w.segs ++
    (w.segs.flatMap fun x => x.1).flatMap (leBytes 4)

/-- Counters of tokenised text (07 R214). -/
def countText (s : State) (i bytes tokens repaired cuts : Nat) : State :=
  bump (bump (bump (bump s .sawInBytes i 0 bytes) .sawTokens i 0 tokens) .sawRepair i 0 repaired) .sawPieceCut i 0 cuts

/-- A lane has finished a TOKENIZE_SUBMIT. -/
def tokenizeDone (t : Nat) (s : State) : State :=
  match s.cmd? t with
  | none => s
  | some c =>
    let i := c.part.getD 0
    match partTokenizer (s.part i) (fld c.pay 0 1) with
    | none => finishPlain s t .fault 0
    | some tk =>
      let w := tokWork tk c.pay
      finish (countText s i w.bytes w.total w.repaired w.cuts) t .ok (w32 w.total) (some (tokResult w))

/-- A damaged object ends a command that names it with ST_FAULT (15 R417). -/
def unlessDamaged (damaged : Bool) (eff : Nat → State → State) (t : Nat) (s : State) : State :=
  if damaged then finishPlain s t .fault 0 else eff t s

def cmdTokenizeSubmit (r : Req) (t : Nat) (s : State) : State :=
  let i := reqPid s r
  let tk := findTokenizer s i (fld r.pay 0 1)
  runCmd .tokenizeSubmit (pairPart s r)
    { Need.pass with form := tokForm r.pay, state := engineState s r, found := tk.isSome }
    (unlessDamaged ((tk.map (·.res.damaged)).getD false) fun t s => queueJob s i t none .tokenize) r t s

/-- TOKENIZE_SUBMIT (07 R195). -/
def execTokenizeSubmit (r : Req) (s : State) : Host.Outcome State Fault Refusal :=
  live s (enter .tokenizeSubmit cmdTokenizeSubmit r s)

/-! ### DETOKENIZE_SUBMIT -/

/-- Options of a DETOKENIZE_SUBMIT. -/
def detokOptions (l : List Byte) : TextOptions :=
  if bit (fld l 1 1) 0 then optionsParse (l.drop (fld l 8 4)) else TextOptions.plain

/-- Form of DETOKENIZE_SUBMIT that needs no object (07 R201, R213). -/
def detokForm (l : List Byte) : Bool :=
  let n := fld l 4 4
  let o := fld l 8 4
  has l 0x10 && decide (fld l 0 1 ≤ 7) && decide (fld l 1 1 < 2) && zeroAt l 2 2 && decide (1 ≤ n ∧ n ≤ 1048576) &&
  zeroAt l 0xC 4 && has l (0x10 + 4 * n) && (if bit (fld l 1 1) 0 then o % 8 == 0 && optionsForm (l.drop o) else o == 0)

/-- Rules that need the tokenizer and the grammar (07 R201, R213; a grammar of another tokenizer by 11 R314, log 60). -/
def detokFits (s : State) (i : Nat) (l : List Byte) : Bool :=
  let o := detokOptions l
  let g := o.grammar.bind (findGrammar s i)
  optionsGrammarOk o g && (match g with
    | some g => g.tokenizer == fld l 0 1
    | none => true) &&
  match findTokenizer s i (fld l 0 1) with
  | some t => (fldList l 0x10 4 (fld l 4 4)).all fun x => decide (x < t.vocab.length)
  | none => true

/-- Where a DETOKENIZE_SUBMIT stands: Planer, Teasel state, tokens taken, how it ended, dead states entered. -/
structure Detok where
  planer : PlanerSt
  gstate : Nat
  taken : Nat
  reason : Option Reason
  dead : Nat

/-- The tokens one after another (07 R213). -/
def detokGo (t : Tokenizer) (g : Option Grammar) (o : TextOptions) : Detok → List Nat → Detok
  | d, [] => d
  | d, tok :: rest =>
    if d.reason.isSome then d else
      let refused := match g with
        | some g => !g.allows t.eos d.gstate tok
        | none => false
      if refused then
        { d with planer := planerFlush none d.planer, reason := some (if o.forceEos then .grammarEos else .grammarDead) }
      else
        let e := takeToken t g o none tok (d.taken == 0) d.planer d.gstate
        detokGo t g o { planer := e.planer, gstate := e.gstate, taken := d.taken + 1, reason := e.reason,
                        dead := d.dead + boolNat e.deadEntered } rest

/-- A DETOKENIZE_SUBMIT from its start; text still held when every token has been taken is released (07 R200). -/
def detokRun (t : Tokenizer) (g : Option Grammar) (o : TextOptions) (start : Nat) (toks : List Nat) : Detok :=
  let d := detokGo t g o ⟨⟨[], [], 0, false⟩, start, 0, none, 0⟩ toks
  match d.reason with
  | some _ => d
  | none => { d with planer := planerFlush none d.planer, reason := some .done }

/-- Result payload (07 R213). -/
def detokResult (d : Detok) (hasG : Bool) : List Byte :=
  leBytes 4 d.planer.text.length ++ leBytes 4 d.taken ++ [b8 (d.reason.getD .done).code] ++ [b8 (boolNat hasG)] ++
    leBytes 2 (if hasG then d.gstate else 0) ++ leBytes 4 0 ++ d.planer.text

/-- A lane has finished a DETOKENIZE_SUBMIT. -/
def detokenizeDone (t : Nat) (s : State) : State :=
  match s.cmd? t with
  | none => s
  | some c =>
    let i := c.part.getD 0
    let o := detokOptions c.pay
    let g := o.grammar.bind (partGrammar (s.part i))
    match partTokenizer (s.part i) (fld c.pay 0 1) with
    | none => finishPlain s t .fault 0
    | some tk =>
      let d := detokRun tk g o (startState (s.part i) o) (fldList c.pay 0x10 4 (fld c.pay 4 4))
      let s1 := bump (bump s .planerRepair i 0 d.planer.repaired) .teaselDead i 0 d.dead
      finish s1 t .ok (w32 d.taken) (some (detokResult d g.isSome))

def cmdDetokenizeSubmit (r : Req) (t : Nat) (s : State) : State :=
  let i := reqPid s r
  let tk := findTokenizer s i (fld r.pay 0 1)
  let o := detokOptions r.pay
  let g := o.grammar.bind (findGrammar s i)
  runCmd .detokenizeSubmit (pairPart s r)
    { Need.pass with
      form := detokForm r.pay && detokFits s i r.pay, state := engineState s r
      found := tk.isSome && (o.grammar.isNone || g.isSome) }
    (unlessDamaged ((tk.map (·.res.damaged)).getD false || (g.map (·.res.damaged)).getD false)
      fun t s => queueJob s i t none .detokenize) r t s

/-- DETOKENIZE_SUBMIT (07 R213). -/
def execDetokenizeSubmit (r : Req) (s : State) : Host.Outcome State Fault Refusal :=
  live s (enter .detokenizeSubmit cmdDetokenizeSubmit r s)

end Sys2Proof.Machine
end

