-- ==== Sys2Proof/Machine/Tally.lean ====
section
/-! DEFINITION. The Tally: the selection order (10 R271), SELECT and MERGE (R273 to R278), TALLY_SUBMIT (R282 to R284). -/

namespace Sys2Proof.Machine

/-! ### Ranking -/

/-- Insert before the first element that `a` ranks before. -/
def rankInsert {α : Type} (before : α → α → Bool) (a : α) : List α → List α
  | [] => [a]
  | b :: r => if before a b then a :: b :: r else b :: rankInsert before a r

/-- A list in rank order; equals keep their order. -/
def rankSort {α : Type} (before : α → α → Bool) (l : List α) : List α :=
  l.foldl (fun acc a => rankInsert before a acc) []

/-- The selection order on values and positions (10 R271). -/
def tallyBefore (a b : W32 × Nat) : Bool :=
  decide (selKey b.1 < selKey a.1) || (selKey a.1 == selKey b.1 && decide (a.2 < b.2))

/-- Level 1 sum in list order from +0 (10 R275). -/
def sumUp (l : List W32) : W32 := l.foldl add32 0

/-- What a row yields: the selected values with their positions in rank order, both sums, and NAN_SEEN (10 R273 to R275). -/
structure RowOut where
  sel : List (W32 × Nat)
  selSum : W32
  leftSum : W32
  nan : Bool
  deriving DecidableEq, Repr

/-- SELECT of values with their positions, positions ascending (10 R273). -/
def selectAt (vs : List (W32 × Nat)) (k : Nat) : RowOut :=
  let sel := (rankSort tallyBefore vs).take k
  let chosen := fun (x : W32 × Nat) => sel.any fun y => y.2 == x.2
  { sel, selSum := sumUp ((vs.filter chosen).map (·.1)), leftSum := sumUp ((vs.filter fun x => !chosen x).map (·.1)),
    nan := vs.any fun x => isNan32 x.1 }

/-- SELECT of a row (10 R273). -/
def selectRow (v : List W32) (k : Nat) : RowOut := selectAt v.zipIdx k

/-- A value as results write it (10 R274). -/
def outValue (w : W32) : W32 := if isNan32 w then nan32 else w

/-! ### MERGE -/

/-- The reserved ItemId of an empty entry (10 R276). -/
def emptyId : W64 := 0xFFFFFFFFFFFFFFFF

/-- An empty entry of a result (09 R250, 10 R278). -/
def emptyEntry : Entry := ⟨infNeg, 0xFF, 0, emptyId⟩

/-- The winning copy of each ItemId with its position, and the copies removed (10 R277). -/
def mergeWinners (e : List (Entry × Nat)) : List (Entry × Nat) × Nat :=
  e.foldl (fun (acc : List (Entry × Nat) × Nat) x =>
    if x.1.id = emptyId then acc
    else match acc.1.find? fun w => w.1.id == x.1.id with
      | none => (acc.1 ++ [x], acc.2)
      | some w =>
        if tallyBefore (x.1.score, x.2) (w.1.score, w.2) then (acc.1.filter (fun y => y.1.id != x.1.id) ++ [x], acc.2 + 1)
        else (acc.1, acc.2 + 1)) ([], 0)

/-- What a MERGE row yields (10 R277, R278). -/
structure MergeOut where
  entries : List Entry
  dups : Nat
  selSum : W32
  leftSum : W32
  nan : Bool
  deriving DecidableEq, Repr

/-- MERGE of lists taken in list index order (10 R276, R277): the valid entries in rank order. -/
def mergeLists (lists : List (List Entry)) (k : Nat) : MergeOut :=
  let w := mergeWinners lists.flatten.zipIdx
  let pos := rankSort (fun (a b : Entry × Nat) => decide (a.2 < b.2)) w.1
  let r := selectAt (pos.map fun x => (x.1.score, x.2)) k
  { entries := r.sel.filterMap fun x => (pos.find? fun y => y.2 == x.2).map fun y => { y.1 with score := outValue y.1.score }
    dups := w.2, selSum := r.selSum, leftSum := r.leftSum, nan := r.nan }

/-! ### TALLY_SUBMIT -/

/-- Bytes of an entry (09 R267). -/
def entryBytes (e : Entry) : List Byte := leBytes 4 e.score.toNat ++ [e.tag, e.flags, 0, 0] ++ leBytes 8 e.id.toNat

/-- Entry at an offset (09 R267, 10 R276). -/
def tallyEntry (l : List Byte) (o : Nat) : Entry := ⟨w32 (fld l o 4), b8 (fld l (o + 4) 1), b8 (fld l (o + 5) 1), w64 (fld l (o + 8) 8)⟩

def tallyMerge (l : List Byte) : Bool := fld l 0 1 == 1
def tallyRows (l : List Byte) : Nat := fld l 8 4
def tallyRowLen (l : List Byte) : Nat := fld l 0xC 4

/-- Directory record of list `j` of row `r`: offset and count (10 R283). -/
def tallyDir (l : List Byte) (r j : Nat) : Nat × Nat :=
  let o := fld l 0x10 4 + 8 * (r * tallyRowLen l + j)
  (fld l o 4, fld l (o + 4) 4)

def tallyLists (l : List Byte) (r : Nat) : List (List Entry) :=
  (List.range (tallyRowLen l)).map fun j =>
    let d := tallyDir l r j
    (List.range d.2).map fun k => tallyEntry l (d.1 + 16 * k)

/-- Values of row `r` of a SELECT (10 R273, R282). -/
def tallyValues (l : List Byte) (r : Nat) : List W32 :=
  let n := if bit (fld l 2 1) 0 then fld l (fld l 0x14 4 + 4 * r) 4 else tallyRowLen l
  let bf := fld l 1 1 == 1
  let size := if bf then 2 else 4
  let o := fld l 0x10 4 + size * tallyRowLen l * r
  (fldList l o size n).map fun x => if bf then widen (w16 x) else w32 x

/-- Form of TALLY_SUBMIT (10 R282, R283). -/
def tallyForm (l : List Byte) : Bool :=
  let merge := tallyMerge l
  let rows := tallyRows l
  let n := tallyRowLen l
  let ds := fld l 0x10 4
  let ls := fld l 0x14 4
  let lens := bit (fld l 2 1) 0
  has l 32 && decide (fld l 0 1 ≤ 1) && decide (fld l 2 1 < 2) && zeroAt l 3 1 && decide (1 ≤ fld l 4 2 ∧ fld l 4 2 ≤ 4096) &&
  zeroAt l 6 2 && zeroAt l 0x18 8 && decide (1 ≤ rows) && decide (1 ≤ n) && ds % 8 == 0 &&
  if merge then
    fld l 1 1 == 0 && !lens && ls == 0 && decide (rows ≤ 64) && decide (n ≤ 256) && has l (ds + 8 * rows * n) &&
    (List.range rows).all fun r =>
      let ds := (List.range n).map (tallyDir l r)
      ds.all (fun d => d.1 % 8 == 0 && decide (d.2 ≤ 65536) && has l (d.1 + 16 * d.2)) &&
      decide ((ds.map (·.2)).sum ≤ 1048576)
  else
    (fld l 1 1 == 1 || fld l 1 1 == 2) && decide (rows ≤ 4096) && decide (n ≤ 1048576) &&
    has l (ds + rows * n * (if fld l 1 1 == 1 then 2 else 4)) &&
    if lens then ls % 8 == 0 && has l (ls + 4 * rows) && (List.range rows).all fun r => decide (fld l (ls + 4 * r) 4 ≤ n)
    else ls == 0

/-- Row record (10 R284). -/
def rowRecord (count : Nat) (nan : Bool) (dups : Nat) (ss ls : W32) : List Byte :=
  leBytes 2 count ++ leBytes 2 (boolNat (decide (0 < dups)) + 2 * boolNat nan) ++ leBytes 4 dups ++ leBytes 4 ss.toNat ++
    leBytes 4 ls.toNat

def selectBlock (o : RowOut) (k : Nat) : List Byte :=
  rowRecord o.sel.length o.nan 0 o.selSum o.leftSum ++
    (o.sel.flatMap fun x => leBytes 4 (outValue x.1).toNat ++ leBytes 4 x.2) ++
    (List.replicate (k - o.sel.length) (leBytes 4 0xFF800000 ++ leBytes 4 0xFFFFFFFF)).flatten

def mergeBlock (o : MergeOut) (k : Nat) : List Byte :=
  rowRecord o.entries.length o.nan o.dups o.selSum o.leftSum ++ (o.entries.flatMap entryBytes) ++
    (List.replicate (k - o.entries.length) (entryBytes emptyEntry)).flatten

/-- Counters of finished rows (10 R285). -/
def countRows (s : State) (i rows elems dups nans : Nat) : State :=
  bump (bump (bump (bump s .tallyRows i 0 rows) .tallyElems i 0 elems) .tallyDups i 0 dups) .tallyNan i 0 nans

/-- A pipeline has finished a TALLY_SUBMIT (10 R282, R284). -/
def tallyDone (t : Nat) (s : State) : State :=
  match s.cmd? t with
  | none => s
  | some c =>
    let i := c.part.getD 0
    let l := c.pay
    let k := fld l 4 2
    let rows := List.range (tallyRows l)
    let head := leBytes 2 (fld l 0 1) ++ leBytes 2 k ++ leBytes 4 (tallyRows l)
    if tallyMerge l then
      let ins := rows.map (tallyLists l)
      let outs := ins.map fun x => mergeLists x k
      let s1 := countRows s i rows.length (ins.map fun x => x.flatten.length).sum (outs.map (·.dups)).sum (outs.countP (·.nan))
      finish s1 t .ok (w32 (outs.map fun o => o.entries.length).sum)
        (some (head ++ leBytes 4 16 ++ leBytes 4 0 ++ outs.flatMap fun o => mergeBlock o k))
    else
      let ins := rows.map (tallyValues l)
      let outs := ins.map fun x => selectRow x k
      let s1 := countRows s i rows.length (ins.map (·.length)).sum 0 (outs.countP (·.nan))
      finish s1 t .ok (w32 (outs.map fun o => o.sel.length).sum)
        (some (head ++ leBytes 4 8 ++ leBytes 4 0 ++ outs.flatMap fun o => selectBlock o k))

/-- Length of the result of a TALLY_SUBMIT (10 R284). -/
def tallySize (l : List Byte) : Nat := 16 + tallyRows l * (16 + fld l 4 2 * if tallyMerge l then 16 else 8)

def cmdTallySubmit (r : Req) (t : Nat) (s : State) : State :=
  runCmd .tallySubmit (pairPart s r) { Need.pass with
      form := tallyForm r.pay, state := engineState s r
      room := if resBytes (s.pair r.pair) < tallySize r.pay then some .noSpace else none }
    (fun t s => queueJob s (reqPid s r) t none .tally) r t s

/-- TALLY_SUBMIT (10 R282). -/
def execTallySubmit (r : Req) (s : State) : Host.Outcome State Fault Refusal := live s (enter .tallySubmit cmdTallySubmit r s)

end Sys2Proof.Machine
end

