-- ==== Sys2Proof/Machine/Yarder.lean ====
section
/-! DEFINITION. Gathers and updates: GATHER_SUBMIT (08 R221 to R229), the gathers of launches (11 R306), UPDATE_SUBMIT and the
application of epochs (R231 to R235), PEER_GATHER and PEER_UPDATE, and the halving of the row cache's counts (R230). -/

namespace Sys2Proof.Machine

/-! ### GATHER_SUBMIT -/

def gatherOcc (l : List Byte) : Nat := fld l 4 4
def gatherIdx (l : List Byte) : List Nat := fldList l (fld l 0x10 4) 8 (gatherOcc l)
def gatherPool (l : List Byte) : Nat := fld l 1 1
def gatherWeighted (l : List Byte) : Bool := bit (fld l 3 1) 0

/-- Bag boundaries; without pooling each occurrence is a bag of one (08 R225). -/
def gatherBounds (l : List Byte) : List Nat :=
  if gatherPool l = 0 then List.range (gatherOcc l + 1) else fldList l (fld l 0x14 4) 4 (fld l 8 4 + 1)

def nonDecreasing : List Nat → Bool
  | a :: b :: r => decide (a ≤ b) && nonDecreasing (b :: r)
  | _ => true

/-- Form of GATHER_SUBMIT that needs no table (08 R227). -/
def gatherForm (l : List Byte) : Bool :=
  let n := gatherOcc l
  let pool := gatherPool l
  let bags := fld l 8 4
  let bs := fld l 0x14 4
  let ws := fld l 0x18 4
  has l 0x20 && decide (fld l 0 1 ≤ 63) && decide (pool ≤ 2) && (fld l 2 1 == 1 || fld l 2 1 == 2) && decide (fld l 3 1 < 2) &&
  (!gatherWeighted l || pool != 0) && decide (1 ≤ n ∧ n ≤ 8388608) && zeroAt l 0x1C 4 &&
  fld l 0x10 4 % 8 == 0 && has l (fld l 0x10 4 + 8 * n) &&
  (if pool = 0 then bags == 0 && bs == 0
    else decide (1 ≤ bags ∧ bags ≤ 1048576) && bs % 8 == 0 && has l (bs + 4 * (bags + 1)) && (gatherBounds l).head? == some 0 &&
      (gatherBounds l).getLast? == some n && nonDecreasing (gatherBounds l)) &&
  if gatherWeighted l then ws % 8 == 0 && has l (ws + 4 * n) else ws == 0

/-- Engine commands of a gather (08 R225); none where a bag does not fit. -/
def gatherParts (p : Partition) (t : Table) (idx bounds : List Nat) (slotFmt : Nat) : Option (List (Nat × Nat)) :=
  cutParts (gatherKeys t idx) bounds (rowBytesOf (tableDim t) slotFmt) (areaSize p.runs 4 * segBytes) (idx.length + 1) 0 idx.length

/-- Format of the slots: FP32 when the gather pools (08 R224). -/
def slotFmt (l : List Byte) : Nat := if gatherPool l = 0 then fld l 2 1 else 2

/-- Payload of a PEER_GATHER (log 20): table, component, 2 reserved bytes, AfterEpoch, count, 4 reserved bytes, and a word
for each row: shard in bits 63:56, row in bits 39:0. -/
def peerGatherPay (table comp after : Nat) (items : List (Nat × Nat)) : List Byte :=
  [b8 table, b8 comp, 0, 0] ++ leBytes 4 after ++ leBytes 4 items.length ++ leBytes 4 0 ++
    items.flatMap fun x => leBytes 8 (x.1 * 2 ^ 56 + x.2)

/-- Ask for the rows a gather job needs, one PEER_GATHER for each owner and component (08 R221), in a lost owner's place one
for each replica of its shards (R222); false when some shard has no module that can be asked. Rows of this module's own
shards are asked of nobody. -/
def askRows (s : State) (i job : Nat) (t : Table) (after : Nat) (items : List (Nat × Nat × Nat)) : State × Bool :=
  let away := items.filter fun x => (localShard s t x.2.1).isNone
  let server := fun (x : Nat × Nat × Nat) => (x.1, (tableShard t x.2.1).owner, shardServer s t x.2.1)
  (distinct (away.map server)).foldl (fun (acc : State × Bool) g =>
    let mine := (away.filter fun x => server x == g).map fun x => (x.2.1, x.2.2)
    match g.2.2 with
    | some (m, rep) =>
      (placeCall acc.1 i m 0xFFFF rep (.rows job g.1 mine) .peerGather (peerGatherPay t.id g.1 after mine), acc.2)
    | none => (acc.1, false)) (s, true)

/-- The owner of a call's rows has not answered: for this command it is lost, and the replicas of the shards are asked (08
R222). Rows of shards that this module replicates it reads itself. The answer also names the rows that nobody can be asked
for. -/
def askReplicas (s : State) (c : Call) (job comp : Nat) (t : Table) (items : List (Nat × Nat)) : State × List (Nat × Nat) :=
  let rep := fun (x : Nat × Nat) => (tableShard t x.1).replica
  let away := items.filter fun x => rep x != s.myId.toNat
  (distinct (away.map rep)).foldl (fun (acc : State × List (Nat × Nat)) m =>
    let mine := away.filter fun x => rep x == m
    if m != 0xFFFF && peerUp acc.1 (w16 m) then
      (placeCall acc.1 c.part (w16 m) 0xFFFF true (.rows job comp mine) .peerGather
        (peerGatherPay t.id comp (fld c.pay 4 4) mine), acc.2)
    else (acc.1, acc.2 ++ mine)) (s, [])

/-- Forget a gather's work. -/
def dropGather (s : State) (job : Nat) : State :=
  { s.dropJob job with
    calls := s.calls.filter fun c => match c.forWhat with
      | .rows n _ _ => n != job
      | _ => true
    fetched := s.fetched.filter fun x => x.job != job }

/-- The occurrences of each engine command of a gather. -/
def partsOf (idx : List Nat) (parts : List (Nat × Nat)) : List (List Nat) := parts.map fun p => (idx.drop p.1).take (p.2 - p.1)

/-- The occurrences of each engine command that a GATHER_SUBMIT is divided into (08 R225); none where it cannot be. -/
def submitParts (p : Partition) (t : Table) (l : List Byte) : Option (List (List Nat)) :=
  (gatherParts p t (gatherIdx l) (gatherBounds l) (slotFmt l)).map (partsOf (gatherIdx l))

/-- Lines of WORK that the slots of a gather's largest engine command take (08 R224, R225). -/
def gatherRoom (t : Table) (fmt : Nat) (parts : List (List Nat)) : Nat :=
  (parts.map fun p => cdiv ((distinct (gatherKeys t p)).length * rowBytesOf (tableDim t) fmt) 256).foldl max 0

/-- A gather begins: its job, and what it asks of peers (08 R221, R222). -/
def gatherBegin (s : State) (i t : Nat) (tb : Table) (after fmt : Nat) (parts : List (List Nat)) : State × Bool :=
  let job := s.nextId
  let s1 := (addJob s i t none .gather).modJob job fun j => { j with room := gatherRoom tb fmt parts }
  let r := askRows s1 i job tb after (gatherItems tb parts.flatten)
  if r.2 then (feedUnits r.1, true) else (dropGather r.1 job, false)

/-- Rows at hand for a gather job: what peers returned, and this module's own (08 R221). -/
def rowsHere (s : State) (i job : Nat) (t : Table) (items : List (Nat × Nat × Nat)) : List RowBytes :=
  (s.fetched.filter fun x => x.job == job).map (fun x => ⟨x.comp, x.shard, x.row, x.bytes, x.shifts⟩) ++
    (items.filter (readHere s job t)).map fun x =>
      let b := readRow s i t x.2.1 x.2.2
      ⟨x.1, x.2.1, x.2.2, b.1, b.2⟩

/-- Local row fetches through the row cache, with their counters (08 R230, R236). -/
def countFetches (s : State) (i job : Nat) (t : Table) (items : List (Nat × Nat × Nat)) : State :=
  (items.filter (readHere s job t)).foldl (fun s x => fetchOwn s i t x) s

/-- Is a row that this module serves damaged (15 R417)? -/
def anyDamaged (s : State) (job : Nat) (t : Table) (items : List (Nat × Nat × Nat)) : Bool :=
  items.any fun x => readHere s job t x && rowDamaged t x.1 x.2.2

/-- The slots of an engine command: each distinct key composed and converted once, in the order of first occurrence (08 R224). -/
def slotRows (t : Table) (rows : List RowBytes) (fmt : Nat) (idx : List Nat) : List (List Nat) :=
  (distinct (gatherKeys t idx)).map (keyRow t rows fmt)

/-- The index list of an engine command: for each occurrence the slot of its key (08 R224). -/
def slotIndex (t : Table) (idx : List Nat) : List Nat :=
  let keys := distinct (gatherKeys t idx)
  (gatherKeys t idx).map fun k => keys.idxOf k

/-- Bytes of slots, each on a 64-byte boundary. -/
def workSlotBytes (rb fmt : Nat) (rows : List (List Nat)) : List Byte :=
  rows.flatMap fun r => bytesAt (r.flatMap (leBytes (fmtElem fmt))) 0 rb

/-- The slots of an engine command stand in WORK (08 R224); without pooling the Skidder writes a row for each occurrence from
them, by one BROADCAST descriptor with INDEXED (06 R178, R179), whose index list is the Yarder's own (log 87). -/
def slotsWritten (s : State) (i job rb fmt : Nat) (pooled : Bool) (slots : List (List Nat)) (occ : Nat) : State :=
  let s1 := areaPut s i .engine 4 (workAt s i job) (workSlotBytes rb fmt slots)
  if pooled then s1 else charge (bump (bump s1 .skidDesc i 0 1) .skidBytes i 0 (occ * rb)) i .engine (2 * (occ * rb))

/-- One row for each occurrence, from the slots through the index list (06 R178; 08 R224). -/
def slotOut (t : Table) (rows : List RowBytes) (fmt : Nat) (idx : List Nat) : List (List Nat) :=
  let slots := slotRows t rows fmt idx
  (slotIndex t idx).map fun k => slots.getD k []

/-- Output rows without pooling: one for each index, engine command by engine command. -/
def plainRows (t : Table) (rows : List RowBytes) (outFmt : Nat) (parts : List (List Nat)) : List (List Nat) :=
  parts.flatMap (slotOut t rows outFmt)

/-- Output rows of a pooling gather (08 R226). -/
def pooledRows (t : Table) (rows : List RowBytes) (l : List Byte) (parts : List (List Nat)) : List (List Nat) :=
  let outFmt := fld l 2 1
  let slots := (parts.flatMap (slotOut t rows 2)).map fun r => r.map w32
  let ws := fldList l (fld l 0x18 4) 4 (gatherOcc l)
  let occ := slots.zipIdx.map fun x => (x.1, if gatherWeighted l then some (w32 (ws.getD x.2 0)) else none)
  let bounds := gatherBounds l
  (List.range (fld l 8 4)).map fun b =>
    let lo := bounds.getD b 0
    (poolBag (tableDim t) (gatherPool l == 2) ((occ.drop lo).take (bounds.getD (b + 1) 0 - lo))).map (outElem outFmt)

/-- Result payload (08 R228). -/
def gatherResult (dim outFmt distinct_ lo hi : Nat) (degraded : Bool) (rows : List (List Nat)) : List Byte :=
  let rb := rowBytesOf dim outFmt
  leBytes 4 rows.length ++ leBytes 2 dim ++ [b8 outFmt, b8 (boolNat degraded)] ++ leBytes 4 rb ++ leBytes 4 distinct_ ++
    leBytes 4 lo ++ leBytes 4 hi ++ leBytes 8 0 ++ workSlotBytes rb outFmt rows

/-- Epochs that a gather's rows were read at, and whether a degraded table was among them (08 R228, R229, R233). -/
def epochsRead (s : State) (job : Nat) (t : Table) (items : List (Nat × Nat × Nat)) : List Nat × Bool :=
  let got := s.fetched.filter fun x => x.job == job
  let own := items.any (readHere s job t)
  (got.map (·.epoch) ++ (if own then [t.applied] else []), got.any (·.degraded) || (own && t.degraded))

/-- Slots of a gather over its engine commands (08 R228). -/
def slotCount (t : Table) (parts : List (List Nat)) : Nat := (parts.map fun p => (distinct (gatherKeys t p)).length).sum

/-- What a gather's engine commands do in order beside its result: rows fetched, slots formed, counters (08 R224, R236). -/
def runGather (s : State) (i job : Nat) (t : Table) (rows : List RowBytes) (fmt : Nat) (pooled : Bool) (parts : List (List Nat)) :
    State :=
  let s1 := parts.foldl (fun s p => slotsWritten (countFetches s i job t (gatherItems t p)) i job (rowBytesOf (tableDim t) fmt) fmt
    pooled (slotRows t rows fmt p) p.length) s
  bump (bump s1 .yardOcc i 0 (parts.map (·.length)).sum) .yardDistinct i 0 (slotCount t parts)

/-- The Yarder has finished a GATHER_SUBMIT (08 R227, R228). -/
def gatherDone (j : Job) (s : State) : State :=
  match s.cmd? j.ticket with
  | none => dropGather s j.id
  | some c =>
    let i := j.part
    let l := c.pay
    match (s.part i).tables.find? fun t => t.id == fld l 0 1 with
    | none => finishPlain (dropGather s j.id) j.ticket .fault 0
    | some t =>
      let idx := gatherIdx l
      let items := gatherItems t idx
      if anyDamaged s j.id t items then finishPlain (dropGather s j.id) j.ticket .fault 0
      else
        let parts := (submitParts (s.part i) t l).getD []
        let rows := rowsHere s i j.id t items
        let pooled := gatherPool l != 0
        let out := if pooled then pooledRows t rows l parts else plainRows t rows (fld l 2 1) parts
        let e := epochsRead s j.id t items
        let bs := gatherResult (tableDim t) (fld l 2 1) (slotCount t parts) (e.1.foldl min (e.1.headD 0)) (e.1.foldl max 0) e.2 out
        finish (dropGather (runGather s i j.id t rows (slotFmt l) pooled parts) j.id) j.ticket .ok (w32 out.length) (some bs)

/-- GATHER_SUBMIT (08 R216, R222, R225, R227). -/
def cmdGatherSubmit (r : Req) (t : Nat) (s : State) : State :=
  let i := reqPid s r
  let l := r.pay
  let tb := findTable s i (fld l 0 1)
  let form := gatherForm l
  runCmd .gatherSubmit (pairPart s r)
    { form := form && match tb with
        | some tb => (gatherIdx l).all (indexOkFor tb)
        | none => true
      state := engineState s r, found := tb.isSome
      room := match tb with
        | some tb => if form && (submitParts (reqPart s r) tb l).isNone then some .noSpace else none
        | none => none
      detail := 0 }
    (fun t s => match tb with
      | some tb =>
        let r := gatherBegin s i t tb (fld l 0xC 4) (slotFmt l) ((submitParts (s.part i) tb l).getD [])
        if r.2 then r.1 else finishPlain r.1 t .timeout 0
      | none => s) r t s

def execGatherSubmit (r : Req) (s : State) : Host.Outcome State Fault Refusal :=
  live s (enter .gatherSubmit cmdGatherSubmit r s)

/-! ### PEER_GATHER -/

/-- Rows a PEER_GATHER names: component, shard, row. -/
def peerItems (l : List Byte) : List (Nat × Nat × Nat) :=
  (List.range (fld l 8 4)).map fun k =>
    let w := fld l (16 + 8 * k) 8
    (fld l 1 1, w / 2 ^ 56, w % 2 ^ 40)

/-- Reply to a PEER_GATHER (08 R221, R235; log 20): the owner's applied epoch, its degraded mark, then each row's stored
bytes and shift bytes. -/
def peerGatherReply (s : State) (i : Nat) (t : Table) (l : List Byte) : List Byte :=
  leBytes 4 t.applied ++ [b8 (boolNat t.degraded), 0, 0, 0] ++ (peerItems l).flatMap fun x =>
    let b := readRow s i t x.2.1 x.2.2
    b.1 ++ b.2

/-- The Yarder has read the rows a peer asked for. -/
def peerGatherDone (j : Job) (s : State) : State :=
  match s.cmd? j.ticket with
  | none => s.dropJob j.id
  | some c =>
    let i := j.part
    match (s.part i).tables.find? fun t => t.id == fld c.pay 0 1 with
    | none => finishPlain (s.dropJob j.id) j.ticket .fault 0
    | some t =>
      let items := peerItems c.pay
      if items.any fun x => rowDamaged t x.1 x.2.2 then finishPlain (s.dropJob j.id) j.ticket .fault 0
      else
        let s1 := items.foldl (fun s x => fetchOwn s i t x) (s.dropJob j.id)
        finish s1 j.ticket .ok (w32 items.length) (some (peerGatherReply s i t c.pay))

/-- PEER_GATHER (08 R221): every row named lies in a shard this module holds. -/
def cmdPeerGather (r : Req) (t : Nat) (s : State) : State :=
  let i := reqPid s r
  let l := r.pay
  let tb := findTable s i (fld l 0 1)
  runCmd .peerGather (pairPart s r)
    { Need.pass with
      form := has l 16 && zeroAt l 2 2 && zeroAt l 12 4 && has l (16 + 8 * fld l 8 4)
      state := engineState s r
      found := match tb with
        | some tb => (peerItems l).all fun x =>
            let sh := tableShard tb x.2.1
            decide (x.2.1 < tb.shards.length) && sh.heldBy s.myId.toNat && sh.comp == x.1 &&
              decide (sh.rowFirst ≤ x.2.2 ∧ x.2.2 < sh.rowFirst + sh.rowCount)
        | none => false }
    (fun t s => queueJob s i t none .gather) r t s

def execPeerGather (r : Req) (s : State) : Host.Outcome State Fault Refusal := live s (enter .peerGather cmdPeerGather r s)

/-! ### UPDATE_SUBMIT -/

def updOcc (l : List Byte) : Nat := fld l 8 4
def updEpoch (l : List Byte) : Nat := fld l 4 4
def updEnd (l : List Byte) : Bool := bit (fld l 1 1) 0

/-- Form of UPDATE_SUBMIT that needs no table (08 R235). -/
def updForm (l : List Byte) : Bool :=
  let n := updOcc l
  has l 0x20 && decide (fld l 0 1 ≤ 63) && decide (fld l 1 1 < 2) && zeroAt l 2 2 && decide (1 ≤ updEpoch l) &&
  decide (n ≤ 1048576) && (decide (1 ≤ n) || updEnd l) && zeroAt l 0x18 8 && (n == 0 || has l (fld l 0x10 4 + 8 * n))

def holdsShard (t : Table) (me : Nat) : Bool := t.shards.any (·.heldBy me)

/-- Owners of a table. -/
def tableOwners (t : Table) : List Nat := distinct (t.shards.map (·.owner))

/-- The table's applied epoch at the issuing module (08 R235). -/
def appliedHere (s : State) (t : Table) : Nat :=
  if holdsShard t s.myId.toNat then t.applied
  else match (tableOwners t).map fun o => t.reports.lookup o with
    | [] => 0
    | rs => rs.foldl (fun m r => min m (r.getD 0)) ((rs.headD none).getD 0)

/-- Values that reach a component from one occurrence's contribution (08 R234). -/
def contribPart (t : Table) (comp : Nat) (d : List W32) : List W32 :=
  if t.compose != 0 && t.combine == 3 then (if comp = 0 then d.take t.compA.dim else d.drop t.compA.dim) else d

/-- Every contribution of an UPDATE_SUBMIT to each shard's rows, already scaled (08 R231, R234), with its shard. -/
def updContribs (t : Table) (me base : Nat) (l : List Byte) : List (Nat × Contribution) :=
  let n := updOcc l
  let dim := tableDim t
  (List.range n).flatMap fun k =>
    let key := rowsOf t (w64 (fld l (fld l 0x10 4 + 8 * k) 8))
    let d := (fldList l (fld l 0x14 4 + 4 * dim * k) 4 dim).map fun v => mul32 (w32 v) (w32 (fld l 0xC 4))
    (tableComps t).flatMap fun c =>
      let row := if c = 0 then key.1 else key.2
      (shardsOf t c row).map fun x =>
        (x.1, { epoch := updEpoch l, source := me, comp := c, row, colFirst := x.2.colFirst, pos := base + k,
                vals := ((contribPart t c d).drop x.2.colFirst).take x.2.colCount })

/-- A contribution in a PEER_UPDATE (log 20): component, 1 reserved byte, first column, count, 2 reserved bytes, row,
position, 4 reserved bytes, values. -/
def contribBytes (c : Contribution) : List Byte :=
  [b8 c.comp, 0] ++ leBytes 2 c.colFirst ++ leBytes 2 c.vals.length ++ [0, 0] ++ leBytes 8 c.row ++ leBytes 4 c.pos ++ leBytes 4 0 ++
    c.vals.flatMap fun v => leBytes 4 v.toNat

/-- Payload of a PEER_UPDATE (08 R235; log 20): table, flags, source, epoch, count, 4 reserved bytes, contributions. -/
def peerUpdatePay (table me epoch : Nat) (last : Bool) (cs : List Contribution) : List Byte :=
  [b8 table, b8 (boolNat last)] ++ leBytes 2 me ++ leBytes 4 epoch ++ leBytes 4 cs.length ++ leBytes 4 0 ++ cs.flatMap contribBytes

/-- Contributions of a payload, `n` from an offset on; none when they leave it. -/
def peerContribs (l : List Byte) (source epoch : Nat) : Nat → Nat → Option (List Contribution)
  | 0, _ => some []
  | n + 1, o =>
    let k := fld l (o + 4) 2
    if has l (o + 24 + 4 * k) then
      (peerContribs l source epoch n (o + 24 + 4 * k)).map fun r =>
        { epoch, source, comp := fld l o 1, row := fld l (o + 8) 8, colFirst := fld l (o + 2) 2, pos := fld l (o + 16) 4,
          vals := (fldList l (o + 24) 4 k).map w32 } :: r
    else none

def modTable (s : State) (i id : Nat) (f : Table → Table) : State :=
  s.modPart i fun p => { p with tables := p.tables.map fun t => if t.id = id then f t else t }

/-- Take contributions and, with `last`, the source's EPOCH_END (08 R231, R232). -/
def takeContribs (source epoch : Nat) (last : Bool) (cs : List Contribution) (t : Table) : Table :=
  { t with contribs := t.contribs ++ cs, ends := if last then t.ends ++ [(source, epoch)] else t.ends }

/-- An UPDATE_SUBMIT runs (08 R231, R235): each module that owns or replicates a shard gets its contributions, and with
EPOCH_END every one gets the end. Of a module outside the source list every holder refuses them: here at once, elsewhere in
its reply. -/
def updateBegin (s : State) (i t : Nat) (tb : Table) (l : List Byte) : State :=
  let me := s.myId.toNat
  let e := updEpoch l
  let source := tb.sources.contains me
  let base := lookupD tb.sentOcc e 0
  let cs := updContribs tb me base l
  let s0 := modTable s i tb.id fun x => { x with
    sentOcc := setKey x.sentOcc e (base + updOcc l), sentEnds := if updEnd l then x.sentEnds ++ [e] else x.sentEnds
    sending := (x.sending.filter fun y => (s.cmd? y.1).isSome) ++ [(t, e, base, updEnd l)] }
  let for_ := fun (m : Nat) => (cs.filter fun c => (tableShard tb c.1).heldBy m).map (·.2)
  let holders := distinct (tb.shards.flatMap fun x => x.owner :: if x.replica = 0xFFFF then [] else [x.replica])
  let toAll := holders.filter fun m => updEnd l || !(for_ m).isEmpty
  let s1 := if toAll.contains me && source then modTable s0 i tb.id (takeContribs me e (updEnd l) (for_ me)) else s0
  let away := toAll.filter fun m => m != me
  let lostOne := tb.shards.any fun x =>
    (updEnd l || cs.any fun c => (tableShard tb c.1) == x) && !peerUp s (w16 x.owner) &&
      (x.replica == 0xFFFF || !peerUp s (w16 x.replica))
  if !source && (toAll.contains me || away.isEmpty) then finishPlain s t .denied 0
  else if lostOne then finishPlain s t .timeout 0
  else
    let s2 := (away.filter fun m => peerUp s1 (w16 m)).foldl (fun s m =>
      placeCall s i (w16 m) 0xFFFF false (.update t tb.id) .peerUpdate (peerUpdatePay tb.id me e (updEnd l) (for_ m))) s1
    if s2.calls.any fun c => c.forWhat == .update t tb.id then s2 else finishPlain s2 t .ok (updOcc l)

/-- UPDATE_SUBMIT (08 R216, R234, R235). -/
def cmdUpdateSubmit (r : Req) (t : Nat) (s : State) : State :=
  let i := reqPid s r
  let l := r.pay
  let tb := findTable s i (fld l 0 1)
  let form := updForm l
  runCmd .updateSubmit (pairPart s r)
    { Need.pass with
      form := form && match tb with
        | some tb => (tableComps tb).all (fun c => (tb.component c).updatable) &&
            (updOcc l == 0 || has l (fld l 0x14 4 + 4 * tableDim tb * updOcc l)) &&
            (fldList l (fld l 0x10 4) 8 (updOcc l)).all (indexOkFor tb)
        | none => true
      state := engineState s r && match tb with
        | some tb => decide (appliedHere s tb < updEpoch l) && !tb.sentEnds.contains (updEpoch l)
        | none => true
      found := tb.isSome }
    (fun t s => match tb with
      | some tb => updateBegin s i t tb l
      | none => s) r t s

/-- An UPDATE_SUBMIT that a failure ends leaves its table as it was before it (15 R421): its contributions, its EPOCH_END and
the count of its occurrences are taken back, as far as its epoch is not applied. What peers have taken stays with them. -/
def updateUndone (me t n : Nat) (tb : Table) : Table :=
  (tb.sending.filter fun y => y.1 == t).foldl (fun (x : Table) y =>
    let e := y.2.1
    let base := y.2.2.1
    { x with
      contribs := x.contribs.filter fun c => !(c.source == me && c.epoch == e && decide (base ≤ c.pos ∧ c.pos < base + n))
      ends := if y.2.2.2 then x.ends.filter (· != (me, e)) else x.ends
      sentEnds := if y.2.2.2 then x.sentEnds.filter (· != e) else x.sentEnds
      sentOcc := if lookupD x.sentOcc e 0 = base + n then setKey x.sentOcc e base else x.sentOcc
      sending := x.sending.filter fun z => z.1 != t }) tb

def execUpdateSubmit (r : Req) (s : State) : Host.Outcome State Fault Refusal :=
  live s (enter .updateSubmit cmdUpdateSubmit r s)

/-- PEER_UPDATE (08 R231, R235): refused from a module outside the source list; its reply reports the applied epoch. -/
def cmdPeerUpdate (r : Req) (t : Nat) (s : State) : State :=
  let i := reqPid s r
  let l := r.pay
  let tb := findTable s i (fld l 0 1)
  let src := fld l 2 2
  let cs := peerContribs l src (fld l 4 4) (fld l 8 4) 16
  runCmd .peerUpdate (pairPart s r)
    { Need.pass with
      form := has l 16 && decide (fld l 1 1 < 2) && zeroAt l 12 4 && cs.isSome && src == r.src.toNat
      state := engineState s r
      found := match tb with
        | some tb => holdsShard tb s.myId.toNat
        | none => false }
    (fun t s => match tb, cs with
      | some tb, some cs =>
        if !tb.sources.contains src then finish s t .denied 0 (some (leBytes 4 tb.applied ++ leBytes 4 0))
        else
          let s1 := modTable s i tb.id (takeContribs src (fld l 4 4) (bit (fld l 1 1) 0) cs)
          finish s1 t .ok (w32 cs.length) (some (leBytes 4 tb.applied ++ leBytes 4 0))
      | _, _ => s) r t s

def execPeerUpdate (r : Req) (s : State) : Host.Outcome State Fault Refusal := live s (enter .peerUpdate cmdPeerUpdate r s)

/-! ### Application of epochs (08 R231, R232) -/

/-- Is a gather reading the table (08 R232): it has begun, so its AfterEpoch is reached and its rows are at hand? -/
def tableReading (s : State) (i id : Nat) : Bool :=
  s.jobs.any fun j => j.part == i && j.kind == .gather && j.started.isSome && match s.cmd? j.ticket with
    | some c => fld c.pay 0 1 == id
    | none => s.launches.any fun l => l.id == j.ticket && l.gather.any fun g => g.1 == id

/-- Has a table everything of its next epoch (08 R232, R233)? -/
def epochComplete (s : State) (t : Table) : Bool :=
  holdsShard t s.myId.toNat && !t.sources.isEmpty &&
  t.sources.all (fun m => t.ends.contains (m, t.applied + 1) || t.lostSources.contains m) &&
  (t.ends.any (fun x => x.2 == t.applied + 1) || t.contribs.any fun c => c.epoch == t.applied + 1)

/-- May the next epoch be applied at this boundary (08 R232, R233)? -/
def epochDue (s : State) (i : Nat) (t : Table) : Bool := epochComplete s t && !tableReading s i t.id

/-- Gathers of a partition that wait for an applied epoch, and complete epochs that wait to be applied: each counts in
YARD_EPOCH_WAIT at every count (08 R229, R232, R236). -/
def epochWaits (s : State) (i : Nat) : Nat :=
  (s.jobs.countP fun j => j.part == i && j.kind == .gather && j.unit.isNone && !epochReady s j) +
    (s.part i).tables.countP (epochComplete s)

/-- The sum of a row's contributions in order (08 R231). -/
def rowSum (cs : List Contribution) (width : Nat) : List W32 :=
  (rankSort (fun (a b : Contribution) => decide (a.source < b.source ∨ (a.source = b.source ∧ a.pos < b.pos))) cs).foldl
    (fun acc c => List.zipWith add32 acc c.vals) (List.replicate width 0)

/-- Apply a row's sum (08 R231): FP32 with one addition, BF16 added in FP32 and rounded at level 1. -/
def applyRow (s : State) (i : Nat) (t : Table) (k row : Nat) (cs : List Contribution) : State :=
  let x := tableShard t k
  let f := (t.component x.comp).fmt
  let old := rowF32 f x.colCount (readRow s i t k row).1 []
  let new := List.zipWith add32 old (rowSum cs x.colCount)
  let bs := new.flatMap fun v => if f = 1 then leBytes 2 (toBf16 v).toNat else leBytes 4 v.toNat
  refreshCopy (s.t1Store i (t.res.frame * frameBytes + (rowPlace t s.myId.toNat k row).1) bs) i t k row

/-- Apply the next epoch of a table (08 R231, R232). -/
def applyEpoch (s : State) (i : Nat) (t : Table) : State :=
  let e := t.applied + 1
  let cs := t.contribs.filter fun c => c.epoch == e
  let me := s.myId.toNat
  let targets := distinct (cs.filterMap fun c =>
    (t.shards.zipIdx.find? fun x => x.1.heldBy me && x.1.comp == c.comp && x.1.colFirst == c.colFirst &&
      decide (x.1.rowFirst ≤ c.row ∧ c.row < x.1.rowFirst + x.1.rowCount)).map fun x => (x.2, c.row))
  let s1 := targets.foldl (fun s k =>
    applyRow s i t k.1 k.2 (cs.filter fun c => c.comp == (tableShard t k.1).comp && c.row == k.2 &&
      c.colFirst == (tableShard t k.1).colFirst)) s
  let rows := (distinct (targets.map fun k => ((tableShard t k.1).comp, k.2))).length
  bump (modTable s1 i t.id fun x => { x with
    applied := e, contribs := x.contribs.filter (fun c => c.epoch != e), ends := x.ends.filter fun y => y.2 != e })
    .yardUpdRows i 0 rows

/-- Apply the epochs of a table that are due, one after another. -/
def applyEpochs (i id : Nat) : Nat → State → State
  | 0, s => s
  | n + 1, s => match (s.part i).tables.find? fun t => t.id == id with
    | some t => if epochDue s i t then applyEpochs i id n (applyEpoch s i t) else s
    | none => s

/-- Table epochs of a partition at a boundary (11 R290 order 2). -/
def boundaryEpochs (i : Nat) (s : State) : State :=
  feedUnits ((s.part i).tables.foldl (fun s t => applyEpochs i t.id (t.ends.length + t.contribs.length) s) s)

/-! ### Row cache -/

/-- After every 65,536 distinct fetches every count is halved (08 R230). -/
def cacheHalve (part : Nat) (s : State) : State :=
  let c := (s.part part).cache
  if c.fetches < 65536 then s else s.modPart part fun p => { p with cache := c.halved }

def execCacheCountHalve (part : Nat) (s : State) : Host.Outcome State Fault Refusal := live s (cacheHalve part s)

end Sys2Proof.Machine
end

