-- ==== Sys2Proof/Machine/Graph.lean ====
section
/-! DEFINITION. Searching one shard: distance tables and scores (09 R243, R244), the traversal (R245 to R248), Seedling parts
(R249), Sapwood (R251), filters (R254), and planting (R259, R260). -/

namespace Sys2Proof.Machine

/-! ### Tables and scores -/

/-- NaN becomes −∞ (09 R244). -/
def noNan (w : W32) : W32 := if isNan32 w then infNeg else w

/-- Centroid c of sub-space m, element j (09 R241, R243). -/
def centroid (x : Index) (m c j : Nat) : W32 :=
  let ds := x.dim / x.subSpaces
  x.codebook.getD ((m * 256 + c) * ds + j) 0

/-- One entry of the distance table before its NaN is replaced (09 R243). -/
def tableEntry (x : Index) (q : List W32) (m c : Nat) : W32 :=
  let ds := x.dim / x.subSpaces
  (List.range ds).foldl (fun acc j =>
    let v := q.getD (m * ds + j) 0
    let y := centroid x m c j
    if x.metricL2 then let d := sub32 v y; fma32 d d acc else fma32 v y acc) 0

/-- The distance table, sub-space by sub-space, and its replaced NaNs (09 R243, R244). -/
def buildTable (x : Index) (q : List W32) : List (List W32) × Nat :=
  let raw := (List.range x.subSpaces).map fun m => (List.range 256).map fun c => tableEntry x q m c
  (raw.map fun r => r.map noNan, raw.flatten.countP isNan32)

/-- Score of a code before its NaN is replaced (09 R243). -/
def rawScore (x : Index) (t : List (List W32)) (code : List Byte) : W32 :=
  let s := (t.zip code).foldl (fun s e => add32 s (e.1.getD e.2.toNat 0)) 0
  if x.metricL2 then neg32 s else s

def scoreOf (x : Index) (t : List (List W32)) (code : List Byte) : W32 := noNan (rawScore x t code)

/-! ### Lists in rank order (09 R245) -/

/-- Scored key. -/
abbrev Ranked := W32 × Nat

/-- `keep` of 09 R248. -/
def keep (l : List Ranked) (a : Ranked) (bound : Nat) : List Ranked := (rankInsert tallyBefore a l).take bound

/-- `below(a, b)` of 09 R245. -/
def below (a b : Ranked) : Bool := tallyBefore b a

/-! ### Traversal (09 R248) -/

/-- What a traversal works on. -/
structure Graph where
  edges : Nat → List Nat
  score : Nat → W32
  allowed : Nat → Bool
  isNan : Nat → Bool

structure Trav where
  nav : List Ranked
  cand : List Ranked
  res : List Ranked
  visited : List Nat
  efCur : Nat
  expanded : Nat
  extended : Bool
  limit : Bool
  scored : Nat
  nans : Nat
  deriving DecidableEq, Repr

structure TravParams where
  k : Nat
  ef : Nat
  efMax : Nat
  expandMax : Nat
  deriving DecidableEq, Repr

def visit (g : Graph) (p : TravParams) (t : Trav) (n : Nat) : Trav :=
  if t.visited.contains n then t else
    let a : Ranked := (g.score n, n)
    { t with
      visited := n :: t.visited
      nav := keep t.nav a p.efMax
      cand := keep t.cand a p.efMax
      res := if g.allowed n then keep t.res a p.k else t.res
      scored := t.scored + 1
      nans := t.nans + boolNat (g.isNan n) }

/-- Candidates taken at once and the order of their neighbours: one candidate in slot order in Heartwood; in Sapwood up to
four, in the order in which fetches complete, which the spec leaves open (09 R251; log 24). -/
def takeOrder (sap : Option Nat) (step : Nat) (cand : List Ranked) (room : Nat) (edges : Nat → List Nat) : Nat × List Nat :=
  match sap with
  | none => (1, match cand with
      | [] => []
      | c :: _ => edges c.2)
  | some f =>
    let n := min (1 + Config.freeOrder f (2 * step) % 4) (min cand.length room)
    let all := (cand.take n).flatMap fun c => edges c.2
    let keyed := all.zipIdx.map fun e => (Config.freeOrder (f + 1 + step) e.2, e.1)
    (n, (rankSort (fun (a b : Nat × Nat) => decide (a.1 < b.1)) keyed).map (·.2))

/-- The loop of 09 R248, at most `fuel` turns. -/
def travLoop (g : Graph) (p : TravParams) (sap : Option Nat) : Nat → Nat → Trav → Trav
  | 0, _, t => t
  | fuel + 1, step, t =>
    match t.cand with
    | [] => t
    | c :: _ =>
      if decide (t.efCur ≤ t.nav.length) && (match t.nav[t.efCur - 1]? with
          | some w => below c w
          | none => false) then
        if p.k ≤ t.res.length ∨ t.efCur = p.efMax then t
        else travLoop g p sap fuel step { t with efCur := min (2 * t.efCur) p.efMax, extended := true }
      else if p.expandMax ≠ 0 ∧ t.expanded = p.expandMax then { t with limit := true }
      else
        let room := if p.expandMax = 0 then t.cand.length else p.expandMax - t.expanded
        let o := takeOrder sap step t.cand room g.edges
        travLoop g p sap fuel (step + 1)
          (o.2.foldl (visit g p) { t with cand := t.cand.drop o.1, expanded := t.expanded + o.1 })

/-- A traversal from its seeds; `turns` bounds the loop, which otherwise ends by itself within `n` nodes. -/
def traverse (g : Graph) (p : TravParams) (sap : Option Nat) (n : Nat) (turns : Option Nat) (seeds : List Nat) : Trav :=
  let t0 : Trav := ⟨[], [], [], [], p.ef, 0, false, false, 0, 0⟩
  travLoop g p sap (turns.getD (n + 40)) 0 (seeds.foldl (visit g p) t0)

/-! ### Filters (09 R254) -/

/-- Is the item allowed, given its membership of each bitmap? -/
def filterAllows (b : SearchBlock) (member : Nat → Bool) : Bool :=
  let holds := fun (t : Byte) => member (t.toNat % 64) != t.getLsbD 7
  b.terms.isEmpty || if b.filterAny then b.terms.any holds else b.terms.all holds

def nodeMember (x : Index) (n b : Nat) : Bool := ((x.bitmaps.lookup b).getD []).getD n false

/-! ### Parts (09 R246 to R249) -/

def noNode : Node := ⟨0, [], [], true, true⟩
def Index.node (x : Index) (n : Nat) : Node := x.nodes.getD n noNode

/-- The entry layer as a graph (09 R247). -/
def entryGraph (x : Index) (t : List (List W32)) : Graph :=
  let code := fun n => (x.node (x.entry.getD n (0, [])).1).code
  { edges := fun n => (x.entry.getD n (0, [])).2, score := fun n => scoreOf x t (code n), allowed := fun _ => false,
    isNan := fun n => isNan32 (rawScore x t (code n)) }

/-- Nodes as a graph under a filter (09 R248). -/
def nodeGraph (x : Index) (t : List (List W32)) (allowed : Nat → Bool) : Graph :=
  { edges := fun n => (x.node n).adj, score := fun n => scoreOf x t (x.node n).code
    allowed := fun n => !(x.node n).stump && allowed n, isNan := fun n => isNan32 (rawScore x t (x.node n).code) }

/-- Entry phase: its traversal, and the seeds it gives (09 R247). -/
def entryPhase (x : Index) (t : List (List W32)) (sap : Option Nat) : Trav × List Nat :=
  let tr := traverse (entryGraph x t) ⟨0, x.entryEf, x.entryEf, 0⟩ sap x.entry.length none [0]
  (tr, (tr.nav.take x.seeds).map fun a => (x.entry.getD a.2 (0, [])).1)

/-- What a part yields, with what it counted. -/
structure PartOut where
  list : PartList
  expanded : Nat
  scored : Nat
  nans : Nat

/-- Flags of a part (09 R267): 4 PROBE, 3 PARTIAL, 2 EXTENDED, 1 BUDGET, 0 EXPAND_LIMIT. -/
def partFlags (extended budget limit : Bool) : BitVec 5 :=
  BitVec.ofNat 5 (4 * boolNat extended + 2 * boolNat budget + boolNat limit)

def blockParams (b : SearchBlock) : TravParams := ⟨b.k, b.ef, b.efMax, b.expandMax⟩

/-- Part 0 of a query (09 R246 to R248, R251). `turns` is how far it got when its budget ended, none when it ended by
itself; 0 turns are a budget that ended in the entry phase. -/
def runPart0 (x : Index) (b : SearchBlock) (q : List W32) (query : Nat) (probe : Bool) (sap : Option Nat) (turns : Option Nat) :
    PartOut :=
  let t := buildTable x q
  let e := entryPhase x t.1 sap
  if turns = some 0 then
    ⟨⟨query, 0, [], partFlags false true false, 0, probe⟩, e.1.expanded, e.1.scored, t.2 + e.1.nans⟩
  else
    let g := nodeGraph x t.1 fun n => filterAllows b (nodeMember x n)
    let tr := traverse g (blockParams b) (sap.map (· + x.entry.length + 60)) x.nodes.length turns e.2
    let ents := tr.res.map fun a => (⟨a.1, b8 x.shardIndex, 0, w64 (x.node a.2).id⟩ : Entry)
    ⟨⟨query, 0, ents, partFlags tr.extended turns.isSome tr.limit, tr.expanded, probe⟩, e.1.expanded + tr.expanded,
      e.1.scored + tr.scored, t.2 + e.1.nans + tr.nans⟩

def seedSegment : Nat := 8388608

/-- Seedling part `g` of a query (09 R249, R251); `turns` is how many entries it had scanned when its budget ended. -/
def runSeedPart (x : Index) (b : SearchBlock) (q : List W32) (query g : Nat) (probe : Bool) (turns : Option Nat) : PartOut :=
  let t := buildTable x q
  let seg := ((x.seed.drop (g * seedSegment)).take seedSegment).zipIdx
  let seg := match turns with
    | some n => seg.take n
    | none => seg
  let live := seg.filter fun e => !e.1.deleted
  let kept := (live.filter fun e => filterAllows b fun m => e.1.members.getLsbD m).foldl
    (fun l e => keep l (scoreOf x t.1 e.1.code, g * seedSegment + e.2) b.k) []
  let ents := kept.map fun a => (⟨a.1, b8 x.shardIndex, 1, w64 ((x.seed.getD a.2 ⟨0, 0, [], false⟩).id)⟩ : Entry)
  ⟨⟨query, g + 1, ents, partFlags false turns.isSome false, 0, probe⟩, 0, live.length,
    live.countP fun e => isNan32 (rawScore x t.1 e.1.code)⟩

/-- Parts of a query on a shard (09 R246). -/
def partCount (x : Index) (b : SearchBlock) : Nat := 1 + if b.noSeedling then 0 else cdiv x.seed.length seedSegment

/-! ### Encoding a vector (09 R256) -/

/-- Nearest centroid of sub-space m: least squared distance, lowest on a tie. -/
def encodeSub (x : Index) (v : List W32) (m : Nat) : Nat :=
  let ds := x.dim / x.subSpaces
  let dist := fun c => (List.range ds).foldl (fun acc j =>
    let d := sub32 (v.getD (m * ds + j) 0) (centroid x m c j)
    fma32 d d acc) 0
  ((List.range 256).foldl (fun (b : Nat × W32) c =>
    let d := dist c
    if lt32 d b.2 then (c, d) else b) (0, dist 0)).1

def encodeVector (x : Index) (v : List W32) : List Byte := (List.range x.subSpaces).map fun m => b8 (encodeSub x v m)

/-! ### Planting (09 R259) -/

/-- The vector whose sub-spaces are a code's centroids. -/
def decodeCode (x : Index) (code : List Byte) : List W32 :=
  let ds := x.dim / x.subSpaces
  (List.range x.subSpaces).flatMap fun m => (List.range ds).map fun j => centroid x m (code.getD m 0).toNat j

/-- "best" members of a list by sim to a code, ties to the lower local index, each once, with the NaNs replaced on the way
(09 R244, R259). -/
def bestBy (x : Index) (code : List Byte) (n : Nat) (c : List Nat) : List Nat × Nat :=
  let t := buildTable x (decodeCode x code)
  let l := distinct c
  (((rankSort tallyBefore (l.map fun v => (scoreOf x t.1 (x.node v).code, v))).take n).map (·.2),
    t.2 + l.countP fun v => isNan32 (rawScore x t.1 (x.node v).code))

def Index.setEdges (x : Index) (n : Nat) (e : List Nat) : Index :=
  { x with nodes := x.nodes.set n { x.node n with adj := e } }

/-- Repair of one node, with the NaNs counted so far. -/
def repairNode (y : Index × Nat) (u : Nat) : Index × Nat :=
  let x := y.1
  let es := (x.node u).adj
  if (x.node u).stump || !es.any fun v => (x.node v).stump then y
  else
    let own := es.filter fun v => !(x.node v).stump
    let via := (es.filter fun v => (x.node v).stump).flatMap fun w => ((x.node w).adj).filter fun v => !(x.node v).stump && v != u
    let b := bestBy x (x.node u).code x.degree (own ++ via)
    (x.setEdges u b.1, y.2 + b.2)

/-- A stump that is no entry-layer base is vacated. -/
def vacateNode (x : Index) (u : Nat) : Index :=
  if (x.node u).stump && !x.entry.any (fun e => e.1 == u) then
    { x with nodes := x.nodes.set u { x.node u with adj := [], vacant := true } }
  else x

/-- Plant one Seedling entry, with the NaNs counted so far. -/
def plantOne (ef : Nat) (y : Index × Nat) (p : Seedling) : Index × Nat :=
  let x := y.1
  if p.deleted then y else
    let v := x.nodes.length
    let x1 := { x with
      nodes := x.nodes ++ [{ id := p.id, code := p.code, adj := [], stump := false, vacant := false }]
      bitmaps := x.bitmaps.map fun b => (b.1, b.2 ++ [p.members.getLsbD b.1]) }
    let t := buildTable x1 (decodeCode x1 p.code)
    let e := entryPhase x1 t.1 none
    let tr := traverse (nodeGraph x1 t.1 fun _ => true) ⟨0, ef, ef, 0⟩ none x1.nodes.length none e.2
    let es := ((tr.nav.map (·.2)).filter fun w => !(x1.node w).stump).take x1.degree
    es.foldl (fun z w =>
      let x := z.1
      let old := (x.node w).adj
      if old.length < x.degree then (x.setEdges w (old ++ [v]), z.2)
      else
        let b := bestBy x (x.node w).code x.degree (old ++ [v])
        (x.setEdges w b.1, z.2 + b.2))
      (x1.setEdges v es, y.2 + t.2 + e.1.nans + tr.nans)

/-- The index as planting makes it from its snapshot, and the NaNs it replaced (09 R244, R259). -/
def plantIndex (x : Index) (pl : Planting) : Index × Nat :=
  let x0 := { x with nodes := x.nodes.zipIdx.map fun e => { e.1 with stump := pl.snapStumps.getD e.2 false } }
  let n := x0.nodes.length
  let x1 := (List.range n).foldl repairNode (x0, 0)
  let x2 := (List.range n).foldl vacateNode x1.1
  pl.snapSeed.foldl (plantOne pl.plantEf) (x2, x1.2)

/-- Nodes planted plus stumps vacated (09 R269). -/
def plantCount (x : Index) (pl : Planting) : Nat :=
  pl.snapSeed.countP (fun p => !p.deleted) +
    (pl.snapStumps.zipIdx.countP fun e => e.1 && !(x.node e.2).vacant && !x.entry.any fun b => b.1 == e.2)

/-- The switch (09 R260): the workspace in place, stump bits of what was deleted meanwhile, later Seedling entries first. -/
def plantSwitch (x : Index) (pl : Planting) : Index :=
  let y := (plantIndex x pl).1
  { y with
    nodes := y.nodes.map fun v => if pl.deletedIds.contains v.id then { v with stump := true } else v
    seed := x.seed.drop pl.p0, planting := none, workFrames := [], gen := x.gen + 1 }

end Sys2Proof.Machine
end

