-- ==== Sys2Proof/Machine/Cruiser.lean ====
section
/-! DEFINITION. The Cruiser's commands: SEARCH_SUBMIT and PEER_SEARCH with their parts, merges and answers (09 R246, R250 to
R252, R262, R263, R266, R267), SEARCH_INSERT, SEARCH_DELETE and PLANT_START (R256 to R260, R268, R269), and the application of
changes at a boundary (R255). -/

namespace Sys2Proof.Machine

/-! ### The search block (09 R266) -/

/-- Block at offset `o`. -/
def blockParse (l : List Byte) (o : Nat) : SearchBlock :=
  let f := fld l (o + 1) 1
  { sapwood := fld l o 1 == 1, filterAny := bit f 2, probe := bit f 1, noSeedling := bit f 0, k := fld l (o + 2) 2,
    ef := fld l (o + 4) 2, efMax := fld l (o + 6) 2, expandMax := fld l (o + 8) 4, budgetUs := fld l (o + 0xC) 4,
    shardMask := w32 (fld l (o + 0x10) 4), terms := bytesAt l (o + 0x18) (fld l (o + 0x14) 1) }

/-- Ranges of a block, with its reserved bits and bytes zero (09 R252, R254, R266). -/
def blockForm (l : List Byte) (o : Nat) : Bool :=
  let b := blockParse l o
  let n := fld l (o + 0x14) 1
  decide (fld l o 1 ≤ 1) && decide (fld l (o + 1) 1 < 8) && decide (1 ≤ b.k ∧ b.k ≤ 4096) &&
  decide (b.k ≤ b.ef ∧ b.ef ≤ b.efMax ∧ b.efMax ≤ 16384) && decide (b.expandMax ≤ 16777215) &&
  (if b.sapwood then decide (1 ≤ b.budgetUs ∧ b.budgetUs ≤ 1000000) else b.budgetUs == 0 && !b.probe) &&
  decide (n ≤ 8) && zeroAt l (o + 0x15) 3 && zeroAt l (o + 0x18 + n) (8 - n) && b.terms.all fun t => !t.getLsbD 6

/-- Shards a block selects (09 R266). -/
def shardsWanted (x : Index) (b : SearchBlock) : List Nat :=
  (List.range x.shardCount).filter fun k => b.shardMask == 0 || b.shardMask.getLsbD k

/-- The mask names no shard at or beyond ShardCount (09 R266). -/
def maskFits (x : Index) (b : SearchBlock) : Bool := decide (b.shardMask.toNat < 2 ^ x.shardCount)

/-- The own shard of this module, when it holds one (09 R262). -/
def ownShard (x : Index) : Option Nat := if x.isMap then none else some x.shardIndex

/-- Every bitmap the terms name is loaded on the shard (09 R254). -/
def termsLoaded (x : Index) (b : SearchBlock) : Bool :=
  b.terms.all fun t => x.bitmaps.any fun e => e.1 == t.toNat % 64

/-- Check of the named bitmaps at the home (09 R254). -/
def homeTerms (x : Index) (b : SearchBlock) : Bool :=
  match ownShard x with
  | some k => !(shardsWanted x b).contains k || termsLoaded x b
  | none => true

def queriesAt (l : List Byte) (o n dim : Nat) : List (List W16) :=
  (List.range n).map fun q => (fldList l (o + 2 * dim * q) 2 dim).map w16

/-! ### Parts -/

def partIndex (p : Partition) (id : Nat) : Option Index := p.indexes.find? fun x => x.id == id

def modIndex (s : State) (i id : Nat) (f : Index → Index) : State :=
  s.modPart i fun p => { p with indexes := p.indexes.map fun x => if x.id = id then f x else x }

def State.modSearch (s : State) (id : Nat) (f : Search → Search) : State :=
  { s with searches := s.searches.map fun x => if x.id = id then f x else x }

def State.dropSearch (s : State) (id : Nat) : State := { s with searches := s.searches.filter fun x => x.id != id }

/-- Parts of a search on a shard: query, part, and whether it is the Heartwood copy that PROBE asks for (09 R246, R252). -/
def searchParts (x : Index) (y : Search) : List (Nat × Nat × Bool) :=
  let n := partCount x y.block
  (if y.block.probe then [false, true] else [false]).flatMap fun pr =>
    (List.range y.queries.length).flatMap fun q => (List.range n).map fun p => (q, p, pr)

def ownerTicket : SearchOwner → Nat
  | .command t => t
  | .peer t => t
  | .context _ => 0

def ownerCtx : SearchOwner → Option Nat
  | .context c => some c
  | _ => none

/-- Ticket of a search's work. -/
def searchTicket (s : State) (y : Search) : Nat :=
  match y.owner with
  | .context c => ((s.ctx? c).map (·.ticket)).getD 0
  | o => ownerTicket o

/-- Put the parts of a search that have no work yet in line (09 R246). -/
def addParts (s : State) (x : Index) (y : Search) : State :=
  (searchParts x y).foldl (fun s p =>
    if s.jobs.any fun j => j.kind == .searchPart y.id p.1 p.2.1 p.2.2 then s
    else addJob s y.part (searchTicket s y) (ownerCtx y.owner) (.searchPart y.id p.1 p.2.1 p.2.2)) s

/-! ### Peers -/

/-- Payload of a PEER_SEARCH (log 20): index, shard, QueryCount, 4 reserved bytes, the block at 8, the queries at 0x28. -/
def peerSearchPay (y : Search) (block : List Byte) (shard : Nat) : List Byte :=
  [b8 y.index, b8 shard] ++ leBytes 2 y.queries.length ++ leBytes 4 0 ++ block ++
    y.queries.flatMap fun q => q.flatMap fun v => leBytes 2 v.toNat

/-- The block as bytes (09 R266). -/
def blockBytes (b : SearchBlock) : List Byte :=
  [b8 (boolNat b.sapwood), b8 (4 * boolNat b.filterAny + 2 * boolNat b.probe + boolNat b.noSeedling)] ++ leBytes 2 b.k ++
    leBytes 2 b.ef ++ leBytes 2 b.efMax ++ leBytes 4 b.expandMax ++ leBytes 4 b.budgetUs ++ leBytes 4 b.shardMask.toNat ++
    [b8 b.terms.length, 0, 0, 0] ++ bytesAt b.terms 0 8

/-- One PEER_SEARCH for a shard another module holds; a shard nobody can be asked for is missing (09 R262, R263). -/
def askShard (s : State) (x : Index) (y : Search) (shard : Nat) : State :=
  let m := x.shardMap.getD shard (0, 0xFFFF)
  match pickPeer s m.1 m.2 with
  | some (t, rep) =>
    placeCall s y.part t m.2 rep (.search y.id shard) .peerSearch (peerSearchPay y (blockBytes y.block) shard)
  | none => s.modSearch y.id fun y => { y with missing := y.missing ++ [shard] }

/-- Every selected shard has answered or is missing. -/
def searchComplete (y : Search) : Bool :=
  y.wanted.all fun k => y.missing.contains k || y.shards.any fun a => a.shard == k

/-- A list of a shard as a peer returns it (log 20): Count, Flags, expansions, entries. -/
def listBytes (p : PartList) : List Byte :=
  leBytes 2 p.entries.length ++ leBytes 2 p.flags.toNat ++ leBytes 4 p.expansions ++ p.entries.flatMap entryBytes

def answerBytes (a : ShardAnswer) : List Byte := leBytes 8 a.gen.toNat ++ a.lists.flatMap listBytes

/-- `n` lists read from a reply at an offset; none when they leave it. -/
def listsAt (l : List Byte) : List (Nat × Bool) → Nat → Option (List PartList)
  | [], _ => some []
  | q :: r, o =>
    let n := fld l o 2
    let e := o + 8 + 16 * n
    if has l (o + 8) && has l e then
      (listsAt l r e).map fun ls =>
        { query := q.1, part := 0, entries := (List.range n).map fun k => tallyEntry l (o + 8 + 16 * k),
          flags := BitVec.ofNat 5 (fld l (o + 2) 2), expansions := fld l (o + 4) 4, probe := q.2 } :: ls
    else none

/-- Lists a search needs of a shard: each query's, and with PROBE its Heartwood copy's. -/
def listKeys (y : Search) : List (Nat × Bool) :=
  (if y.block.probe then [false, true] else [false]).flatMap fun pr => (List.range y.queries.length).map fun q => (q, pr)

def answerParse (y : Search) (shard : Nat) (l : List Byte) : Option ShardAnswer :=
  if has l 8 then (listsAt l (listKeys y) 8).map fun ls => ⟨shard, w64 (fld l 0 8), ls⟩ else none

/-! ### Merges -/

/-- Lists of one query in merge order: by part or shard in Heartwood and for a probe's copy, in order of completion or arrival in
Sapwood (09 R246, R251, R262). -/
def mergeOrder (sapwood : Bool) (ls : List (Nat × PartList)) : List PartList :=
  (if sapwood then ls else rankSort (fun (a b : Nat × PartList) => decide (a.1 < b.1)) ls).map (·.2)

/-- Union of flags (09 R267). -/
def orFlags (ls : List PartList) : BitVec 5 := ls.foldl (fun f p => f ||| p.flags) 0

/-- The lists of a search merged query by query (09 R246, R262). -/
def mergeAll (y : Search) (lists : List (Nat × PartList)) : List (PartList × MergeOut) :=
  (listKeys y).map fun q =>
    let ls := mergeOrder (y.block.sapwood && !q.2) (lists.filter fun x => x.2.query == q.1 && x.2.probe == q.2)
    let m := mergeLists (ls.map (·.entries)) y.block.k
    (⟨q.1, 0, m.entries, orFlags ls, (ls.map (·.expansions)).sum, q.2⟩, m)

/-- Tally counters of a merge (10 R285). -/
def countMerge (s : State) (i : Nat) (lists : List (Nat × PartList)) (out : List (PartList × MergeOut)) : State :=
  countRows s i out.length ((lists.map fun x => x.2.entries.length).sum) (out.map fun o => o.2.dups).sum (out.countP fun o => o.2.nan)

/-- The result payload (09 R267). -/
def searchResult (x : Index) (y : Search) (out : List PartList) : List Byte :=
  let main := out.filter fun p => !p.probe
  let gens := (List.range 32).flatMap fun k =>
    leBytes 8 (match y.shards.find? fun a => a.shard == k with
      | some a => a.gen.toNat
      | none => 0xFFFFFFFFFFFFFFFF)
  let miss := (y.missing.map (2 ^ ·)).sum
  leBytes 2 y.queries.length ++ leBytes 2 y.block.k ++ [b8 y.index, b8 (boolNat y.block.sapwood), b8 x.shardCount, 0] ++
    leBytes 4 miss ++ leBytes 4 0 ++ gens ++ main.flatMap fun p =>
      let probe := (out.find? fun o => o.probe && o.query == p.query).map (·.entries)
      let hits := match probe with
        | some h => p.entries.countP fun e => h.any fun f => f.id == e.id
        | none => 0
      let flags := p.flags.toNat % 8 + 8 * boolNat (!y.missing.isEmpty) + 16 * boolNat y.block.probe
      leBytes 2 p.entries.length ++ leBytes 2 flags ++ leBytes 4 p.expansions ++ leBytes 2 hits ++ List.replicate 6 0 ++
        p.entries.flatMap entryBytes ++ (List.replicate (y.block.k - p.entries.length) (entryBytes emptyEntry)).flatten

def missingMask (y : Search) : Nat := (y.missing.map (2 ^ ·)).sum

/-! ### The run of a search -/

/-- Forget a search and what runs for it. -/
def cancelSearch (s : State) (id : Nat) : State :=
  let mine := fun (j : Job) => match j.kind with
    | .searchPart n _ _ _ => n == id
    | .shardMerge n => n == id
    | .homeMerge n => n == id
    | _ => false
  { dropJobs (s.dropSearch id) ((s.jobs.filter mine).map (·.id)) with
    calls := s.calls.filter fun c => match c.forWhat with
      | .search n _ => n != id
      | _ => true }

/-- Shards' lists are merged once all have come (09 R262). -/
def searchAdvance (s : State) (id : Nat) : State :=
  match s.search? id with
  | some y => if searchComplete y then queueJob s y.part (searchTicket s y) (ownerCtx y.owner) (.homeMerge id) else s
  | none => s

/-- A search begins at its home (09 R262): parts of the own shard, a PEER_SEARCH for every other. A damaged own shard is missing
(15 R417). -/
def searchBegin (s : State) (i : Nat) (owner : SearchOwner) (x : Index) (b : SearchBlock) (qs : List (List W16)) : State :=
  let id := s.nextId
  let want := shardsWanted x b
  let own := (ownShard x).filter fun k => want.contains k
  let y : Search :=
  { id, owner, part := i, index := x.id, block := b, queries := qs, parts := [], shards := [], wanted := want,
    missing := match own with
      | some k => if x.res.damaged then [k] else []
      | none => [] }
  let s1 := { s with nextId := id + 1, searches := s.searches ++ [y] }
  let s2 := if own.isSome && !x.res.damaged then addParts s1 x y else s1
  let s3 := (want.filter fun k => own != some k).foldl (fun s k => askShard s x y k) s2
  searchAdvance (feedUnits s3) id

/-- Parts of a search still to end. -/
def partsLeft (s : State) (id : Nat) : Bool := s.jobs.any fun j => match j.kind with
  | .searchPart n _ _ _ => n == id
  | _ => false

/-- Counters of an ended part (09 R270). -/
def countPart (s : State) (i : Nat) (o : PartOut) : State :=
  let f := o.list.flags
  bump (bump (bump (bump (bump s .cruExpand i 0 o.expanded) .cruScored i 0 o.scored) .cruNan i 0 o.nans)
    .cruExtend i 0 (boolNat (f.getLsbD 2))) .cruLimit i 0 (boolNat (f.getLsbD 0 || f.getLsbD 1))

/-- Free indices a Sapwood part may use (log 24). -/
def sapwoodSpan (x : Index) : Nat := x.entry.length + x.nodes.length + 128

/-- A part ends (09 R246 to R251), by itself or, with `turns`, at its budget; the last one hands the lists to the Tally. -/
def partEnds (j : Job) (turns : Option Nat) (s : State) : State :=
  match j.kind with
  | .searchPart id q p probe =>
    match s.search? id with
    | none => s.dropJob j.id
    | some y => match partIndex (s.part y.part) y.index with
      | none => s.dropJob j.id
      | some x =>
        let v := (y.queries.getD q []).map widen
        let sap := if y.block.sapwood && !probe then some s.freeIdx else none
        let o := if p = 0 then runPart0 x y.block v q probe sap turns else runSeedPart x y.block v q (p - 1) probe turns
        let s1 := countPart (s.dropJob j.id) y.part o
        let s2 := (if sap.isSome then { s1 with freeIdx := s1.freeIdx + sapwoodSpan x } else s1).modSearch id fun y =>
          { y with parts := y.parts ++ [o.list] }
        if partsLeft s2 id then s2 else addJob s2 y.part j.ticket j.ctx (.shardMerge id)
  | _ => s

/-- A traversal engine has finished a part. -/
def searchPartDone (j : Job) (s : State) : State := partEnds j none s

/-- The parts' lists have been merged into the shard's (09 R246): it goes to the home, here or by the record of PEER_SEARCH. -/
def shardMergeDone (j : Job) (id : Nat) (s : State) : State :=
  match s.search? id with
  | none => s.dropJob j.id
  | some y =>
    let lists := y.parts.map fun p => (p.part, p)
    let out := mergeAll y lists
    let x := partIndex (s.part y.part) y.index
    let a : ShardAnswer := ⟨(x.map (·.shardIndex)).getD 0, (x.map (·.gen)).getD 0, out.map (·.1)⟩
    let s1 := countMerge (s.dropJob j.id) y.part lists out
    match y.owner with
    | .peer t =>
      let n := ((a.lists.filter fun p => !p.probe).map fun p => p.entries.length).sum
      finish (s1.dropSearch id) t .ok (w32 n) (some (answerBytes a))
    | _ => searchAdvance (s1.modSearch id fun y => { y with parts := [], shards := y.shards ++ [a] }) id

/-- The home's merge (09 R262, R267): the search's lists, with what the merge counted. -/
def homeLists (y : Search) : List (Nat × PartList) := y.shards.flatMap fun a => a.lists.map fun p => (a.shard, p)

/-- Counters of a completed search (09 R270). -/
def countSearch (s : State) (y : Search) : State :=
  bump (bump s .cruQueries y.part (boolNat y.block.sapwood) y.queries.length) .cruPartial y.part 0 (boolNat (!y.missing.isEmpty))

/-- A home merge ends: the search and its lists, and the state without it. -/
def homeMerged (j : Job) (id : Nat) (s : State) : State × Option (Search × List PartList) :=
  match s.search? id with
  | none => (s.dropJob j.id, none)
  | some y =>
    let lists := homeLists y
    let out := mergeAll y lists
    (countSearch (countMerge ((s.dropJob j.id).dropSearch id) y.part lists out) y, some (y, out.map (·.1)))

/-- The final record of a SEARCH_SUBMIT (09 R263, R266, R267). -/
def searchRecord (t : Nat) (y : Search) (out : List PartList) (s : State) : State :=
  match partIndex (s.part y.part) y.index with
  | none => finishPlain s t .fault 0
  | some x =>
    let n := ((out.filter fun p => !p.probe).map fun p => p.entries.length).sum
    let bs := searchResult x y out
    if y.missing.isEmpty then finish s t .ok (w32 n) (some bs)
    else finish s t .partialResult (w32 (missingMask y)) (some bs)

/-- A shard is missing (09 R263). -/
def shardMissing (s : State) (id shard : Nat) : State :=
  searchAdvance (s.modSearch id fun y => { y with missing := y.missing ++ [shard] }) id

/-- A peer's answer to a PEER_SEARCH (09 R262, R263). -/
def shardAnswered (s : State) (id shard : Nat) (st : Nat) (bytes : List Byte) : State :=
  match s.search? id with
  | none => s
  | some y =>
    if st != Status.ok.code then shardMissing s id shard
    else match answerParse y shard bytes with
      | some a => searchAdvance (s.modSearch id fun y => { y with shards := y.shards ++ [a] }) id
      | none => shardMissing s id shard

/-! ### SEARCH_SUBMIT, PEER_SEARCH -/

def searchForm (l : List Byte) : Bool :=
  has l 0x28 && decide (fld l 0 1 ≤ 15) && zeroAt l 1 1 && decide (1 ≤ fld l 2 2 ∧ fld l 2 2 ≤ 64) && fld l 4 4 % 8 == 0 &&
  blockForm l 8

/-- Form that needs the index (09 R266). -/
def searchFits (l : List Byte) (x : Index) : Bool :=
  let n := fld l 2 2
  has l (fld l 4 4 + 2 * x.dim * n) && maskFits x (blockParse l 8) &&
    (queriesAt l (fld l 4 4) n x.dim).all fun q => q.all finite16

/-- SEARCH_SUBMIT (09 R254, R266). -/
def cmdSearchSubmit (r : Req) (t : Nat) (s : State) : State :=
  let i := reqPid s r
  let l := r.pay
  let x := findIndex s i (fld l 0 1)
  let b := blockParse l 8
  runCmd .searchSubmit (pairPart s r)
    { Need.pass with
      form := searchForm l && match x with
        | some x => searchFits l x
        | none => true
      state := engineState s r
      found := match x with
        | some x => homeTerms x b
        | none => false }
    (fun t s => match x with
      | some x => searchBegin s i (.command t) x b (queriesAt l (fld l 4 4) (fld l 2 2) x.dim)
      | none => s) r t s

def execSearchSubmit (r : Req) (s : State) : Host.Outcome State Fault Refusal :=
  live s (enter .searchSubmit cmdSearchSubmit r s)

/-- A search of this module's shard for another home (09 R262). -/
def peerSearchBegin (s : State) (i t : Nat) (x : Index) (b : SearchBlock) (qs : List (List W16)) : State :=
  let y : Search :=
  { id := s.nextId, owner := .peer t, part := i, index := x.id, block := b, queries := qs, parts := [], shards := [],
    wanted := [x.shardIndex], missing := [] }
  feedUnits (addParts { s with nextId := s.nextId + 1, searches := s.searches ++ [y] } x y)

/-- PEER_SEARCH (09 R254, R262; layout by log 20). -/
def cmdPeerSearch (r : Req) (t : Nat) (s : State) : State :=
  let i := reqPid s r
  let l := r.pay
  let n := fld l 2 2
  let x := findIndex s i (fld l 0 1)
  let b := blockParse l 8
  runCmd .peerSearch (pairPart s r)
    { Need.pass with
      form := has l 0x28 && decide (1 ≤ n ∧ n ≤ 64) && zeroAt l 4 4 && blockForm l 8 && match x with
        | some x => has l (0x28 + 2 * x.dim * n) && (queriesAt l 0x28 n x.dim).all fun q => q.all finite16
        | none => true
      state := engineState s r
      found := match x with
        | some x => ownShard x == some (fld l 1 1) && termsLoaded x b
        | none => false }
    (fun t s => match x with
      | some x => if x.res.damaged then finish s t .fault 0 none else peerSearchBegin s i t x b (queriesAt l 0x28 n x.dim)
      | none => s) r t s

def execPeerSearch (r : Req) (s : State) : Host.Outcome State Fault Refusal := live s (enter .peerSearch cmdPeerSearch r s)

/-- BudgetUs after its first slice a Sapwood part stops and returns what it has (09 R251); how far it got is a free value (log 24,
log 28). -/
def budgetExpiry (j : Job) (s : State) : State :=
  let n := (Config.freeValue s.freeIdx).toNat
  let s1 := match j.unit with
    | some u => freeUnit s u
    | none => s
  feedUnits (partEnds j (some n) { s1 with freeIdx := s1.freeIdx + 1 })

/-- The Sapwood part whose budget is over (09 R251). -/
def budgetOver (s : State) (job : Nat) : Option Job :=
  (s.job? job).filter fun j => match j.kind, j.started with
    | .searchPart id _ _ probe, some at_ => (s.search? id).any fun y =>
      y.block.sapwood && !probe && decide (at_ + 1000 * y.block.budgetUs ≤ s.now)
    | _, _ => false

/-! ### Changes: the commands -/

/-- Changes are commands of LOADED and SERVING partitions (02 R57). -/
def changeState (s : State) (r : Req) : Bool := (reqPart s r).state == .loaded || (reqPart s r).state == .serving

def addChange (s : State) (i t index : Nat) (k : ChangeKind) : State :=
  s.modPart i fun p => { p with changes := p.changes ++ [⟨t, index, k, p.stepsFormed, false⟩] }

def insertCodes (l : List Byte) : Bool := bit (fld l 1 1) 0

/-- Form of SEARCH_INSERT that needs no index (09 R256, R268). -/
def insertForm (l : List Byte) : Bool :=
  let n := fld l 2 2
  let o := fld l 4 4
  let ids := fldList l o 16 n
  has l 0x10 && decide (fld l 0 1 ≤ 15) && decide (fld l 1 1 < 2) && decide (1 ≤ n) && zeroAt l 0xC 4 && o % 8 == 0 &&
  fld l 8 4 % 8 == 0 && has l (o + 16 * n) &&
  ids.all (fun x => decide (x % 2 ^ 64 < noItem)) && noRepeat (ids.map (· % 2 ^ 64))

/-- Form that needs the index: it is no MAP, the data lie in the payload, elements are finite (09 R256, R269). -/
def insertFits (l : List Byte) (x : Index) : Bool :=
  let n := fld l 2 2
  let o := fld l 8 4
  !x.isMap && if insertCodes l then has l (o + x.subSpaces * n)
    else has l (o + 2 * x.dim * n) && (queriesAt l o n x.dim).all fun q => q.all finite16

/-- Entries of a SEARCH_INSERT, in payload order (09 R256, R268). -/
def insertEntries (l : List Byte) (x : Index) : List Seedling :=
  let n := fld l 2 2
  let o := fld l 4 4
  let d := fld l 8 4
  let vs := if insertCodes l then [] else queriesAt l d n x.dim
  (List.range n).map fun k =>
    { id := fld l (o + 16 * k) 8, members := w64 (fld l (o + 16 * k + 8) 8), deleted := false,
      code := if insertCodes l then bytesAt l (d + x.subSpaces * k) x.subSpaces else encodeVector x ((vs.getD k []).map widen) }

/-- SEARCH_INSERT (09 R256, R268). -/
def cmdSearchInsert (r : Req) (t : Nat) (s : State) : State :=
  let i := reqPid s r
  let x := findIndex s i (fld r.pay 0 1)
  runCmd .searchInsert (pairPart s r)
    { Need.pass with
      form := insertForm r.pay && match x with
        | some x => insertFits r.pay x
        | none => true
      state := changeState s r, found := x.isSome }
    (fun t s => match x with
      | some x => if x.res.damaged then finishPlain s t .fault 0 else addChange s i t x.id (.insert (insertEntries r.pay x))
      | none => s) r t s

def execSearchInsert (r : Req) (s : State) : Host.Outcome State Fault Refusal :=
  live s (enter .searchInsert cmdSearchInsert r s)

def deleteIds (l : List Byte) : List Nat := fldList l 8 8 (fld l 4 4)

/-- SEARCH_DELETE (09 R257, R269). -/
def cmdSearchDelete (r : Req) (t : Nat) (s : State) : State :=
  let i := reqPid s r
  let l := r.pay
  let x := findIndex s i (fld l 0 1)
  runCmd .searchDelete (pairPart s r)
    { Need.pass with
      form := has l 8 && decide (fld l 0 1 ≤ 15) && zeroAt l 1 3 && decide (1 ≤ fld l 4 4 ∧ fld l 4 4 ≤ 1048576) &&
        has l (8 + 8 * fld l 4 4) && (deleteIds l).all (fun n => decide (n ≤ noItem)) && match x with
          | some x => !x.isMap
          | none => true
      state := changeState s r, found := x.isSome }
    (fun t s => match x with
      | some x => if x.res.damaged then finishPlain s t .fault 0 else addChange s i t x.id (.delete (deleteIds l))
      | none => s) r t s

def execSearchDelete (r : Req) (s : State) : Host.Outcome State Fault Refusal :=
  live s (enter .searchDelete cmdSearchDelete r s)

/-- A planting of the shard runs or is pending (09 R260). -/
def plantingOn (s : State) (i : Nat) (x : Index) : Bool :=
  x.planting.isSome || (s.part i).changes.any fun c => c.index == x.id && match c.kind with
    | .plantStart _ => true
    | _ => false

/-- PLANT_START (09 R260, R269). -/
def cmdPlantStart (r : Req) (t : Nat) (s : State) : State :=
  let i := reqPid s r
  let l := r.pay
  let x := findIndex s i (fld l 0 1)
  let ef := fld l 2 2
  runCmd .plantStart (pairPart s r)
    { Need.pass with
      form := has l 8 && decide (fld l 0 1 ≤ 15) && zeroAt l 1 1 && zeroAt l 4 4 && decide (ef ≤ 4096) && match x with
        | some x => !x.isMap && decide (x.degree ≤ ef)
        | none => true
      state := changeState s r && match x with
        | some x => !plantingOn s i x
        | none => true
      found := x.isSome }
    (fun t s => match x with
      | some x => if x.res.damaged then finishPlain s t .fault 0 else addChange s i t x.id (.plantStart ef)
      | none => s) r t s

def execPlantStart (r : Req) (s : State) : Host.Outcome State Fault Refusal := live s (enter .plantStart cmdPlantStart r s)

/-- A traversal engine has finished the planting's workspace (09 R260). -/
def plantingReady (j : Job) (index : Nat) (s : State) : State :=
  let s1 := modIndex (s.dropJob j.id) j.part index fun x => { x with planting := x.planting.map fun p => { p with done := true } }
  match partIndex (s.part j.part) index with
  | some x => match x.planting with
    | some pl => bump s1 .cruNan j.part 0 (plantIndex x pl).2
    | none => s1
  | none => s1

/-- The switch falls due as a change (09 R260). -/
def plantingDue (i index : Nat) (s : State) : State :=
  match partIndex (s.part i) index with
  | some x => match x.planting with
    | some pl =>
      if pl.done && !(s.part i).changes.any (fun c => c.index == index && c.kind == .plantSwitch) then
        addChange s i pl.ticket index .plantSwitch
      else s
    | none => s
  | none => s

def execPlantingDone (part index : Nat) (s : State) : Host.Outcome State Fault Refusal := live s (plantingDue part index s)

/-! ### Changes: their application (09 R255) -/

/-- Bytes of a Seedling entry (09 R258). -/
def seedSize (x : Index) : Nat := 16 + 8 * cdiv x.subSpaces 8

def seedBytes (e : Seedling) : List Byte :=
  leBytes 8 (e.id + if e.deleted then 2 ^ 63 else 0) ++ leBytes 8 e.members.toNat ++ padTo 8 e.code

/-- `n` free frames of a partition's T1, lowest first (log 17). -/
def freeFrames (s : State) (i n : Nat) : Option (List Nat) :=
  let used := usedPages s i
  let l := ((List.range (s.part i).frames.length).filter fun f => used.all fun u => !rangesMeet (16 * f, 16) u).take n
  if l.length = n then some l else none

/-- Store bytes at an offset of a structure that lies in the given frames. -/
def storeIn (s : State) (i : Nat) (frames : List Nat) (off : Nat) (bs : List Byte) : State :=
  (chunks frameBytes off bs.length).foldl (fun s c =>
    s.t1Store i (frames.getD (c.1 / frameBytes) 0 * frameBytes + c.1 % frameBytes) ((bs.drop (c.1 - off)).take c.2)) s

/-- Store Seedling entries from position `k` on (09 R258). -/
def storeSeeds (s : State) (i index k : Nat) (es : List Seedling) : State :=
  match partIndex (s.part i) index with
  | some x => storeIn s i x.seedFrames (k * seedSize x) (es.flatMap seedBytes)
  | none => s

/-- An adjacency record (09 R241). -/
def adjRecord (degree : Nat) (v : Node) : List Byte :=
  padTo 4 (leBytes 4 (v.adj.length + 2 ^ 31 * boolNat v.vacant) ++
    (List.range degree).flatMap fun k => leBytes 5 (v.adj.getD k noItem))

/-- Bytes of a planted node in T1: its adjacency record, its code, its id and its bitmap members (09 R260; log 97). -/
def plantedBytes (x : Index) : Nat := adjBytes x.degree + x.subSpaces + 16

/-- Store one node where it lies: a node of the image in its adjacency record and its byte of the stump bitmap, a planted one in
the frames of planted nodes (09 R241, R260; log 97). -/
def storeNode (i : Nat) (x : Index) (s : State) (u : Nat) : State :=
  let v := x.node u
  let base := x.res.frame * frameBytes
  if u < x.imageNodes then
    let bits := (List.range 8).map fun k => decide (8 * (u / 8) + k < x.imageNodes) && (x.node (8 * (u / 8) + k)).stump
    (s.t1Store i (base + x.adjOffset + u * adjBytes x.degree) (adjRecord x.degree v)).t1Store i (base + x.stumpOffset + u / 8)
      [b8 ((bits.zipIdx.map fun b => boolNat b.1 * 2 ^ b.2).sum)]
  else
    let members := (List.range 64).map fun b => boolNat (nodeMember x u b) * 2 ^ b
    storeIn s i x.plantFrames ((u - x.imageNodes) * plantedBytes x) (adjRecord x.degree v ++ v.code ++
      leBytes 8 (v.id + 2 ^ 63 * boolNat v.stump) ++ leBytes 8 members.sum)

/-- Store the nodes of a shard that a change altered (09 R257, R260). -/
def storeNodes (s : State) (i : Nat) (old new : Index) : State :=
  ((List.range new.nodes.length).filter fun u => decide (old.nodes[u]? ≠ new.nodes[u]?)).foldl (storeNode i new) s

/-- Is an id live in the shard (09 R256)? -/
def liveId (x : Index) (id : Nat) : Bool :=
  (x.nodes.any fun n => n.id == id && !n.stump) || x.seed.any fun e => e.id == id && !e.deleted

/-- What an applied change leaves: the state, and the record of its command if it has one now. -/
def insertApply (s : State) (i : Nat) (x : Index) (t : Nat) (es : List Seedling) : State :=
  let total := x.seed.length + es.length
  let need := cdiv (total * seedSize x) frameBytes - x.seedFrames.length
  if es.any fun e => liveId x e.id then finishPlain s t .invalid 0
  else if 67108864 < total then finishPlain s t .noSpace 0
  else match freeFrames s i need with
    | none => finishPlain s t .noSpace 0
    | some fs =>
      let s1 := modIndex s i x.id fun x => { x with seed := x.seed ++ es, seedFrames := x.seedFrames ++ fs, gen := x.gen + 1 }
      finishPlain (storeSeeds s1 i x.id x.seed.length es) t .ok es.length

/-- One id of a SEARCH_DELETE (09 R257): the shard and whether it was live. -/
def deleteOne (x : Index) (id : Nat) : Index × Bool :=
  if x.nodes.any fun n => n.id == id && !n.stump then
    ({ x with nodes := x.nodes.map fun n => if n.id = id then { n with stump := true } else n }, true)
  else if x.seed.any fun e => e.id == id && !e.deleted then
    ({ x with seed := x.seed.map fun e => if e.id = id then { e with deleted := true } else e }, true)
  else (x, false)

def deleteApply (s : State) (i : Nat) (x : Index) (t : Nat) (ids : List Nat) : State :=
  let r := ids.foldl (fun (acc : Index × List Nat) id =>
    let d := deleteOne acc.1 id
    (d.1, if d.2 then acc.2 ++ [id] else acc.2)) (x, [])
  let y := { r.1 with gen := x.gen + 1, planting := r.1.planting.map fun p => { p with deletedIds := p.deletedIds ++ r.2 } }
  let s1 := modIndex s i x.id fun _ => y
  finishPlain (storeNodes (storeSeeds s1 i x.id 0 y.seed) i x y) t .ok r.2.length

/-- Bytes of a bitmap object for N nodes (09 R253). -/
def bitmapBytes (n : Nat) : Nat := alignUp 64 (cdiv n 8)

def bitmapApply (s : State) (i : Nat) (x : Index) (t b : Nat) (chipper : Bool) (res : Residence) (bytes : List Byte) : State :=
  let n := x.nodes.length
  let want := if chipper then alignUp 4096 (bitmapBytes n) else bitmapBytes n
  if res.len ≠ want then loadFail s i t .invalid 0
  else
    let members := (List.range n).map fun k => (bytes.getD (k / 8) 0).getLsbD (k % 8)
    let s1 := modIndex s i x.id fun x => { x with
      bitmaps := setKey x.bitmaps b members, bitRes := setKey x.bitRes b res, gen := x.gen + 1 }
    let s2 := s1.modPart i fun p => { p with reserved := p.reserved.filter fun e => e.1 != t }
    finishPlain (s2.t1Store i (res.frame * frameBytes) bytes) t .ok x.id

/-- Workspace of a planting (09 R260). -/
def workspaceBytes (x : Index) : Nat :=
  let live := x.seed.countP fun e => !e.deleted
  let z := x.nodes.countP (·.stump)
  (live * (1 + x.degree) + z * x.degree) * adjBytes x.degree + live * (x.subSpaces + 16)

/-- Planting starts on a snapshot (09 R259). -/
def plantApply (s : State) (i : Nat) (x : Index) (t ef : Nat) : State :=
  if 4294967295 < x.nodes.length + x.seed.countP (fun e => !e.deleted) then finishPlain s t .noSpace 0
  else match freeFrames s i (cdiv (workspaceBytes x) frameBytes) with
    | none => finishPlain s t .noSpace 0
    | some fs =>
      let pl : Planting :=
      { ticket := t, plantEf := ef, snapStumps := x.nodes.map (·.stump), p0 := x.seed.length, snapSeed := x.seed,
        deletedIds := [], done := false }
      addJob (modIndex s i x.id fun x => { x with planting := some pl, workFrames := fs }) i t none (.planting x.id)

/-- The switch (09 R260): the changed records and the planted nodes are copied into place. -/
def switchApply (s : State) (i : Nat) (x : Index) (t : Nat) : State :=
  match x.planting with
  | none => s
  | some pl =>
    let y := plantSwitch x pl
    let n := plantCount x pl
    let y := { y with
      seedFrames := y.seedFrames.take (cdiv (y.seed.length * seedSize y) frameBytes)
      plantFrames := x.plantFrames ++ x.workFrames.take
        (cdiv ((y.nodes.length - x.imageNodes) * plantedBytes x) frameBytes - x.plantFrames.length) }
    let s1 := storeNodes (storeSeeds (modIndex s i x.id fun _ => y) i x.id 0 y.seed) i x y
    finishPlain (bump s1 .cruPlanted i 0 n) t .ok n

/-- Apply one change (09 R255). -/
def applyChange (s : State) (i : Nat) (c : Change) : State :=
  let s := s.modPart i fun p => { p with changes := p.changes.filter fun e => !(e.ticket == c.ticket && e.kind == c.kind) }
  match partIndex (s.part i) c.index with
  | none => finishPlain s c.ticket .fault 0
  | some x => match c.kind with
    | .insert es => insertApply s i x c.ticket es
    | .delete ids => deleteApply s i x c.ticket ids
    | .bitmapLoad b ch res bytes => bitmapApply s i x c.ticket b ch res (bytes.getD [])
    | .bitmapUnload b =>
      finishPlain (modIndex s i x.id fun x => { x with
        bitmaps := eraseKey x.bitmaps b, bitRes := eraseKey x.bitRes b, gen := x.gen + 1 }) c.ticket .ok x.id
    | .plantStart ef => plantApply s i x c.ticket ef
    | .plantSwitch => switchApply s i x c.ticket

/-- The bytes a change needs are here: a bitmap still on its way waits, with the changes behind it. -/
def changeReady (c : Change) : Bool := match c.kind with
  | .bitmapLoad _ _ _ b => b.isSome
  | _ => true

/-- A search of the shard is in flight: it has begun (09 R255; log 61). -/
def shardSearched (s : State) (i index : Nat) : Bool :=
  s.searches.any fun y => y.part == i && y.index == index && searchBegun s y

/-- Changes of one shard in order while no search of it is in flight; else they hold back further parts (09 R255). A change acts
no earlier than the boundary of the last step formed when it was taken (11 R290). -/
def applyChanges (i index : Nat) : Nat → State → State
  | 0, s => s
  | n + 1, s =>
    match (s.part i).changes.find? fun c => c.index == index with
    | none => s
    | some c =>
      if !changeReady c || decide ((s.part i).stepsDone < c.atStep) then s
      else if shardSearched s i index then
        s.modPart i fun p => { p with changes := p.changes.map fun e => if e.index = index then { e with seen := true } else e }
      else applyChanges i index n (applyChange s i c)

/-- Parts that the applied changes added to searches that have not begun (09 R246). -/
def replanParts (s : State) (i : Nat) : State :=
  (s.searches.filter fun y => y.part == i && !searchBegun s y && partsLeft s y.id).foldl (fun s y =>
    match partIndex (s.part i) y.index with
    | some x => addParts s x y
    | none => s) s

/-- Index changes of a partition at a boundary (09 R255; 11 R290 order 2). -/
def boundaryChanges (i : Nat) (s : State) : State :=
  let n := (s.part i).changes.length
  feedUnits (replanParts ((s.part i).indexes.foldl (fun s x => applyChanges i x.id n s) s) i)

/-- A boundary formed only for changes and epochs, in LOADED or SERVING with no step in progress (08 R232, 09 R255). -/
def changeBoundary (i : Nat) (s : State) : State :=
  let p := s.part i
  if (p.state == .loaded || p.state == .serving) && decide (p.stepsDone = p.stepsFormed) then boundaryEpochs i (boundaryChanges i s)
  else s

def execChangeBoundary (part : Nat) (s : State) : Host.Outcome State Fault Refusal := live s (changeBoundary part s)

end Sys2Proof.Machine
end

