-- ==== Sys2Proof/Machine/Global.lean ====
section
/-! DEFINITION. Domains, trees and the four global operations (12 R326 to R342): joining, tokens going up and down, completion,
snapshots, aligned barriers and group resets. -/

namespace Sys2Proof.Machine

/-! ### Trees (12 R327, R328) -/

def treeParent (p : Nat) : Nat := (p - 1) / 8

def treeChildren (n p : Nat) : List Nat := ((List.range 8).map (8 * p + 1 + ·)).filter fun c => decide (c < n)

/-- Level of a position; the tree is never deeper than 4. -/
def depthOf (p : Nat) : Nat := if p = 0 then 0 else if p ≤ 8 then 1 else if p ≤ 72 then 2 else if p ≤ 584 then 3 else 4

/-- Depth D of a tree (12 R328). -/
def treeDepth (n : Nat) : Nat := depthOf (n - 1)

/-- Is `q` in the subtree of `p`? -/
def inSubtree (p q : Nat) : Bool :=
  q == p || treeParent q == p && q != 0 || treeParent (treeParent q) == p && decide (8 < q) ||
    treeParent (treeParent (treeParent q)) == p && decide (72 < q) || (p == 0)

/-- Members in the subtree of `p`. -/
def subtreeSize (n p : Nat) : Nat := (List.range n).countP (inSubtree p)

/-! ### The command (12 R326, R333) -/

def globalKind : Code → Nat
  | .barrierJoin => 1
  | .broadcastSend => 2
  | .snapshotTake => 3
  | _ => 4

/-- Members named by a payload: module and partition. -/
def globalMembers (l : List Byte) : List (Nat × Nat) :=
  (List.range (fld l 8 4)).map fun k => (fld l (fld l 0x14 4 + 4 * k) 2, fld l (fld l 0x14 4 + 4 * k + 2) 1)

def memberKey (m : Nat × Nat) : Nat := m.1 * 256 + m.2

/-- Form of a global command (12 R326, R333, R340, R342). -/
def globalForm (s : State) (i : Nat) (c : Code) (l : List Byte) : Bool :=
  let n := fld l 8 4
  let ms := globalMembers l
  let flags := fld l 2 1
  let align := bit flags 0
  let ad := fld l 0x10 4
  let me := (s.myId.toNat, i)
  let root := ms.head? == some me
  let dl := fld l 0x1C 4
  has l 0x20 && decide (flags < 4) && (!align || c == .barrierJoin) && (!bit flags 1 || c == .groupReset) &&
  decide (fld l 3 1 ≤ if c == .groupReset then 1 else 0) && decide (1 ≤ fld l 4 4) && decide (1 ≤ n ∧ n ≤ 4096) &&
  decide (1 ≤ fld l 0xC 4 ∧ fld l 0xC 4 ≤ 60000) &&
  (if align then decide (4096 ≤ ad ∧ ad ≤ 1000000 ∧ 650 * treeDepth n ≤ ad) else ad == 0) &&
  fld l 0x14 4 % 8 == 0 && has l (fld l 0x14 4 + 4 * n) &&
  (List.range n).all (fun k => zeroAt l (fld l 0x14 4 + 4 * k + 3) 1) && ascending (ms.map memberKey) && ms.contains me &&
  (if c == .broadcastSend && root then decide (1 ≤ dl ∧ dl ≤ 65536) && has l (fld l 0x18 4 + dl)
    else dl == 0 && fld l 0x18 4 == 0) &&
  (!(c == .groupReset && fld l 3 1 == 1) || (List.range 32).all fun k =>
    (s.part k).state == .unbound || ms.contains (s.myId.toNat, k))

/-- DomainCheck (12 R334). -/
def domainCheck (c : Code) (l : List Byte) : W32 :=
  w32 (leNat ((sha384 (leBytes 2 c.num ++ bytesAt l 0 0x14 ++ bytesAt l (fld l 0x14 4) (4 * fld l 8 4))).take 4))

def globalOp (c : Code) (l : List Byte) (t : Nat) : GlobalOp :=
  { ticket := t, code := c, domain := fld l 0 2, epoch := fld l 4 4, members := globalMembers l, flags := b8 (fld l 2 1),
    scope := fld l 3 1, timeoutMs := fld l 0xC 4, alignDelay := fld l 0x10 4,
    data := bytesAt l (fld l 0x18 4) (fld l 0x1C 4), check := domainCheck c l, joinedAt := none, captured := none, ups := [],
    sentUpAt := none, released := none, resetDue := false }

def modGlobal (s : State) (i t : Nat) (f : GlobalOp → GlobalOp) : State :=
  s.modPart i fun p => { p with globals := p.globals.map fun g => if g.ticket = t then f g else g }

/-- Not yet completed by DOWN or its own timeout. -/
def GlobalOp.open_ (g : GlobalOp) : Bool := g.released.isNone && !g.resetDue

/-- This member's position. -/
def opPos (s : State) (i : Nat) (g : GlobalOp) : Nat := (g.members.idxOf? (s.myId.toNat, i)).getD 0

/-! ### Tokens (12 R331) -/

def memberBytes (m : Nat × Nat) : List Byte := leBytes 2 m.1 ++ [b8 m.2, 0]

/-- Four member entries, the unused ones all ones. -/
def fourMembers (ms : List (Nat × Nat)) : List Byte :=
  ((ms.take 4).flatMap memberBytes) ++ List.replicate (16 - 4 * (ms.take 4).length) 0xFF

def classBytes (c : DigestClass) : List Byte :=
  leBytes 8 c.digest.toNat ++ leBytes 4 c.count ++ [b8 c.ids.length, 0, 0, 0] ++ fourMembers c.ids

/-- Four class records, zeros from the count up. -/
def fourClasses (cs : List DigestClass) : List Byte := bytesAt ((cs.take 4).flatMap classBytes) 0 128

/-- What a token says of a subtree or of the whole tree. -/
structure TokenSum where
  flags : Byte
  covered : Nat
  missingCount : Nat
  missing : List (Nat × Nat)
  classes : List DigestClass
  deriving DecidableEq, Repr

def tokenBytes (s : State) (i : Nat) (g : GlobalOp) (down : Bool) (x : TokenSum) (dataLen : Nat) : List Byte :=
  [if down then 2 else 1, b8 (globalKind g.code), x.flags, b8 x.classes.length] ++ leBytes 2 g.domain ++
    leBytes 2 s.myId.toNat ++ [b8 i, b8 (depthOf (opPos s i g)), 0, 0] ++ leBytes 4 g.epoch ++
    leBytes 8 (s.part i).digest.toNat ++ leBytes 4 g.check.toNat ++ leBytes 4 x.covered ++ leBytes 4 x.missingCount ++
    leBytes 4 dataLen ++ leBytes 8 0 ++ fourClasses x.classes ++ fourMembers x.missing

def membersAt (l : List Byte) (o n : Nat) : List (Nat × Nat) :=
  (List.range n).map fun k => (fld l (o + 4 * k) 2, fld l (o + 4 * k + 2) 1)

def tokenSum (l : List Byte) : TokenSum :=
  { flags := b8 (fld l 2 1), covered := fld l 0x1C 4, missingCount := fld l 0x20 4,
    missing := (membersAt l 0xB0 4).filter fun m => m != (0xFFFF, 0xFF),
    classes := (List.range (min 4 (fld l 3 1))).map fun k =>
      let o := 0x30 + 32 * k
      ⟨w64 (fld l o 8), fld l (o + 8) 4, membersAt l (o + 0x10) (min 4 (fld l (o + 0xC) 1))⟩ }

/-- A token on its way: the member it goes to and its bytes. -/
abbrev Outgoing := (Nat × Nat) × List Byte

/-! ### Merging (12 R332) -/

/-- The 4 lowest of a union of member lists. -/
def lowestFour (a b : List (Nat × Nat)) : List (Nat × Nat) :=
  (rankSort (fun (x y : Nat × Nat) => decide (memberKey x < memberKey y)) (distinct (a ++ b))).take 4

/-- `add` of 12 R332. -/
def addClass (cs : List DigestClass) (c : DigestClass) : List DigestClass :=
  if cs.any fun x => x.digest == c.digest then
    cs.map fun x => if x.digest = c.digest then ⟨x.digest, x.count + c.count, lowestFour x.ids c.ids⟩ else x
  else cs ++ [c]

def classBefore (a b : DigestClass) : Bool :=
  decide (b.count < a.count) || (a.count == b.count && decide ((a.ids.map memberKey).headD 0 < (b.ids.map memberKey).headD 0))

/-- Bits of Flags: CHECK_FAIL, DROPPED, TIMEOUT, MISMATCH (12 R331). -/
def tokFlags (check dropped timeout mismatch : Bool) : Byte :=
  b8 (8 * boolNat check + 4 * boolNat dropped + 2 * boolNat timeout + boolNat mismatch)

/-- The subtree's sum at a member (12 R332, R336): own class first, then the children's by position. -/
def mergeUps (s : State) (i : Nat) (g : GlobalOp) : TokenSum :=
  let pos := opPos s i g
  let own : DigestClass := ⟨(s.part i).digest, 1, [(s.myId.toNat, i)]⟩
  let ups := rankSort (fun (a b : UpSummary) => decide (a.pos < b.pos)) g.ups
  let cs := rankSort classBefore ((ups.flatMap (·.classes)).foldl addClass [own])
  let cs := if pos = 0 then (cs.filter fun c => c.digest == own.digest) ++ cs.filter fun c => c.digest != own.digest else cs
  let f := ups.foldl (fun b u => b ||| u.flags) 0
  let flags := f ||| tokFlags false (decide (4 < cs.length)) false (decide (pos = 0) && decide (1 < cs.length))
  { flags, covered := 1 + (ups.map (·.covered)).sum, missingCount := (ups.map (·.missingCount)).sum,
    missing := lowestFour (ups.flatMap (·.missing)) [], classes := cs.take 4 }

/-! ### Completion (12 R337, R338) -/

/-- Status of an operation by the flags of DOWN (12 R337). -/
def opStatus (f : Byte) : Status :=
  if f.getLsbD 3 then .invalid else if f.getLsbD 1 then .timeout else if f.getLsbD 0 then .digestMismatch else .ok

/-- The result block (12 R338). -/
def resultBlock (g : GlobalOp) (x : TokenSum) (release fire : Nat) : List Byte :=
  leBytes 4 g.epoch ++ leBytes 2 g.code.num ++ [x.flags, b8 x.classes.length] ++ leBytes 4 x.covered ++
    leBytes 4 x.missingCount ++ leBytes 8 release ++ leBytes 8 fire ++ fourClasses x.classes ++ fourMembers x.missing ++
    List.replicate 16 0

/-- Calls that a snapshot held back are sent, once no other snapshot of the partition holds them (12 R341). -/
def releaseHeld (s : State) (i : Nat) : State :=
  if (s.part i).globals.any fun g => g.code == .snapshotTake && g.captured.isSome then s else
  let mine := s.calls.filter fun c => c.part == i && c.held
  let s1 := { s with calls := s.calls.map fun c => if c.part = i ∧ c.held then { c with held := false, issued := s.now } else c }
  mine.foldl (fun s c => sendPeer s i (w16 c.target) c.code c.tag c.pay) s1

def dropGlobal (s : State) (i t : Nat) : State :=
  s.modPart i fun p => { p with globals := p.globals.filter fun g => g.ticket != t }

/-- A step of the partition is in progress (11 R289). -/
def stepRunning (p : Partition) : Bool := decide (p.stepsDone < p.stepsFormed)

/-- A released barrier whose partition leaves SERVING before its aligned step: LcFire is 0 (12 R339). -/
def alignDropped (s : State) (i : Nat) : State :=
  ((s.part i).globals.filter fun g => g.released.isSome).foldl (fun s g => match g.released with
    | some (_, block) => finish (dropGlobal s i g.ticket) g.ticket .ok (w32 g.epoch) (some block)
    | none => s) s

/-- The local reset of Scope PARTITION (12 R342): every request ends in the free regime, a control still waiting
finds none (11 R489), and the partition enters LOADED. -/
def partitionReset (s : State) (i t : Nat) : State :=
  let s1 := alignDropped (dropGlobal s i t) i
  let s2 := (inFlight s1 i).foldl (fun s c => endRequest s c.id .ok .cancelledFreed) s1
  let s3 := ((s2.part i).controls.map (·.ticket)).foldl (fun s t => finishPlain s t .notFound 0) s2
  s3.modPart i fun p =>
    if p.state == .serving || p.state == .draining then
      { p with state := loadedOr p, serve := none, warm := false, recovering := [], controls := [], steps := [], stepsDone := p.stepsFormed }
    else p

/-- Counters of a completed operation (12 R343); `down` is the count at which DOWN arrived. -/
def countOp (s : State) (i : Nat) (g : GlobalOp) (st : Status) (down : Option Nat) : State :=
  bumpMax (bump (bump s .blazeMismatch i 0 (boolNat (st == .digestMismatch))) .blazeTimeout i 0
    (boolNat (st == .timeout))) .blazeWaitMax i 0 (down.getD 0 - g.joinedAt.getD 0)

/-- An operation completes at this member (12 R337 to R342); `data` are the bytes a broadcast's DOWN carried. -/
def completeOp (s : State) (i : Nat) (g : GlobalOp) (x : TokenSum) (release : Nat) (data : List Byte) : State :=
  let st := opStatus x.flags
  let rel := st == .ok || st == .digestMismatch
  let extra := match g.code with
    | .broadcastSend => if st == .ok then data else []
    | .snapshotTake => if rel then g.captured.getD [] else []
    | _ => []
  let block := resultBlock g x release 0
  let s1 := countOp s i g st (if x.classes.isEmpty then none else some s.now)
  let fin := fun (s : State) => finish s g.ticket st (w32 g.epoch) (some (block ++ extra))
  if g.code == .barrierJoin && g.flags.getLsbD 0 && st == .ok && (s.part i).state == .serving then
    let pos := opPos s i g
    modGlobal s1 i g.ticket fun g =>
      { g with released := some (release + g.alignDelay - 650 * depthOf pos, resultBlock g x release 0) }
  else if g.code == .groupReset && (st == .ok || (st == .digestMismatch && g.flags.getLsbD 1)) then
    if g.scope = 1 then
      let s2 := dropGlobal (fin s1) i g.ticket
      { s2 with boot := { s2.boot with resetDue := true, resetTicket := g.ticket } }
    else
      let s2 := fin (modGlobal s1 i g.ticket fun g => { g with resetDue := true })
      if stepRunning (s2.part i) then s2 else partitionReset s2 i g.ticket
  else
    let s2 := dropGlobal (fin s1) i g.ticket
    if g.code == .snapshotTake then releaseHeld s2 i else s2

/-- The aligned launch of a released barrier fires (12 R339): its final record, with LcFire. -/
def alignFired (s : State) (i t : Nat) : State :=
  match (s.part i).globals.find? fun g => g.ticket == t with
  | some g => match g.released with
    | some (_, block) =>
      finish (dropGlobal s i t) t .ok (w32 g.epoch) (some (block.take 0x18 ++ leBytes 8 s.now ++ block.drop 0x20))
    | none => s
  | none => s

/-! ### The pass up and the pass down (12 R332, R336) -/

/-- Tokens to the children of a member. -/
def toChildren (g : GlobalOp) (pos : Nat) (bytes : List Byte) : List Outgoing :=
  (treeChildren g.members.length pos).map fun c => (g.members.getD c (0, 0), bytes)

/-- The member completes on its own with ST_TIMEOUT (12 R336 to R338); what its result would take from DOWN is a free value
(log 62). -/
def ownTimeout (s : State) (i : Nat) (g : GlobalOp) : State :=
  let f := fun k => (Config.freeValue (s.freeIdx + k)).toNat
  let x : TokenSum := ⟨tokFlags false false true false, f 0 % 2 ^ 32, f 1 % 2 ^ 32, [], []⟩
  completeOp { s with freeIdx := s.freeIdx + 3 } i g x (f 2) []

/-- Silent children among `gone` count as timed out: the size of each one's subtree is missing (12 R336). -/
def giveUpOn (s : State) (i : Nat) (g : GlobalOp) (gone : Nat → Bool) : GlobalOp :=
  let pos := opPos s i g
  let silent := (treeChildren g.members.length pos).filter fun c => g.ups.all (fun u => u.pos != c) && gone c
  { g with
    ups := g.ups ++ silent.map fun c =>
      { pos := c, classes := [], flags := tokFlags false false true false, covered := 0,
        missingCount := subtreeSize g.members.length c, missing := [g.members.getD c (0, 0)] } }

/-- Has the module of a member been declared lost (15 R420)? -/
def memberLost (s : State) (g : GlobalOp) (c : Nat) : Bool := s.lost.contains (w16 (g.members.getD c (0, 0)).1)

/-- A member whose turn it is sends UP, or at the root sends DOWN and completes (12 R332, R341). Of a lost neighbour nothing is
waited for (12 R336). -/
def tryUp (s : State) (i : Nat) (g : GlobalOp) : State × List Outgoing :=
  let g := giveUpOn s i g (memberLost s g)
  let pos := opPos s i g
  let kids := treeChildren g.members.length pos
  let ready := g.open_ && g.joinedAt.isSome && g.sentUpAt.isNone && kids.all (fun c => g.ups.any fun u => u.pos == c) &&
    (g.code != .snapshotTake || g.captured.isSome)
  if !ready then (modGlobal s i g.ticket fun _ => g, [])
  else
    let x := mergeUps s i g
    if pos = 0 then
      let out := toChildren g 0 (tokenBytes s i g true x g.data.length ++ g.data)
      (completeOp (bump s .blazeSent i 0 out.length) i g x s.now g.data, out)
    else
      let g1 := { g with sentUpAt := some s.now }
      let s1 := modGlobal (bump s .blazeSent i 0 1) i g.ticket fun _ => g1
      (if memberLost s g (treeParent pos) then ownTimeout s1 i g1 else s1,
        [(g.members.getD (treeParent pos) (0, 0), tokenBytes s i g false x 0)])

/-- The operation of a domain and epoch that this member has joined. -/
def joinedOp (s : State) (i domain epoch : Nat) : Option GlobalOp :=
  (s.part i).globals.find? fun g => g.open_ && g.joinedAt.isSome && g.domain == domain && g.epoch == epoch

/-- A token reaches a member that has joined its epoch (12 R332, R334, R335). -/
def takeToken12 (s : State) (i : Nat) (g : GlobalOp) (l : List Byte) : State × List Outgoing :=
  let pos := opPos s i g
  let sender := (fld l 6 2, fld l 8 1)
  let x := tokenSum l
  if fld l 0 1 = 1 then
    match (treeChildren g.members.length pos).find? fun c => g.members.getD c (0, 0) == sender && g.ups.all fun u => u.pos != c with
    | some c =>
      let fail := w32 (fld l 0x18 4) != g.check
      let u : UpSummary :=
      { pos := c, classes := x.classes, flags := x.flags ||| tokFlags fail false false false, covered := x.covered,
        missingCount := x.missingCount, missing := x.missing }
      let g1 := { g with ups := g.ups ++ [u] }
      tryUp (modGlobal s i g.ticket fun _ => g1) i g1
    | none => (bump s .blazeDrop i 0 1, [])
  else if pos != 0 && g.members.getD (treeParent pos) (0, 0) == sender then
    let data := bytesAt l 192 (fld l 0x24 4)
    let out := toChildren g pos (tokenBytes s i g true x data.length ++ data)
    (completeOp (bump s .blazeSent i 0 out.length) i g x s.now data, out)
  else (bump s .blazeDrop i 0 1, [])

/-- A token for a partition (12 R335): taken, held until its epoch is joined, or dropped. -/
def tokenAt (s : State) (i : Nat) (f : Frame) : State × List Outgoing :=
  let l := f.data
  let p := s.part i
  let domain := fld l 4 2
  let epoch := fld l 0xC 4
  let s := bump s .blazeReceived i 0 1
  match joinedOp s i domain epoch with
  | some g => takeToken12 s i g l
  | none =>
    let deferred := p.globals.any fun g => g.open_ && g.joinedAt.isNone && g.domain == domain && g.epoch == epoch
    if p.state == .unbound || (!deferred && decide (epoch ≤ lookupD p.lastEpochs domain 0)) || decide (64 ≤ p.heldTokens.length) then
      (bump s .blazeDrop i 0 1, [])
    else (s.modPart i fun p => { p with heldTokens := p.heldTokens ++ [f] }, [])

def blazeFrame (i : Nat) (o : Outgoing) : Frame :=
  mkFrame .blaze (w16 o.1.1) (b8 o.1.2) (b8 i) 0 (w32 o.2.length) 0 o.2

/-- Tokens go out: to other modules by frames, the data of a broadcast in class LINK (01 R16), to partitions of this one directly;
at most `fuel` of them. -/
def deliver : Nat → State → List (Nat × Outgoing) → State
  | 0, s, _ => s
  | _, s, [] => s
  | fuel + 1, s, (i, o) :: rest =>
    if w16 o.1.1 = s.myId then
      let r := tokenAt s o.1.2 { blazeFrame i o with src := s.myId }
      deliver fuel r.1 (rest ++ r.2.map fun x => (o.1.2, x))
    else deliver fuel (sendFrame (charge s i .link (o.2.length - 192)) 0 (blazeFrame i o)) rest

/-- More tokens than one event can make: every partition's operations, each with 8 children. -/
def deliverFuel : Nat := 8192

def deliverAll (s : State) (i : Nat) (os : List Outgoing) : State := deliver deliverFuel s (os.map fun o => (i, o))

/-- A Blaze token waits on a port in use, or is not acknowledged there. -/
def tokensWait (s : State) : Bool :=
  s.ports.any fun p => (p.state == .up || p.state == .retiring) && (!p.blazeQ.isEmpty || p.replay.any fun x => match x.what with
    | .data _ f => f.kind == .blaze
    | .ctl _ => false)

/-- The record of the GROUP_RESET that is to reset the module is not posted: it waits for a place in the ring or for room in the
result region (02 R46, R47). -/
def resetRecordWaits (s : State) : Bool :=
  s.cmds.any (fun c => c.ticket == s.boot.resetTicket && c.roomWait.isSome) ||
    s.pairs.any fun p => p.waiting.any fun r => r.ticket == s.boot.resetTicket

/-- A GROUP_RESET of Scope MODULE resets the module when its record is posted and its DOWN tokens have left (12 R332, R342;
log 84). -/
def groupResetNow (s : State) : State :=
  if s.boot.resetDue && !tokensWait s && !resetRecordWaits s then innerReset .groupReset s else s

/-- A Blaze token has arrived for this module. -/
def blazeArrive (f : Frame) (s : State) : State :=
  let i := f.dstPart.toNat
  if 32 ≤ i then s else
    let r := tokenAt (charge s i .link (f.data.length - 192)) i f
    groupResetNow (deliverAll r.1 i r.2)

/-! ### Joining -/

/-- The record of a snapshot (12 R341). -/
def snapshotRecord (s : State) (i : Nat) : List Byte :=
  let p := s.part i
  let gens : List Byte := (List.range 16).flatMap fun k => leBytes 8 (match p.indexes.find? fun x => x.id == k && !x.isMap with
    | some x => x.gen.toNat
    | none => 0xFFFFFFFFFFFFFFFF)
  let epochs : List Byte := (List.range 64).flatMap fun k => leBytes 4 (match p.tables.find? fun x => x.id == k with
    | some x => x.applied
    | none => 0xFFFFFFFF)
  leBytes 2 s.myId.toNat ++ [b8 i, b8 p.state.code] ++ leBytes 4 0 ++ leBytes 8 p.digest.toNat ++ leBytes 8 s.now ++
    leBytes 8 (lookupD s.ctr ⟨.serveSteps, i, 0⟩ 0) ++ leBytes 4 (s.ctxs.countP fun c => c.part == i) ++
    leBytes 4 (s.calls.countP fun c => c.part == i && !c.held) ++ List.replicate 24 0 ++ gens ++ epochs

/-- Capture, when it is due (12 R341). -/
def captureOp (s : State) (i : Nat) (g : GlobalOp) : GlobalOp :=
  if g.code == .snapshotTake && g.captured.isNone then { g with captured := some (snapshotRecord s i) } else g

/-- A member joins: it captures a snapshot unless a step boundary is to come, and takes the tokens held for it (12 R335, R341). -/
def joinOp (s : State) (i : Nat) (g : GlobalOp) : State :=
  let p := s.part i
  let g1 := { g with joinedAt := some s.now }
  let serving := p.state == .serving || p.state == .draining
  let g2 := if serving && stepRunning p then g1 else captureOp s i g1
  let mine := fun (f : Frame) => fld f.data 4 2 == g.domain && fld f.data 0xC 4 == g.epoch
  let held := p.heldTokens.filter mine
  let s1 := (modGlobal s i g.ticket fun _ => g2).modPart i fun p => { p with heldTokens := p.heldTokens.filter fun f => !mine f }
  let r := tryUp s1 i g2
  let s2 := deliverAll r.1 i r.2
  held.foldl (fun s f => match joinedOp s i g.domain g.epoch with
    | some g => let r := takeToken12 s i g f.data; deliverAll r.1 i r.2
    | none => bump s .blazeDrop i 0 1) s2

/-- Snapshots and partition resets that act at a step boundary (12 R341, R342). -/
def boundaryGlobals (i : Nat) (s : State) : State :=
  let due := (s.part i).globals.filter fun g => g.resetDue
  let s1 := due.foldl (fun s g => partitionReset s i g.ticket) s
  let snaps := (s1.part i).globals.filter fun g => g.open_ && g.joinedAt.isSome && g.code == .snapshotTake && g.captured.isNone
  snaps.foldl (fun s g =>
    let g1 := captureOp s i g
    let r := tryUp (modGlobal s i g.ticket fun _ => g1) i g1
    deliverAll r.1 i r.2) s1

/-- Legal states of global commands (02 R57). -/
def globalState (st : PState) : Bool := st == .bound || st == .loaded || st == .serving || st == .draining

/-- An operation of the domain is outstanding. -/
def domainBusy (p : Partition) (domain : Nat) : Bool :=
  p.globals.any fun g => g.open_ && g.joinedAt.isSome && g.domain == domain

/-- A global command is taken (12 R333, R335). -/
def globalStart (c : Code) (i : Nat) (l : List Byte) (t : Nat) (s : State) : State :=
  let g := globalOp c l t
  let busy := (s.part i).globals.any fun x => x.open_ && x.domain == g.domain
  let s1 := s.modPart i fun p => { p with
    globals := p.globals ++ [g], lastEpochs := setKey p.lastEpochs g.domain g.epoch }
  if busy then s1 else groupResetNow (joinOp s1 i g)

def cmdGlobal (c : Code) (r : Req) (t : Nat) (s : State) : State :=
  let i := reqPid s r
  let p := reqPart s r
  runCmd c (pairPart s r)
    { Need.pass with
      form := globalForm s i c r.pay
      state := globalState p.state && decide (lookupD p.lastEpochs (fld r.pay 0 2) 0 < fld r.pay 4 4)
      room := if 16 ≤ p.globals.countP (·.open_) then some .noSpace else none }
    (globalStart c i r.pay) r t s

def cmdBarrierJoin (r : Req) (t : Nat) (s : State) : State := cmdGlobal .barrierJoin r t s
def cmdBroadcastSend (r : Req) (t : Nat) (s : State) : State := cmdGlobal .broadcastSend r t s
def cmdSnapshotTake (r : Req) (t : Nat) (s : State) : State := cmdGlobal .snapshotTake r t s
def cmdGroupReset (r : Req) (t : Nat) (s : State) : State := cmdGlobal .groupReset r t s

/-- BARRIER_JOIN (12 R333, R339). -/
def execBarrierJoin (r : Req) (s : State) : Host.Outcome State Fault Refusal := live s (enter .barrierJoin cmdBarrierJoin r s)
/-- BROADCAST_SEND (12 R333, R340). -/
def execBroadcastSend (r : Req) (s : State) : Host.Outcome State Fault Refusal :=
  live s (enter .broadcastSend cmdBroadcastSend r s)
/-- SNAPSHOT_TAKE (12 R333, R341). -/
def execSnapshotTake (r : Req) (s : State) : Host.Outcome State Fault Refusal := live s (enter .snapshotTake cmdSnapshotTake r s)
/-- GROUP_RESET (12 R333, R342). -/
def execGroupReset (r : Req) (s : State) : Host.Outcome State Fault Refusal := live s (enter .groupReset cmdGroupReset r s)

/-- A command deferred behind an outstanding operation of its domain starts once that has completed (12 R335). -/
def deferredStart (i domain : Nat) (s : State) : State :=
  let p := s.part i
  if domainBusy p domain then s
  else match p.globals.find? fun g => g.open_ && g.joinedAt.isNone && g.domain == domain with
    | some g => groupResetNow (joinOp s i g)
    | none => s

def execGlobalDeferredStart (part domain : Nat) (s : State) : Host.Outcome State Fault Refusal := live s (deferredStart part domain s)

/-! ### Timeouts and lost neighbours (12 R336) -/

/-- A member waits no longer for its children among `gone`. -/
def giveUp (s : State) (i : Nat) (g : GlobalOp) (gone : Nat → Bool) : State :=
  let g1 := giveUpOn s i g gone
  let r := tryUp (modGlobal s i g.ticket fun _ => g1) i g1
  deliverAll r.1 i r.2

/-- The joined operation of a domain. -/
def domainOp (s : State) (i domain : Nat) : Option GlobalOp :=
  (s.part i).globals.find? fun g => g.open_ && g.joinedAt.isSome && g.domain == domain

/-- TimeoutMs after its own join a parent stops waiting for silent children (12 R336; log 28). -/
def childTimeout (i domain : Nat) (s : State) : State :=
  match domainOp s i domain with
  | some g => match g.joinedAt with
    | some at_ => if g.sentUpAt.isNone && decide (at_ + 1000000 * g.timeoutMs ≤ s.now) then giveUp s i g fun _ => true else s
    | none => s
  | none => s

def execBlazeChildTimeout (part domain : Nat) (s : State) : Host.Outcome State Fault Refusal :=
  live s (childTimeout part domain s)

/-- No DOWN within TimeoutMs of sending UP (12 R336; log 28). -/
def downTimeout (i domain : Nat) (s : State) : State :=
  match domainOp s i domain with
  | some g => match g.sentUpAt with
    | some at_ => if at_ + 1000000 * g.timeoutMs ≤ s.now then ownTimeout s i g else s
    | none => s
  | none => s

def execBlazeDownTimeout (part domain : Nat) (s : State) : Host.Outcome State Fault Refusal := live s (downTimeout part domain s)

/-- A module was declared lost: waits for tree neighbours on it end at once (12 R336). -/
def globalsLose (m : W16) (s : State) : State :=
  (List.range 32).foldl (fun s i =>
    ((s.part i).globals.filter fun g => g.open_ && g.joinedAt.isSome).foldl (fun s g =>
      let pos := opPos s i g
      let away := fun c => w16 (g.members.getD c (0, 0)).1 == m
      if g.sentUpAt.isSome then (if pos != 0 && away (treeParent pos) then ownTimeout s i g else s)
      else if (treeChildren g.members.length pos).any away then giveUp s i g away else s) s) s

end Sys2Proof.Machine
end

