-- ==== Sys2Proof/Machine/Units.lean ====
section
/-! DEFINITION. Faults, self-tests and replacement of stands and shared units (04 R89; 15 R413 to R415; 10 R281), and the
stands a launch may take (04 R116). -/

namespace Sys2Proof.Machine

/-- 24 h and 1 h in counts (15 R414, R416, R419). -/
def dayCounts : Nat := 86400000000000
def hourCounts : Nat := 3600000000000

/-- Counts of a list that lie within `span` of now. -/
def recent (s : State) (span : Nat) (l : List Nat) : List Nat := l.filter fun t => decide (s.now < t + span)

/-! ### Stands -/

/-- Physical index of the stand that carries a logical number (04 R88). -/
def standAt (s : State) (n : Nat) : Option Nat := s.stands.findIdx? fun x => x.logical == some n

def State.modStand (s : State) (k : Nat) (f : Stand → Stand) : State :=
  { s with stands := match s.stands[k]? with
      | some x => s.stands.set k (f x)
      | none => s.stands }

/-- Physical indices of the free stands of a partition, in logical order, without those excluded (04 R116). -/
def freePartStands (s : State) (i : Nat) (except : List Nat) : List Nat :=
  (partStands s i).filterMap fun n => (standAt s n).filter fun k =>
    !except.contains k && match s.stands[k]? with
      | some x => x.status == .active && x.task.isNone
      | none => false

/-- The self-test of a stand asks for 24 A as a launch of a partition (17 X19). -/
def standTest (s : State) (k part : Nat) : State := postOwn s (ownLaunch s part (.standTest k) 24)

/-- Self-tests of some stands are over. -/
def dropTests (s : State) (ks : List Nat) : State :=
  dropLaunches s fun l => match l.kind with
    | .standTest k => ks.contains k
    | _ => false

/-- As `standTest`, where the stand has a partition. -/
def standTestIn (s : State) (k : Nat) (part : Option Nat) : State :=
  match part with
  | some i => standTest s k i
  | none => s

/-- A stand faults: it leaves service and its self-test begins (15 R414), in the name of its partition (17 X19). -/
def standFault (s : State) (k : Nat) : State :=
  standTestIn (bump (s.modStand k fun x =>
      { x with status := .testing, task := none, faults := recent s dayCounts x.faults ++ [s.now] }) .unitFault 0 0 1) k
    ((s.stands[k]?).bind (·.part))

/-- StsState.DEGRADED (02 R61): a spare used, or a channel, link lane or peer retired. -/
def degrade (s : State) : State := { s with ident := { s.ident with degraded := true } }

def setEvent (s : State) (bitNo : Nat) : State :=
  { s with ident := { s.ident with events := s.ident.events ||| BitVec.ofNat 4 (2 ^ bitNo) } }

/-- No spare is left for a retired stand: the module is degraded (04 R89), and the stand leaves its partition, which enters FAULTED when it holds a model and has no
stand left (15 R415). -/
def standLost (s : State) (k : Nat) : State :=
  match s.stands[k]? with
  | none => s
  | some x =>
    let s1 := degrade (s.modStand k fun x => { x with logical := none, part := none })
    match x.part with
    | some i =>
      if (partStands s1 i).isEmpty && !(s1.part i).models.isEmpty then enterFaulted s1 i else s1
    | none => s1

/-- The field spare lowest in physical order begins its self-test for a retired stand (15 R415), in the name of that stand's
partition (17 X19). -/
def trySpare (s : State) (k : Nat) : State :=
  match s.stands.findIdx? fun x => x.status == .spare with
  | some j => standTestIn (s.modStand j fun x => { x with status := .sparetesting, replaces := some k }) j ((s.stands[k]?).bind (·.part))
  | none => standLost s k

/-- A stand is retired (15 R414, R415). -/
def retireStand (s : State) (k : Nat) : State :=
  trySpare (bump (s.modStand k fun x => { x with status := .retired, task := none }) .unitRetired 0 0 1) k

/-- A substitution waits while a re-bind of the stand's partition is to switch (15 R426). -/
def rebindWaits (s : State) (i : Option Nat) : Bool :=
  match i with
  | some p => match (s.part p).rebind with
    | some rb => !rb.switched
    | none => false
  | none => false

/-- A spare whose self-test may end now, with the stand that it is tested for: its launch has fired (17 X19), and no re-bind holds
the substitution back (15 R426). -/
def spareReady (s : State) : Option (Nat × Nat) :=
  (List.range s.stands.length).findSome? fun j => match s.stands[j]? with
    | some x => match x.replaces with
      | some k =>
        if x.status == .sparetesting && kindFired s (.standTest j) && !rebindWaits s ((s.stands[k]?).bind (·.part)) then some (j, k)
        else none
      | none => none
    | none => none

/-- A spare's self-test ends (15 R415): it takes the number and the partition of the stand it replaces, or is retired, and the next
spare is tried. -/
def spareTested (pass : Bool) (s : State) : State :=
  match spareReady s with
  | none => s
  | some (j, k) => match s.stands[k]? with
    | none => s
    | some old =>
      let s := dropTests s [j]
      if pass then
        let s1 := s.modStand j fun x => { x with
          status := .active, logical := old.logical, part := old.part, task := none, replaces := none }
        degrade (setEvent (s1.modStand k fun x => { x with logical := none, part := none }) 0)
      else trySpare (bump (s.modStand j fun x => { x with status := .retired, replaces := none }) .unitRetired 0 0 1) k

/-! ### Shared units -/

def State.modUnit (s : State) (u : EngineUnit) (f : EngineSt → EngineSt) : State :=
  { s with units := s.units.map fun x => if x.unit = u then f x else x }

def State.unit? (s : State) (u : EngineUnit) : Option EngineSt := s.units.find? fun x => x.unit == u

/-- Does a unit have siblings to take its work (15 R414)? -/
def hasSiblings : EngineUnit → Bool
  | .yarder => false
  | .skidder => false
  | _ => true

/-- A unit is retired until the next cold reset; its siblings carry its work (15 R414). -/
def retireUnit (s : State) (u : EngineUnit) : State :=
  feedUnits (bump ((freeUnit s u).modUnit u fun x => { x with status := .retired }) .unitRetired 0 (unitKind u) 1)

/-- The fault is counted; a unit with siblings leaves service for its self-test (15 R414). Its work goes back in line. -/
def unitFaulted (s : State) (u : EngineUnit) : State :=
  let s1 := bump (freeUnit s u) .unitFault 0 (unitKind u) 1
  if hasSiblings u then
    s1.modUnit u fun x => { x with status := .testing, faults := recent s dayCounts x.faults ++ [s.now] }
  else s1

/-- The self-test after a fault ends (15 R414): back to service, or retired when it failed or this is the third fault in
24 h. -/
def unitTested (u : TestUnit) (pass : Bool) (s : State) : State :=
  match u with
  | .stand n => match standAt s n with
    | some k => match s.stands[k]? with
      | some x =>
        if x.status != .testing || !kindFired s (.standTest k) then s
        else
        let s := dropTests s [k]
        if pass && decide ((recent s dayCounts x.faults).length < 3) then s.modStand k fun x => { x with status := .active }
        else retireStand s k
      | none => s
    | none => s
  | .engine u => match s.unit? u with
    | some x =>
      if x.status != .testing then s
      else if pass && decide ((recent s dayCounts x.faults).length < 3) then
        feedUnits (s.modUnit u fun x => { x with status := .inService })
      else retireUnit s u
    | none => s

end Sys2Proof.Machine
end

