-- ==== Sys2Proof/Machine/Tracker.lean ====
section
/-! DEFINITION. The request tracker's stages (11 R315 to R319, R295, R490): tokenising, the search, the fetch of passages,
re-rank pairs, selection, packing, and the entry into PREFILL with its text reserve (R297). -/

namespace Sys2Proof.Machine

/-! ### What a request names -/

def ctxModel (s : State) (c : Ctx) (id : Nat) : Option Model := partModel (s.part c.part) id

def modelTokenizer (s : State) (i : Nat) (m : Model) : Option Tokenizer := partTokenizer (s.part i) m.tokenizer

/-- Tokenizer of the model of an id in a request's partition. -/
def tokenizerOf (s : State) (c : Ctx) (id : Nat) : Option Tokenizer :=
  match ctxModel s c id with
  | some m => modelTokenizer s c.part m
  | none => none

/-- Fields of a QUERY_SUBMIT (11 R313). -/
def qEncoder (l : List Byte) : Nat := fld l 1 1
def qReranker (l : List Byte) : Option Nat := if fld l 2 1 = 0xFF then none else some (fld l 2 1)
def qIndex (l : List Byte) : Nat := fld l 4 1
def qText (l : List Byte) : List Byte := bytesAt l (fld l 0x34 4) (fld l 0x38 4)
def qInstr (l : List Byte) : List Byte := bytesAt l (fld l 0x3C 4) (fld l 0x40 4)

/-- Tokens of slot `k` of a model's prompt frame `f` (11 R308). -/
def frameSlot (m : Model) (f k : Nat) : List Nat := (m.frames.getD f []).getD k []

/-- End a request's work at once with a status and no reason (11 R293, R295, R317, R490). -/
def failRequest (s : State) (id : Nat) (st : Status) : State := endRequest s id st .none

/-- Put a request's next tokenising or selection in line. -/
def ctxJob (s : State) (c : Ctx) (kind : JobKind) : State := queueJob s c.part c.ticket (some c.id) kind

/-! ### Pausing (11 R299) -/

/-- Bytes of a KV page of a request (11 R294). -/
def ctxPageBytes (s : State) (c : Ctx) : Nat :=
  match ctxModel s c c.generator with
  | some m => 64 * m.kvHeads * m.headDim
  | none => 0

/-- A request's pages as a spill writes them, layer ascending and then page ascending (11 R299; 05 R156). -/
def spillPages (s : State) (c : Ctx) (chip : Bool) : List (List Byte) :=
  c.kvPages.map fun a =>
    let raw := s.t1Bytes c.part a (ctxPageBytes s c)
    if chip then chipEncode raw else raw

/-- The request leaves the batch (11 R299). -/
def markPaused (s : State) (id : Nat) : State :=
  s.modCtx id fun c => { c with state := .paused, pausedFrom := c.state, pauseHeld := none }

/-- A fill or spill that needs no reads sent for it. -/
def addFill (s : State) (part space addr len : Nat) (forWhat : FillFor) : State :=
  { s with nextId := s.nextId + 1,
           fills := s.fills ++ [{ id := s.nextId, part, space, peer := 0, addr, len, forWhat, issued := s.now, got := [] }] }

/-- A pause takes effect on a request in PREFILL or DECODE (11 R299): under SPILL its pages start to be written out. A range
outside the T1 share is a protection violation (05 R144). Encoded pages may be longer than raw ones: what does not fit the range
is not written (05 R137), and the request is replayed at its resume (log 92). -/
def pauseNow (s : State) (id t : Nat) (spill : Option (Nat × Nat × Nat)) : State :=
  match s.ctx? id with
  | none => finishPlain s t .notFound 0
  | some c =>
    let keep := fun (_ : Unit) => finishPlain (bump (markPaused s id) .servePaused c.part 0 1) t .ok 0
    let refuse := fun (_ : Unit) => finishPlain (s.modCtx id fun c => { c with pauseHeld := none }) t .noSpace 0
    match spill with
    | none => keep ()
    | some (space, addr, len) =>
      let chip := (s.part c.part).kvCompress
      let pages := spillPages s c chip
      let total := min len (sumLens pages)
      if len < c.kvPages.length * ctxPageBytes s c then refuse ()
      else if pages.isEmpty then keep ()
      else if space = 1 && !t1Ok (s.part c.part).frames addr total then protection s c.part
      else addFill ((markPaused s id).modCtx id fun c => { c with
          spilled := some (space, addr, chip, pages.map (·.length)), needReplay := decide (len < sumLens pages) })
        c.part space addr total (.spill id t)

/-! ### Entering PREFILL (11 R287, R297) -/

/-- Bytes of a request's result payload: its text reserve behind its report (11 R297, R318). -/
def reserveBytes (c : Ctx) : Nat := (if wantsReport c then reportTextOffset c else 0) + 256 * c.maxNew

/-- A packed or tokenised request enters PREFILL once its reserve fits the result region; else it stays QUEUED (11 R297,
02 R46). A replayed one keeps its payload (R302); a pause held for this moment takes effect (R299). -/
def enterPrefill (s : State) (id : Nat) : State :=
  match s.ctx? id with
  | none => s
  | some c =>
    if c.stage != .ready || c.isOver then s
    else
      let go := fun (s : State) =>
        let s1 := s.modCtx id fun c => { c with
          state := .prefill, taken := 0, textOffset := if wantsReport c then reportTextOffset c else 0 }
        match c.pauseHeld with
        | some (t, spill) => pauseNow s1 id t spill
        | none => s1
      match c.result with
      | some _ => go s
      | none => match allocResult s c.pair (reserveBytes c) false with
        | some (h, off, s1) => go (s1.modCtx id fun c => { c with result := some (h, off, reserveBytes c) })
        | none => s.modCtx id fun c => { c with state := .queued }

/-- The ending of an export (01 R22, 11 R318): its payload, once the region has room; one that the whole region could not
hold ends with ST_NO_SPACE (02 R50). -/
def endExport (s : State) (id : Nat) : State :=
  match s.ctx? id with
  | none => s
  | some c =>
    let bytes := reportBytes s c 0
    let done := fun (s : State) (off : Nat) => endRequest (writeResult s c.pair off bytes) id .ok .exported
    match c.result with
    | some (_, off, _) => done s off
    | none =>
      if c.cancelMark.isSome then endRequest s id .ok .exported
      else if resBytes (s.pair c.pair) < bytes.length then failRequest s id .noSpace
      else match allocResult s c.pair bytes.length false with
        | some (h, off, s1) => done (s1.modCtx id fun c => { c with result := some (h, off, bytes.length) }) off
        | none => s

/-- The request's prompt is formed: it is exported, or goes on to PREFILL. -/
def promptReady (s : State) (id : Nat) : State :=
  match s.ctx? id with
  | none => s
  | some c => if wantsExport c then endExport s id else enterPrefill s id

/-! ### Packing (11 R317) -/

/-- Tokens of a text by a tokenizer, with what the lane counts. -/
def laneTokens (t : Tokenizer) (text : List Byte) : Tokenized := tokenizeText t text

/-- A passage's block in the prompt. -/
def passageBlock (m : Model) (t : Tokenizer) (f : Nat) (x : Passage) : List Nat :=
  frameSlot m f 3 ++ (laneTokens t x.tagBytes).tokens ++ frameSlot m f 4 ++ (laneTokens t x.text).tokens ++ frameSlot m f 5

/-- Passages added in keep order while the total stays within the budget: prompt tokens so far, and those packed. -/
def packPassages (m : Model) (t : Tokenizer) (f tail budget : Nat) : List Nat → List Passage → List Nat × List Passage
  | toks, [] => (toks, [])
  | toks, x :: r =>
    let b := passageBlock m t f x
    if toks.length + b.length + tail ≤ budget then
      let rest := packPassages m t f tail budget (toks ++ b) r
      (rest.1, { x with firstToken := toks.length, tokenCount := b.length } :: rest.2)
    else (toks, [])

/-- Prompt and packed passages of a query; none when everything but the passages exceeds PromptBudget. -/
def packPrompt (m : Model) (t : Tokenizer) (l : List Byte) (kept : List Passage) : Option (List Nat × List Passage) :=
  let f := fld l 5 1
  let budget := fld l 0xC 4
  let head := frameSlot m f 0 ++ (laneTokens t (qInstr l)).tokens ++ frameSlot m f 1 ++ (laneTokens t (qText l)).tokens ++
    frameSlot m f 2
  let tail := frameSlot m f 6
  if budget < head.length + tail.length then none
  else
    let r := packPassages m t f tail.length budget head kept
    some (r.1 ++ tail, r.2)

/-- Lane counters of a list of texts (07 R214). -/
def countTexts (s : State) (i : Nat) (t : Tokenizer) (texts : List (List Byte)) : State :=
  texts.foldl (fun s x =>
    let w := tokenizeText t x
    countText s i x.length w.tokens.length w.repaired w.cuts) s

/-- A query's prompt is packed. -/
def packDone (s : State) (c : Ctx) : State :=
  match ctxModel s c c.generator, tokenizerOf s c c.generator with
  | some m, some t =>
    let kept := c.packed
    let s1 := countTexts s c.part t (qInstr c.pay :: qText c.pay :: kept.flatMap fun x => [x.tagBytes, x.text])
    match packPrompt m t c.pay kept with
    | none => failRequest s1 c.id .noSpace
    | some (p, ps) =>
      if p.isEmpty then failRequest s1 c.id .invalid
      else promptReady (s1.modCtx c.id fun c => { c with prompt := p, packed := ps, stage := .ready }) c.id
  | _, _ => failRequest s c.id .fault

/-- Tokens of a GENERATE_SUBMIT's text prompt, with the BosId that ADD_BOS adds (11 R319). -/
def genTokens (t : Tokenizer) (l : List Byte) (text : List Nat) : List Nat :=
  (if bit (fld l 1 1) 2 then t.bos.toList else []) ++ text

/-- A text prompt is tokenised (11 R295, R490): it enters PREFILL, at the next boundary while a step runs (R290). -/
def promptDone (s : State) (c : Ctx) : State :=
  match ctxModel s c c.generator, tokenizerOf s c c.generator with
  | some m, some t =>
    let text := bytesAt c.pay (fld c.pay 0x20 4) (fld c.pay 0x24 4)
    let w := laneTokens t text
    let p := genTokens t c.pay w.tokens
    let s1 := countText s c.part text.length w.tokens.length w.repaired w.cuts
    if p.isEmpty then failRequest s1 c.id .invalid
    else if m.maxPos < p.length + c.maxNew then failRequest s1 c.id .noSpace
    else
      let s2 := s1.modCtx c.id fun c => { c with prompt := p, stage := .ready }
      if (s.part c.part).stepsDone < (s.part c.part).stepsFormed then s2 else enterPrefill s2 c.id
  | _, _ => failRequest s c.id .fault

/-! ### Re-rank (11 R316) -/

/-- A pair of exactly PairTokens tokens. -/
def pairOf (m : Model) (t : Tokenizer) (l : List Byte) (query passage : List Nat) : List Nat :=
  let f := fld l 5 1
  let n := fld l 0xA 2
  let open_ := frameSlot m f 0
  let sep := frameSlot m f 1
  let q := query.take (n - open_.length - sep.length)
  let p := passage.take (n - open_.length - sep.length - q.length)
  let all := open_ ++ q ++ sep ++ p
  all ++ List.replicate (n - all.length) (t.pad.getD 0)

/-- Begin packing with the passages kept, in keep order. -/
def startPack (s : State) (id : Nat) (kept : List Passage) : State :=
  match (s.modCtx id fun c => { c with packed := kept, stage := .pack }).ctx? id with
  | some c => ctxJob (s.modCtx id fun c => { c with packed := kept, stage := .pack }) c .ctxTokens
  | none => s

/-- The pairs of a request are tokenised: they wait for their batches. -/
def pairsDone (s : State) (c : Ctx) (rr : Nat) : State :=
  match ctxModel s c rr, tokenizerOf s c rr with
  | some m, some t =>
    let q := laneTokens t (qText c.pay)
    let s1 := countTexts s c.part t (qText c.pay :: c.passages.map (·.text))
    s1.modCtx c.id fun c => { c with
      queryTokens := q.tokens
      pairTokens := c.passages.map fun x => pairOf m t c.pay q.tokens (laneTokens t x.text).tokens
      stage := .rerank, taken := 0, scores := [] }
  | _, _ => failRequest s c.id .fault

/-- Counters of a Tally task over one row (10 R285). -/
def countSelect (s : State) (i n : Nat) (nan : Bool) : State := countRows s i 1 n 0 (boolNat nan)

/-- The Tally SELECT of KeepCount over the scores ends (11 R315, R316): the kept passages in keep order. -/
def selectDone (s : State) (c : Ctx) : State :=
  let vs := List.zipWith (fun v (x : Passage) => (v, x.rank)) c.scores c.passages
  let o := selectAt vs (fld c.pay 8 2)
  let kept := o.sel.filterMap fun v => c.passages.find? fun x => x.rank == v.2
  let s1 := countSelect s c.part vs.length o.nan
  startPack (s1.modCtx c.id fun c => { c with nanSeen := o.sel.any fun v => isNan32 v.1 }) c.id kept

/-! ### Fetch (11 R312, R315) -/

/-- The record of an item in a store held here (11 R312). -/
def itemRecord (s : State) (i : Nat) (st : Store) (item : Nat) : Option Nat :=
  (List.range st.recordCount).find? fun k =>
    bitsOf (leNat (s.t1Bytes i (st.res.frame * frameBytes + st.recordOffset + 16 * k) 8)) 39 0 == item

/-- Tag and passage of an item in a store held here; none when it has no record, or its blocks do not decode. -/
def storeItem (s : State) (i : Nat) (st : Store) (item : Nat) : Option (List Byte × List Byte) :=
  let base := st.res.frame * frameBytes
  match itemRecord s i st item with
  | none => none
  | some k =>
    let l := s.t1Bytes i (base + st.recordOffset + 16 * k) 16
    let tag := bitsOf (fld l 0 8) 47 40
    let loc := fld l 8 8
    let n := cdiv st.textLength 4096
    (chipRead (fun o c => s.t1Bytes i (base + st.textOffset + o) c) n (bitsOf loc 39 0) (bitsOf loc 55 40)).map fun b =>
      (b.take tag, b.drop tag)

/-- Pages of a partition that a range touches. -/
def rangePages (a n : Nat) : List Nat := (chunks pageBytes a n).map fun c => c.1 / pageBytes

/-- Is a page of a partition poisoned? -/
def pagePoisoned (s : State) (i pg : Nat) : Bool := t1Poisoned s.t1 (s.part i).frames (pg * pageBytes) 1

/-- Pages of T1 that hold an item's record, and the map entries and sectors of its blocks (11 R312; 05 R152). -/
def itemPages (s : State) (i : Nat) (st : Store) (item : Nat) : List Nat :=
  let base := st.res.frame * frameBytes
  match itemRecord s i st item with
  | none => []
  | some k =>
    let loc := leNat (s.t1Bytes i (base + st.recordOffset + 16 * k + 8) 8)
    let n := cdiv st.textLength 4096
    let map_ := base + st.textOffset
    rangePages (base + st.recordOffset + 16 * k) 16 ++
      (List.range (cdiv (bitsOf loc 39 0 + bitsOf loc 55 40) 4096 - bitsOf loc 39 0 / 4096)).flatMap fun q =>
        let at_ := map_ + 8 * (bitsOf loc 39 0 / 4096 + q)
        let entry := leNat (s.t1Bytes i at_ 8)
        rangePages at_ 8 ++ if bitsOf entry 63 60 = 0 then []
          else rangePages (map_ + chipDataAt n + 256 * bitsOf entry 35 0) (256 * (bitsOf entry 59 56 + 1))

/-- An item has a record here, and its bytes cannot be read as they are: a page is poisoned, or a block does not decode (05 R141,
R155). -/
def itemLost (s : State) (i : Nat) (st : Store) (item : Nat) : Bool :=
  (itemRecord s i st item).isSome &&
    ((itemPages s i st item).any (pagePoisoned s i) || (storeItem s i st item).isNone)

/-- Entries whose passages a query fetches (11 R315). -/
def fetchEntries (c : Ctx) : List Entry :=
  c.entries.take (match qReranker c.pay with
    | some _ => fld c.pay 6 2
    | none => fld c.pay 8 2)

/-- Insert a passage by its rank. -/
def addPassage (x : Passage) (l : List Passage) : List Passage := rankInsert (fun a b => decide (a.rank < b.rank)) x l

/-- A fetched entry's text, or none (R315: skipped and counted). -/
def passageIn (s : State) (id rank : Nat) (item : Option (List Byte × List Byte)) : State :=
  match s.ctx? id with
  | none => s
  | some c => match c.entries[rank]?, item with
    | some e, some (tag, text) => s.modCtx id fun c => { c with passages := addPassage ⟨rank, e, tag, text, 0, 0⟩ c.passages }
    | _, _ => bump (s.modCtx id fun c => { c with skipped := c.skipped + 1 }) .serveSkipped c.part 0 1

/-- Once every entry's text has come or been skipped, the next stage starts (11 R315). -/
def fetchAdvance (s : State) (id : Nat) : State :=
  match s.ctx? id with
  | none => s
  | some c =>
    if c.stage != .fetch || c.passages.length + c.skipped < (fetchEntries c).length then s
    else match qReranker c.pay with
      | some _ =>
        if c.passages.isEmpty then startPack s id []
        else
          let s1 := s.modCtx id fun c => { c with stage := .pairTokens }
          ctxJob s1 c .ctxTokens
      | none => startPack s id c.passages

/-- Payload of a PEER_FETCH of a passage (log 20): kind 1, store id, 6 reserved bytes, item, 8 reserved bytes. -/
def fetchItem (store item : Nat) : List Byte := [1, b8 store] ++ leBytes 6 0 ++ leBytes 8 item ++ leBytes 8 0

/-- Fetch an entry from the store here (11 R315). Bytes that cannot be read as they are make its fill wait until they have been
fetched again, or the store is damaged (05 R136; 15 R491). -/
def fetchHere (s : State) (i id rank store item : Nat) : State :=
  match (s.part i).stores.find? fun y => y.id == store with
  | none => passageIn s id rank none
  | some st =>
    if itemLost s i st item then addFill s i 1 0 0 (.passage id rank store item)
    else passageIn (charge s i .fill (match storeItem s i st item with
      | some x => x.1.length + x.2.length
      | none => 0)) id rank (storeItem s i st item)

/-- Fetch one entry (11 R315): from the store here when this module is the one to ask, else by PEER_FETCH; skipped when no
module can be asked. -/
def fetchOne (s : State) (id : Nat) (x : Index) (rank : Nat) (e : Entry) : State :=
  match s.ctx? id with
  | none => s
  | some c =>
    let o := x.shardMap.getD e.tag.toNat (0xFFFF, 0xFFFF)
    match pickPeer s o.1 o.2 with
    | none => passageIn s id rank none
    | some (m, rep) =>
      if m = s.myId then fetchHere s c.part id rank x.id e.id.toNat
      else placeCall s c.part m o.2 rep (.passage id rank) .peerFetch (fetchItem x.id e.id.toNat)

/-- The fetch stage starts (11 R315). -/
def fetchStart (s : State) (id : Nat) : State :=
  match s.ctx? id with
  | none => s
  | some c => match partIndex (s.part c.part) (qIndex c.pay) with
    | none => failRequest s id .fault
    | some x =>
      let s1 := s.modCtx id fun c => { c with stage := .fetch }
      fetchAdvance ((fetchEntries c).zipIdx.foldl (fun s e => fetchOne s id x e.2 e.1) s1) id

/-! ### Embedding and search -/

/-- The embed input of a query (11 R315). -/
def embedInput (m : Model) (t : Tokenizer) (text : List Nat) : List Nat :=
  (frameSlot m 0 0 ++ t.bos.toList ++ text ++ t.eos.toList).take m.maxPos

/-- A query's text is tokenised for its encoder (11 R315, R490). -/
def embedDone (s : State) (c : Ctx) : State :=
  match ctxModel s c (qEncoder c.pay), tokenizerOf s c (qEncoder c.pay) with
  | some m, some t =>
    let w := laneTokens t (qText c.pay)
    let toks := embedInput m t w.tokens
    let s1 := countText s c.part (qText c.pay).length w.tokens.length w.repaired w.cuts
    if toks.isEmpty then failRequest s1 c.id .invalid
    else s1.modCtx c.id fun c => { c with encTokens := toks, stage := .embed }
  | _, _ => failRequest s c.id .fault

/-- EMBED has yielded the query vector: the search starts (11 R315). -/
def vectorDone (s : State) (id : Nat) (v : List W16) : State :=
  match s.ctx? id with
  | none => s
  | some c => match partIndex (s.part c.part) (qIndex c.pay) with
    | none => failRequest s id .fault
    | some x =>
      searchBegin (s.modCtx id fun c => { c with vector := v, stage := .search }) c.part (.context id) x (blockParse c.pay 0x48) [v]

/-- The search of a query has been merged (11 R315): its list, and the shards that were missing. -/
def ctxSearched (s : State) (id : Nat) (y : Search) (out : List PartList) : State :=
  match out.find? fun p => p.query == 0 && !p.probe with
  | some p => fetchStart (s.modCtx id fun c => { c with entries := p.entries, missing := w32 (missingMask y) }) id
  | none => fetchStart (s.modCtx id fun c => { c with missing := w32 (missingMask y) }) id

/-- A score of a re-rank pair; with the last one the Tally selects (11 R315). -/
def scoreDone (s : State) (id : Nat) (v : W32) : State :=
  match s.ctx? id with
  | none => s
  | some c =>
    let s1 := s.modCtx id fun c => { c with scores := c.scores ++ [v] }
    if c.scores.length + 1 < c.pairTokens.length then s1
    else ctxJob (s1.modCtx id fun c => { c with stage := .select }) c .ctxSelect

/-- A lane has finished a request's tokenising. -/
def ctxTokensDone (j : Job) (id : Nat) (s : State) : State :=
  let s1 := s.dropJob j.id
  match s1.ctx? id with
  | none => s1
  | some c =>
    if c.isOver then s1
    else if !c.isQuery then promptDone s1 c
    else match c.stage with
      | .embedTokens => embedDone s1 c
      | .pairTokens => match qReranker c.pay with
        | some rr => pairsDone s1 c rr
        | none => s1
      | .pack => packDone s1 c
      | _ => s1

/-- A Tally pipeline has finished a request's selection. -/
def ctxSelectDone (j : Job) (id : Nat) (s : State) : State :=
  let s1 := s.dropJob j.id
  match s1.ctx? id with
  | some c => if c.isOver || c.stage != .select then s1 else selectDone s1 c
  | none => s1

/-! ### Admission (11 R290 order 5) -/

/-- Admit one QUEUED request: a query to RETRIEVING, a generation to PREFILL, its text prompt first being tokenised. -/
def admitOne (s : State) (id : Nat) : State :=
  match s.ctx? id with
  | none => s
  | some c =>
    if c.isOver || c.ending.isSome then s
    else if c.stage == .ready then promptReady s id
    else if c.state != .queued || c.stage != .none then s
    else if c.isQuery then
      ctxJob (s.modCtx id fun c => { c with state := .retrieving, stage := .embedTokens }) c .ctxTokens
    else if bit (fld c.pay 1 1) 0 then
      match ctxModel s c c.generator, tokenizerOf s c c.generator with
      | some _, some t =>
        let p := genTokens t c.pay (fldList c.pay (fld c.pay 0x20 4) 4 (fld c.pay 0x24 4))
        enterPrefill (s.modCtx id fun c => { c with prompt := p, stage := .ready }) id
      | _, _ => failRequest s id .fault
    else ctxJob (s.modCtx id fun c => { c with stage := .pack }) c .ctxTokens

/-- Requests of a partition in admission order. -/
def admissionOrder (s : State) (i : Nat) : List Ctx :=
  rankSort (fun a b => decide (a.adm < b.adm)) (inFlight s i)

/-- Admit the QUEUED requests of a partition, and those that wait for room, in admission order. -/
def admitAll (s : State) (i : Nat) : State :=
  ((admissionOrder s i).filter fun c => c.state == .queued || (c.state == .retrieving && c.stage == .ready)).foldl
    (fun s c => admitOne s c.id) s

end Sys2Proof.Machine
end

