-- ==== Sys2Proof/Machine/Launches.lean ====
section
/-! DEFINITION. Launches: their forming from a model's groups (11 R306, R307, R488), posting and placement (04 R116; 12 R323,
R324; 15 R406), move lists and operand fills (05 R131; 06 R170, R171), firing (01 R18), the end and the re-run of tasks (04
R96, R104 to R106, R116), outputs and sampling (11 R296, R307; 07 R211, R212). -/

namespace Sys2Proof.Machine

/-! ### The launches of a partition -/

/-- Format of the tensor a launch's gather writes. -/
def Launch.gatherFmt (l : Launch) : Nat :=
  match l.gather with
  | some g => g.2.2
  | none => 1

def State.launch? (s : State) (id : Nat) : Option Launch := s.launches.find? fun l => l.id == id

def State.modLaunch (s : State) (id : Nat) (f : Launch → Launch) : State :=
  { s with launches := s.launches.map fun l => if l.id = id then f l else l }

/-- Pieces of work leave their units and wait for another turn. -/
def leaveUnits (s : State) (ids : List Nat) : State :=
  { s with
    jobs := s.jobs.map fun j => if ids.contains j.id then { j with unit := none } else j
    units := s.units.map fun u => match u.job with
      | some j => if ids.contains j then { u with job := none } else u
      | none => u }

/-- A launch is over: what waited for it goes on, its stands are free, its credits return at the next epoch boundary (15
R405), and what was under way for it is dropped. -/
def dropLaunch (s : State) (id : Nat) : State :=
  let jobs := (s.jobs.filter fun j => j.ticket == id && j.kind == .gather).map (·.id)
  let lists := match s.launch? id with
    | some l => l.lists
    | none => []
  let rides := match s.launch? id with
    | some l => l.slices
    | none => []
  let s1 := leaveUnits (freeWork (dropJobs (jobs.foldl dropGather s) lists) [id]) rides
  { s1 with
    launches := (s1.launches.filter fun l => l.id != id).map fun l => { l with after := l.after.filter (· != id) }
    stands := s1.stands.map fun x => match x.task with
      | some (l, _) => if l = id then { x with task := none } else x
      | none => x
    fills := s1.fills.filter fun f => match f.forWhat with
      | .move l _ => l != id
      | .operand l _ => l != id
      | _ => true
    cut := { s1.cut with
      requests := s1.cut.requests.filter fun r => r.launch != id
      held := s1.cut.held.map fun h => if h.launch = id then { h with done := true } else h } }

/-- Is the row's request still running the run the row was formed for (11 R302)? -/
def rowAlive (s : State) (r : BatchRow) : Bool :=
  match s.ctx? r.ctx with
  | some c => c.ticket == r.req && c.replays == r.run && !c.isOver && c.ending.isNone
  | none => false

/-- The requests of some rows end with a status at the next boundary (04 R116; 05 R135; 15 R491). -/
def endRows (s : State) (rows : List BatchRow) (st : Status) : State :=
  (distinct ((rows.filter (rowAlive s)).map (·.ctx))).foldl
    (fun s id => s.modCtx id fun c => { c with ending := some ⟨st, .none⟩ }) s

/-- Launches of the pass that a launch belongs to. -/
def samePass (l x : Launch) : Bool :=
  x.part == l.part && x.stepNo == l.stepNo && match l.kind, x.kind with
    | .group m p _, .group m' p' _ => m == m' && p == p'
    | _, _ => x.id == l.id

/-- A request's bytes are gone for good, so its batch cannot run: every request of the pass ends, and the pass's launches
with it (15 R491). -/
def failBatch (s : State) (l : Launch) (st : Status) : State :=
  ((s.launches.filter (samePass l)).map (·.id)).foldl dropLaunch (endRows s l.rows st)

/-- A task's re-run faulted (04 R116): every request of the step ends with ST_FAULT. -/
def failStep (s : State) (l : Launch) : State :=
  let rows := ((s.part l.part).steps.filter fun x => x.no == l.stepNo).flatMap fun x =>
    x.batches.flatMap fun b => b.rows0 ++ b.rows1
  ((s.launches.filter fun x => x.part == l.part && x.stepNo == l.stepNo).map (·.id)).foldl dropLaunch (endRows s rows .fault)

/-! ### Forming a launch from a group -/

/-- Longest context of some rows. -/
def longestContext (rows : List BatchRow) : Nat := rows.foldl (fun m r => max m (r.pos + 1)) 0

/-- Values of the patches of a batch's pass (11 R306): ROWS_M1, ROWS and LINES over the rows of the pass, CTX16 over the longest
context of the batch. -/
def patchValue (rows : List BatchRow) (longest : Nat) (p : Patch) : Nat :=
  let n := rows.length
  match p.value with
  | 0 => n - 1
  | 1 => n
  | 2 => n * p.perRow
  | _ => alignUp 16 longest

/-- Bytes with bits of a 32-bit field replaced. -/
def patchField (l : List Byte) (off shift width v : Nat) : List Byte :=
  let word := fld l off 4
  let old := word / 2 ^ shift % 2 ^ width
  l.take off ++ leBytes 4 (word - old * 2 ^ shift + v % 2 ^ width * 2 ^ shift) ++ l.drop (off + 4)

/-- Task records, or descriptors, of a group with its patches applied (11 R306). -/
def applyPatches (target head : Nat) (ps : List Patch) (rows : List BatchRow) (longest : Nat) (recs : List (List Byte)) : List (List Byte) :=
  ps.foldl (fun recs p =>
    if p.target = target then
      recs.set p.index (patchField (recs.getD p.index []) (head + 32 * p.op + p.byteOff) p.shift p.width (patchValue rows longest p))
    else recs) recs

/-- A task from its record (04 R92). -/
def taskOf (l : List Byte) : Task :=
  { body := .record (taskOps l), credit := fld l 4 2, watchdog := fld l 8 4, taskId := w32 (fld l 0xC 4), stand := none,
    done := false, reruns := 0 }

/-- Image bytes of a loaded model in T1. -/
def imageBytes (s : State) (i : Nat) (m : Model) : List Byte := s.t1Bytes i (m.res.frame * frameBytes) m.res.len

/-- The launch of group `g` of a pass for some rows, not yet posted (11 R306, R307). -/
def groupLaunch (s : State) (i stepNo : Nat) (m : Model) (img : List Byte) (pass g : Nat) (rows : List BatchRow)
    (longest : Nat) (after : List Nat) : Launch :=
  let grp := m.groups.getD g ⟨0, 0, 0, 0, 0, 0, 0, 0, 0⟩
  let recs := groupTasks img grp
  let ps := groupPatches img m.dataOffset grp
  { id := s.nextId, part := i, kind := .group m.id pass g, stepNo, cont := false, posted := false, target := 0,
    release := none, bases := (tensorBases (s.part i).runs m recs).getD [],
    tasks := (applyPatches 0 0x20 ps rows longest recs).map taskOf, rows, after,
    gather := if grp.gatherTable = 0xFF then none
      else some (grp.gatherTable, grp.gatherTensor, ((m.tensors[grp.gatherTensor]?).map (·.fmt)).getD 1),
    moves := applyPatches 1 0 ps rows longest (groupMoves img grp), awaits := [], slices := [], lists := [],
    room := 0, amps := 0, granted := none, fired := none, stallLate := 0, stallCredit := 0 }

def addLaunch (s : State) (l : Launch) : State := { s with nextId := s.nextId + 1, launches := s.launches ++ [l] }

/-- The launches of a pass, one a group, each after the one before (11 R307); `after` is what the first waits for. The
answer names what the next pass waits for. -/
def addPass (s : State) (i stepNo : Nat) (m : Model) (img : List Byte) (pass : Nat) (rows : List BatchRow) (longest : Nat)
    (after : List Nat) : State × List Nat :=
  if rows.isEmpty then (s, after)
  else
    let p := m.passes.getD pass (0, 0, 0)
    ((List.range p.2.1).map (p.1 + ·)).foldl (fun (acc : State × List Nat) g =>
      let l := groupLaunch acc.1 i stepNo m img pass g rows longest acc.2
      (addLaunch acc.1 l, [l.id])) (s, after)

/-! ### Before the first launch of a pass (11 R307, R488) -/

/-- Batch row at which the request of row `r` begins (11 R307). -/
def rowStart (rows : List BatchRow) (r : Nat) : Nat :=
  match rows[r]? with
  | some x => (rows.findIdx? fun y => y.ctx == x.ctx).getD r
  | none => r

/-- Positions of a request once some rows are added. -/
def rowsTop (rows : List BatchRow) (ctx : Nat) : Nat :=
  (rows.filter fun r => r.ctx == ctx).foldl (fun n r => max n (r.pos + 1)) 0

/-- Lines of a page list (11 R488). -/
def listLines (layers top : Nat) : Nat := cdiv (4 * (layers * cdiv top 16)) 256

/-- Entries of a request's page list: T1 page numbers, layer ascending and then page ascending (11 R488). -/
def pageList (m : Model) (c : Ctx) (top : Nat) : List Nat :=
  let per := c.kvPages.length / max 1 m.layers
  (List.range m.layers).flatMap fun l => ((c.kvPages.drop (l * per)).take (cdiv top 16)).map (· / pageBytes)

/-- Requests of the two passes of a GENERATOR batch in the order of their first rows, with the lines of each one's list (11
R488). -/
def batchLists (p : Partition) (b : Batch) : List (Nat × Nat) :=
  match partModel p b.model with
  | some m =>
    let one := fun (rows : List BatchRow) => (distinct (rows.map (·.ctx))).map fun c => (c, listLines m.layers (rowsTop rows c))
    if m.kind = 2 then one b.rows0 ++ one b.rows1 else []
  | none => []

/-- The line of the list of each request with rows in a GENERATOR pass of a step: the lists of one step lie one after another
from line 0 of the KV area (11 R488). -/
def kvLines (p : Partition) (bs : List Batch) : List (Nat × Nat) :=
  ((bs.flatMap (batchLists p)).foldl (fun (acc : List (Nat × Nat) × Nat) x => (acc.1 ++ [(x.1, acc.2)], acc.2 + x.2)) ([], 0)).1

/-- The step table of a pass (11 R307): Pos, Context, KvLine and Row0 of each row. -/
def stepTable (lines : List (Nat × Nat)) (rows : List BatchRow) : List Byte :=
  (rows.zipIdx).flatMap fun r =>
    leBytes 4 r.1.pos ++ leBytes 4 r.1.ctx ++ leBytes 4 (lookupD lines r.1.ctx 0) ++ leBytes 4 (rowStart rows r.2)

/-- The batches of the step a launch was formed for. -/
def launchBatches (s : State) (l : Launch) : List Batch :=
  match (s.part l.part).steps.find? fun x => x.no == l.stepNo with
  | some x => x.batches
  | none => []

/-- Step table and page lists of a pass, before its first launch. -/
def passTables (s : State) (l : Launch) (m : Model) : State :=
  let gen := m.kind == 2
  let lines := if gen then kvLines (s.part l.part) (launchBatches s l) else []
  let s1 := match m.tensors.findIdx? fun t => t.step with
    | some k => s.viewStore l.part .ctrl (l.bases.getD k 0) (bytesAt (stepTable lines l.rows) 0
        (min (16 * l.rows.length) (tensorBytes m k)))
    | none => s
  if gen then
    (distinct (l.rows.map (·.ctx))).foldl (fun s id => match s.ctx? id with
      | some c => areaPut s l.part .ctrl 2 (256 * lookupD lines id 0) ((pageList m c (rowsTop l.rows id)).flatMap (leBytes 4))
      | none => s) s1
  else s1

/-- The T1 operands of a launch start their fills (05 R127, R131). -/
def operandFills (s : State) (l : Launch) (m : Model) (recs : List (List Byte)) : State :=
  (groupT1 m recs).foldl (fun s k => match m.tensors[k]? with
    | some t =>
      let id := s.nextId
      let r := startFill s l.part 1 0 (m.res.frame * frameBytes + t.dataRef) t.bytes (.operand l.id k)
      r.1.modLaunch l.id fun l => { l with awaits := l.awaits ++ [id] }
    | none => s) s

/-- The gather of a launch starts (11 R306): its own rows, and peers asked for the others; a shard no module can serve is
simply not asked. A table that is not loaded fails the batch (log 63). -/
def launchGather (s : State) (l : Launch) : State :=
  match l.gather with
  | none => s
  | some (tab, _, _) => match (s.part l.part).tables.find? fun t => t.id == tab with
    | none => failBatch s l .fault
    | some tb =>
      let idx := l.rows.map fun r => r.token.getD 0
      let ok := idx.filter (indexOkFor tb)
      let job := s.nextId
      let s1 := (addJob s l.part l.id none .gather).modJob job fun j => { j with room := gatherRoom tb l.gatherFmt [ok] }
      feedUnits (askRows s1 l.part job tb 0 (gatherItems tb ok)).1

/-- The parameter block of a request's SAMPLE (04 R112; 11 R296). -/
def sampleParams (c : Ctx) : List Byte :=
  leBytes 8 c.sampling.seed.toNat ++ leBytes 4 c.output.length ++ leBytes 4 c.sampling.invTemp.toNat ++
    leBytes 4 c.sampling.topP.toNat ++ leBytes 4 (boolNat c.sampling.greedy) ++ leBytes 8 0

/-- What a launch of SAMPLE prepares when it is posted: the step masks that the Teasel writes (07 R209), the parameter blocks,
and the Tally tasks that select candidates, which it waits for (11 R296; 10 R280). -/
def prepareSample (s : State) (l : Launch) : State :=
  let base := workAt s l.part l.id
  feedUnits ((l.tasks.flatMap fun t => match t.body with
    | .sample rows => rows
    | .record _ => []).foldl (fun s r => match s.ctx? r.ctx with
      | none => s
      | some c =>
        let mask := (tokenizerOf s c c.generator).bind fun t =>
          (c.opts.grammar.bind fun n => partGrammar (s.part c.part) n).map fun g => g.stepMask t.eos c.gstate
        let s1 := match r.mask, mask with
          | some (o, k), some bytes => areaPut s l.part .text 4 (base + o) (bytesAt bytes 0 (256 * k))
          | _, _ => s
        let s2 := areaPut s1 l.part .ctrl 4 (base + r.param) (bytesAt (sampleParams c) 0 256)
        if r.list.isNone then s2
        else (addJob s2 l.part l.id none (.candidates l.id c.id)).modLaunch l.id fun l => { l with lists := l.lists ++ [s2.nextId] }) s)

/-- What a launch prepares when it is posted. -/
def prepareLaunch (s : State) (id : Nat) : State :=
  match s.launch? id with
  | none => s
  | some l =>
    match l.kind with
    | .group mid pass g =>
      if l.cont then s else match partModel (s.part l.part) mid with
        | none => s
        | some m =>
          let s1 := if g = (m.passes.getD pass (0, 0, 0)).1 then passTables s l m else s
          let recs := groupTasks (imageBytes s l.part m) (m.groups.getD g ⟨0, 0, 0, 0, 0, 0, 0, 0, 0⟩)
          launchGather (operandFills s1 l m recs) l
    | .sample _ _ => prepareSample s l
    | _ => s

/-! ### Posting (04 R116; 12 R323, R324; 15 R401, R402, R406) -/

/-- First multiple of 256 at or above. -/
def roundEpoch (n : Nat) : Nat := alignUp 256 n

/-- Longest leading part of some tasks that `stands` stands and `amps` amperes hold. -/
def fitTasks (stands amps : Nat) : Nat → Nat → List Task → List Task × List Task
  | _, _, [] => ([], [])
  | n, a, t :: r =>
    if n < stands ∧ a + t.credit ≤ amps then
      let x := fitTasks stands amps (n + 1) (a + t.credit) r
      (t :: x.1, x.2)
    else ([], t :: r)

/-- Amperes one launch of a partition may request (15 R398, R406). -/
def launchAmps (s : State) (i : Nat) : Nat :=
  let cap := s.cut.caps.getD i 0
  if cap = 0 then 1152 else min 1152 cap

/-- A launch that its partition's stands or the grantable maximum cannot hold is divided: its later tasks form a launch of
their own after it (04 R116, 15 R406). A single task is never divided. -/
def splitLaunch (s : State) (l : Launch) : State :=
  let x := fitTasks (partStands s l.part).length (launchAmps s l.part) 0 (sliceAmps s l.slices) l.tasks
  let head := if x.1.isEmpty then l.tasks.take 1 else x.1
  let rest := if x.1.isEmpty then l.tasks.drop 1 else x.2
  if rest.isEmpty then s
  else
    let id := s.nextId
    let s1 := s.modLaunch l.id fun l => { l with tasks := head }
    let s2 := { s1 with launches := s1.launches.map fun y =>
      if y.id != l.id && y.after.contains l.id then { y with after := y.after ++ [id] } else y }
    addLaunch s2 { l with id, cont := true, tasks := rest, after := [l.id], gather := none, moves := [], awaits := [],
                          slices := [], lists := [] }

/-- A posted launch that has no credits and that its partition's lowered cap cannot hold any more is divided (15 R406): its later
tasks give their stands back and form a launch of their own after it. -/
def divideAgain (s : State) (id : Nat) : State :=
  match s.launch? id with
  | none => s
  | some l =>
    if !l.posted || l.fired.isSome || l.granted.isSome || decide (l.amps ≤ launchAmps s l.part) then s
    else
      let s1 := splitLaunch s { l with posted := false, target := 0, release := none, amps := 0, stallLate := 0, stallCredit := 0 }
      match s1.launch? id with
      | none => s
      | some h =>
        let n := h.tasks.length
        let amps := (h.tasks.map (·.credit)).sum + sliceAmps s1 h.slices
        if n = l.tasks.length then s
        else
          { s1 with
            launches := s1.launches.map fun y =>
              if y.id = id then { y with amps }
              else if y.id = s.nextId then { y with tasks := y.tasks.map fun t => { t with stand := none } } else y
            stands := s1.stands.map fun x => match x.task with
              | some (k, t) => if k = id ∧ n ≤ t then { x with task := none } else x
              | none => x
            cut := { s1.cut with requests := s1.cut.requests.map fun r => if r.launch = id then { r with amps } else r } }

/-- Stands a re-run does not take: the one its task faulted on, while the partition has another (04 R116; log 64). -/
def excludedStands (s : State) (l : Launch) : List Nat :=
  match l.kind with
  | .rerun o t => match (s.launch? o).bind fun x => x.tasks[t]? with
    | some x => match x.stand with
      | some k => if 1 < (partStands s l.part).length then [k] else []
      | none => []
    | none => []
  | _ => []

/-- The release that the first launch of a step is bound to, when the step was formed under STEP_ALIGN (12 R324, R339). -/
def alignedRelease (s : State) (l : Launch) : Option (Nat × Nat) :=
  (s.part l.part).steps.findSome? fun x => if x.no == l.stepNo && x.launches.head? == some l.id then x.aligned else none

/-- Post a launch when nothing it waits for is left and enough stands are free: stands, target and the request for current
are set, and what it reads is prepared (04 R116; 12 R323, R324; 15 R402). -/
def postLaunch (s : State) (id : Nat) : State :=
  match s.launch? id with
  | none => s
  | some l =>
    if l.posted || !l.after.isEmpty then s
    else
      let s1 := splitLaunch s l
      match s1.launch? id with
      | none => s
      | some l =>
        let free := freePartStands s1 l.part (excludedStands s1 l)
        if free.length < l.tasks.length || !workFits s1 l.part id l.room then s
        else
          let rel := alignedRelease s1 l
          let soon := roundEpoch (s1.now + 512)
          let target := match rel with
            | some (_, n) => max soon (roundEpoch n)
            | none => soon
          let amps := (l.tasks.map (·.credit)).sum + sliceAmps s1 l.slices
          let s2 := (takeWork s1 l.part id l.room).modLaunch id fun l => { l with
            posted := true, target, release := rel.map (·.1), amps
            tasks := l.tasks.zipIdx.map fun t => { t.1 with stand := free[t.2]? } }
          let s3 := ((free.take l.tasks.length).zipIdx).foldl (fun s k =>
            s.modStand k.1 fun x => { x with task := some (id, k.2) }) s2
          let req : CutRequest :=
            { launch := id, part := l.part, amps, epoch := target, arrived := target - 512, refusals := 0, cause := none }
          prepareLaunch { s3 with cut := { s3.cut with requests := s3.cut.requests ++ [req] } } id

/-- Post what can be posted in a partition, in posting order. -/
def postReady (s : State) (i : Nat) : State :=
  ((s.launches.filter fun l => l.part == i && !l.posted).map (·.id)).foldl postLaunch s

/-- The same in every partition. -/
def postAll (s : State) : State := ((s.launches.filter fun l => !l.posted).map (·.id)).foldl postLaunch s

/-- A launch is formed again for the requests of its pass that a failed fill did not touch (15 R491): the pass's launches give way
to new ones for the rows that still run, in the same place of the step. -/
def reformPass (s : State) (l : Launch) : State :=
  let old := s.launches.filter (samePass l)
  let gone := old.map (·.id)
  let before := distinct ((old.flatMap (·.after)).filter fun x => !gone.contains x)
  let deps := (s.launches.filter fun x => !gone.contains x.id && x.after.any gone.contains).map (·.id)
  let rows := l.rows.filter (rowAlive s)
  let longest := match l.kind with
    | .group m _ _ => longestContext (((launchBatches s l).filter fun b => b.model == m).flatMap fun b => b.rows0 ++ b.rows1)
    | _ => 0
  let again := (s.launches.filter fun x => match x.kind with
    | .rerun o _ => gone.contains o
    | _ => false).map (·.id)
  let s1 := (again ++ gone).foldl dropLaunch s
  match l.kind with
  | .group mid pass _ => match partModel (s1.part l.part) mid with
    | some m =>
      let first := s1.nextId
      let r := addPass s1 l.part l.stepNo m (imageBytes s1 l.part m) pass rows longest before
      let s2 := deps.foldl (fun s d => s.modLaunch d fun y => { y with after := distinct (y.after ++ r.2) }) r.1
      let s3 := s2.modPart l.part fun p => { p with steps := p.steps.map fun x =>
        if x.no = l.stepNo then
          let kept := x.launches.filter fun y => !gone.contains y
          let head := x.launches.head?.any gone.contains && decide (first < s2.nextId)
          { x with launches := if head then first :: kept else kept }
        else x }
      postReady s3 l.part
    | none => s1
  | _ => s1

/-! ### Gathers of launches (11 R306) -/

/-- Rows of a launch's gather that are all at hand: here or fetched. -/
def gatherHas (s : State) (job : Nat) (t : Table) (idx : Nat) : Bool :=
  (gatherItems t [idx]).all fun x => readHere s job t x ||
    s.fetched.any fun r => r.job == job && r.comp == x.1 && r.shard == x.2.1 && r.row == x.2.2

/-- A launch's gather is done: each row at its place in GatherTensor (11 R306). A row that no module served ends its request
with ST_TIMEOUT, one that is damaged with ST_FAULT (08 R222; 15 R417); a token beyond an IDENT table has bytes the spec does
not state, which are free (log 65). -/
def launchGatherDone (j : Job) (s : State) : State :=
  match s.launch? j.ticket with
  | none => dropGather s j.id
  | some l => match l.gather with
    | none => dropGather s j.id
    | some (tab, tensor, fmt) => match (s.part l.part).tables.find? fun t => t.id == tab with
      | none => failBatch (dropGather s j.id) l .fault
      | some t =>
        let esz := fmtElem fmt
        let pitch := 256 * cdiv (tableDim t * esz) 256
        let base := l.bases.getD tensor 0
        let toks := l.rows.map fun r => r.token.getD 0
        let good := toks.filter (indexOkFor t)
        let rows := rowsHere s l.part j.id t (gatherItems t good)
        let s1 := (l.rows.zipIdx).foldl (fun s x =>
          let tok := x.1.token.getD 0
          let at_ := base + pitch * x.2
          if !indexOkFor t tok then
            let n := tableDim t * esz
            { s.viewStore l.part .engine at_ ((List.range n).map fun k => Config.freeByte (s.freeIdx + k)) with
              freeIdx := s.freeIdx + n }
          else if !gatherHas s j.id t tok then endRows s [x.1] .timeout
          else if anyDamaged s j.id t (gatherItems t [tok]) then endRows s [x.1] .fault
          else s.viewStore l.part .engine at_
            ((keyRow t rows fmt ((gatherKeys t [tok]).headD (0, 0))).flatMap (leBytes esz))) s
        let s2 := dropGather (runGather s1 l.part j.id t rows fmt false [good]) j.id
        s2.modLaunch l.id fun l => { l with gather := none }

/-! ### Move lists (06 R170, R171) -/

/-- A fill that a launch waits for has ended. -/
def awaitDone (s : State) (launch fill : Nat) : State :=
  s.modLaunch launch fun l => { l with awaits := l.awaits.filter (· != fill) }

/-- The descriptor at the front of a launch's list has moved its bytes. -/
def moveDone (s : State) (launch : Nat) : State := s.modLaunch launch fun l => { l with moves := l.moves.drop 1 }

/-- Payload of a PEER_FETCH of blocks of a Chipper object, which come encoded (05 R156; log 20): kind 2, 7 reserved bytes,
address of its map, blocks of the object, blocks asked for from block 0 on. -/
def fetchBlocks (addr n count : Nat) : List Byte := [2] ++ leBytes 7 0 ++ leBytes 8 addr ++ leBytes 4 n ++ leBytes 4 count

/-- The fill of a descriptor whose source lies in T1 or in a peer's T1 (05 R131; 06 R161). -/
def moveFill (s : State) (l : Launch) (raw : List Byte) (d : Desc) : State :=
  let id := s.nextId
  let wait := fun (s : State) => s.modLaunch l.id fun l => { l with awaits := l.awaits ++ [id] }
  let lo := d.srcSpan.1.toNat
  let len := (d.srcSpan.2 - d.srcSpan.1).toNat
  if d.srcSpace = 1 then wait (startFill s l.part 1 0 lo len (.move l.id raw)).1
  else if !peerUp s (w16 d.peer) then failBatch s l .timeout
  else
    let f : Fill := { id, part := l.part, space := 3, peer := d.peer, addr := lo, len, forWhat := .move l.id raw,
                      issued := s.now, got := [] }
    let pay := if d.chipSrc then fetchBlocks d.srcBase d.auxCount (min d.chipTop d.auxCount) else fetchRange lo len
    wait (placeCall { s with nextId := id + 1, fills := s.fills ++ [f] } l.part (w16 d.peer) 0xFFFF false (.fill id) .peerFetch pay)

/-- Has a launch a descriptor that can start: everything before it is complete (06 R171)? -/
def moveReady (l : Launch) : Bool := l.posted && l.gather.isNone && l.awaits.isEmpty && !l.moves.isEmpty

/-- The partition whose descriptor the Skidder takes next, in rotation (13 R345); one whose accesses wait for its regulator gives
way. -/
def skidderTurn (s : State) : Option Nat :=
  rotate ((s.units.find? fun x => x.unit == .skidder).bind (·.last))
    ((s.launches.filter fun l => moveReady l && match l.moves.head? with
      | some raw => !flowHolds s l.part (descParse raw).flow
      | none => false).map (·.part))

/-- The Skidder has served a partition. -/
def skidderServed (s : State) (i : Nat) : State :=
  { s with units := s.units.map fun x => if x.unit = .skidder then { x with last := some i } else x }

/-- The next descriptor of a launch's list starts once everything before it is complete (06 R170, R171, R173): its footprints
are checked; from the Landing it moves its bytes at once, from T1 or a peer its fill starts. -/
def moveStart (launch : Nat) (s0 : State) : State :=
  match s0.launch? launch with
  | none => s0
  | some l => match l.moves with
    | [] => s0
    | raw :: _ =>
      if !moveReady l || skidderTurn s0 != some l.part then s0
      else
        let s := skidderServed s0 l.part
        let d := descParse raw
        match d.check (s.part l.part) [] (s.landBytes l.part) with
        | .landing => protection s l.part
        | .host => enterFaulted (bump s .hostProt l.part 0 1) l.part
        | .both => protection (bump s .hostProt l.part 0 1) l.part
        | .ok =>
          if d.srcSpace = 0 then
            let src := d.source (s.landBytes l.part)
            if !chipDstFits s l.part d src then protection s l.part
            else match runDesc s l.part d src with
              | some s1 => moveDone s1 launch
              | none => failBatch s l .fault
          else moveFill s l raw d

/-- The class of the move that a launch waits to start, and its partition. -/
def nextMove (s : State) (launch : Nat) : Option (Nat × Flowing) :=
  (s.launch? launch).bind fun l => l.moves.head?.map fun raw => (l.part, (descParse raw).flow)

/-- MOVE_DESCRIPTOR_START (06 R170): the accesses wait for their class's regulator (13 R353). -/
def execMoveDescriptorStart (launch : Nat) (s : State) : Host.Outcome State Fault Refusal :=
  live s (match nextMove s launch with
    | some x => regulated x.1 x.2 (moveStart launch) s
    | none => s)

/-! ### Firing (01 R18) -/

/-- Every operand region of a launch is complete. -/
def operandsReady (l : Launch) : Bool := l.gather.isNone && l.moves.isEmpty && l.awaits.isEmpty && l.lists.isEmpty

/-- Credits are granted for the epoch that holds the present count (15 R402). -/
def creditsNow (s : State) (l : Launch) : Bool :=
  match l.granted with
  | some e => decide (e ≤ s.now ∧ s.now < e + 256)
  | none => false

/-- The credits a launch holds from its firing on, by task (15 R405). -/
def launchHolds (l : Launch) : List Hold :=
  match l.kind with
  | .engine _ => [⟨l.part, l.id, 0, l.amps, false⟩]
  | .standTest _ => [⟨l.part, l.id, 0, l.amps, false⟩]
  | _ =>
    let tasks := l.tasks.zipIdx.map fun t => (⟨l.part, l.id, t.2, t.1.credit, false⟩ : Hold)
    let rest := l.amps - (l.tasks.map (·.credit)).sum
    if rest = 0 then tasks else tasks ++ [⟨l.part, l.id, l.tasks.length, rest, false⟩]

/-- With a launch formed for a unit's turn, the turn begins (15 R401), and so do the slices that ride in a launch (01 R18). -/
def turnBegins (l : Launch) (s : State) : State :=
  let ids := match l.kind with
    | .engine j => j :: l.slices
    | _ => l.slices
  ids.foldl (fun s j => s.modJob j fun j => j.begin s.now) s

/-- A launch fires (01 R18; 12 R325; 15 R405): each of its tasks holds its credits from here on. -/
def launchFire (launch : Nat) (s : State) : State :=
  match s.launch? launch with
  | none => s
  | some l =>
    if l.posted && l.fired.isNone && decide (l.target ≤ s.now) && operandsReady l && creditsNow s l then
      let s1 := s.modLaunch launch fun l => { l with fired := some s.now }
      let s2 := turnBegins l { s1 with cut := { s1.cut with held := s1.cut.held ++ launchHolds l } }
      let stall := s.now - l.target
      let s3 := bump (bump s2 .launchFired l.part 0 1) .launchStalled l.part 0 (boolNat (decide (0 < stall)))
      let s4 := bumpMax (bump (bump s3 .launchStall l.part 1 l.stallLate) .launchStall l.part 2 l.stallCredit) .launchStallMax
        l.part 0 stall
      match l.release with
      | some t => alignFired s4 l.part t
      | none => s4
    else s

def execLaunchFire (launch : Nat) (s : State) : Host.Outcome State Fault Refusal := live s (launchFire launch s)

/-! ### Tokens (11 R296, R297; 07 R211, R212) -/

/-- Does a request's SAMPLE take its candidates from a Tally SELECT (11 R296)? -/
def samplesList (p : Sampling) : Bool := !p.greedy && p.candCount != 0

/-- Logits of a row of a SAMPLE task: FP32 as they stand, BF16 widened on the way to the scratchpad (04 R112; log 88). -/
def rowLogits (s : State) (i : Nat) (r : SampleRow) : List W32 :=
  if r.bf then (bf16s (s.viewBytes i r.logits (2 * r.n))).map widen else fp32s (s.viewBytes i r.logits (4 * r.n))

/-- The launch that holds the lines of a launch's rows: of a re-run the one whose task runs again. -/
def workOwner (l : Launch) : Nat :=
  match l.kind with
  | .rerun o _ => o
  | _ => l.id

/-- One row of SAMPLE over what stands in the Landing (04 R112 to R114): its logits, or its candidate list unless `full`. -/
def sampleAt (s : State) (l : Launch) (r : SampleRow) (full : Bool) : Sampled :=
  let base := workAt s l.part (workOwner l)
  let ld := fun (o n : Nat) => areaLoad s l.part 4 (base + o) n
  let q := ld r.param 32
  let mask := r.mask.map fun m => ld m.1 (256 * m.2)
  let go := fun (v : List W32) (ids : List Nat) =>
    sampleRow v ids mask (w64 (fld q 0 8)) (fld q 8 4) (w32 (fld q 0xC 4)) (w32 (fld q 0x10 4)) (bit (fld q 0x14 4) 0)
  match (if full then none else r.list) with
  | some o =>
    let raw := ld o (8 * r.count)
    go ((fldList raw 0 8 r.count).map w32) ((List.range r.count).map fun k => fld raw (8 * k + 4) 4)
  | none =>
    let v := rowLogits s l.part r
    go v (List.range v.length)

/-- The result record of a row, in its line (04 R112). -/
def sampledBytes (x : Sampled) : List Byte :=
  bytesAt (leBytes 4 x.token.toNat ++ leBytes 4 x.flags ++ leBytes 4 x.max.toNat ++ leBytes 4 x.kept.toNat) 0 256

/-- Rows of a SAMPLE task run, their results stored one after another (04 R112). -/
def runSampleRows (s : State) (l : Launch) (rows : List SampleRow) : State :=
  rows.foldl (fun s r =>
    let n := if r.bf then 2 * r.n else 4 * r.n
    charge (areaPut s l.part .stand 4 (workAt s l.part (workOwner l) + r.result) (sampledBytes (sampleAt s l r false))) l.part .stand
      (n + 32)) s

/-- A request's ending is noted, to be posted at the boundary (11 R290 order 1). -/
def noteEnding (s : State) (id : Nat) (st : Status) (r : Reason) : State :=
  s.modCtx id fun c => { c with ending := some ⟨st, r⟩ }

/-- SAMPLE found no token (07 R211). TEASEL_DEAD is not counted when the request ends 'as if a dead state had been entered': DESIGN
CHOICE, since no dead state was (log 107). -/
def noToken (s : State) (c : Ctx) (g : Option Grammar) (t : Tokenizer) (reserve : Nat) : State :=
  match g with
  | none => bump (noteEnding s c.id .fault .none) .sampleNone c.part 0 1
  | some _ =>
    let s1 := releaseText s c (planerFlush (some reserve) (ctxPlaner c))
    if c.opts.forceEos then
      noteEnding (s1.modCtx c.id fun c => { c with output := c.output ++ t.eos.toList }) c.id .ok .grammarEos
    else noteEnding s1 c.id .ok .grammarDead

/-- A request takes its generated token (07 R197 to R212; 11 R295, R297). -/
def ctxToken (s : State) (c : Ctx) (g : Option Grammar) (t : Tokenizer) (reserve tok : Nat) : State :=
  let e := takeToken t g c.opts (some reserve) tok c.output.isEmpty (ctxPlaner c) c.gstate
  let out := c.output ++ [tok] ++ if e.eosAdded then t.eos.toList else []
  let full := e.planer.full || decide (reserve ≤ e.planer.text.length)
  let stop := decide (c.maxNew ≤ c.output.length + 1) || full
  let p := if e.reason.isNone && stop then planerFlush (some reserve) e.planer else e.planer
  let s1 := bump (releaseText s c p) .teaselDead c.part 0 (boolNat e.deadEntered)
  let s2 := s1.modCtx c.id fun c => { c with output := out, gstate := e.gstate }
  match e.reason with
  | some r => noteEnding s2 c.id .ok r
  | none => if stop then noteEnding s2 c.id .ok .length else s2

/-- Token and Flags of the result record that SAMPLE left for a row (04 R112). -/
def sampledAt (s : State) (l : Launch) (r : SampleRow) : Nat × Nat :=
  let bs := areaLoad s l.part 4 (workAt s l.part l.id + r.result) 16
  (fld bs 0 4, fld bs 4 4)

/-- Firmware takes what SAMPLE gave a request (07 R209 to R211): NONE from a masked candidate list is sampled again over the
full row. -/
def sampleTake (s : State) (l : Launch) (r : SampleRow) : State :=
  match s.ctx? r.ctx with
  | none => s
  | some c => match tokenizerOf s c c.generator with
    | none => noteEnding s c.id .fault .none
    | some t =>
      let g := c.opts.grammar.bind fun n => partGrammar (s.part c.part) n
      let first := sampledAt s l r
      let again := bit first.2 0 && r.list.isSome && r.mask.isSome
      let got := if again then
          let x := sampleAt s l r true
          (x.token.toNat, x.flags)
        else first
      let s1 := bump s .teaselResample c.part 0 (boolNat again)
      if bit got.2 0 then noToken s1 c g t (textReserve c) else ctxToken s1 c g t (textReserve c) got.1

/-! ### The end of a pass (11 R307) -/

/-- Is an output tensor in BF16? -/
def outputBf (m : Model) (tensor : Nat) : Bool := ((m.tensors[tensor]?).map (·.fmt)) == some 1

/-- Where output row `r` of a pass begins in the Landing (11 R307). -/
def outputAt (l : Launch) (m : Model) (tensor r : Nat) : Nat :=
  l.bases.getD tensor 0 + r * (256 * cdiv (m.outDim * if outputBf m tensor then 2 else 4) 256)

/-- Output row `r` of a pass as FP32. -/
def outputRow (s : State) (l : Launch) (m : Model) (tensor r : Nat) : List W32 :=
  let bf := outputBf m tensor
  let esz := if bf then 2 else 4
  let bs := s.viewBytes l.part (outputAt l m tensor r) (m.outDim * esz)
  if bf then (bf16s bs).map widen else fp32s bs

/-- The query vector in BF16 (11 R315). -/
def outputVector (s : State) (l : Launch) (m : Model) (tensor r : Nat) : List W16 :=
  let bf := outputBf m tensor
  if bf then bf16s (s.viewBytes l.part (outputAt l m tensor r) (m.outDim * 2))
  else (outputRow s l m tensor r).map toBf16

/-- Rows of a generator's pass that yield a token: the last prompt position, and every decode row (11 R292). -/
def yieldsToken (s : State) (pass : Nat) (r : BatchRow) : Bool :=
  rowAlive s r && r.last && (pass == 1 || match s.ctx? r.ctx with
    | some c => r.pos + 1 == c.prompt.length
    | none => false)

/-- Lines of WORK that a request's row of SAMPLE takes: its mask, its parameters, its result and its candidate list (04 R112;
07 R208; log 85). -/
def sampleLines (m : Model) (c : Ctx) : Nat :=
  (if c.opts.grammar.isSome then cdiv m.outDim 2048 else 0) + 2 +
    if samplesList c.sampling then cdiv (8 * min c.sampling.candCount m.outDim) 256 else 0

/-- The row of SAMPLE of a request whose logits begin at `at_`, its lines from byte `o` of the launch's on (11 R296). -/
def sampleRowAt (m : Model) (bf : Bool) (c : Ctx) (at_ o : Nat) : SampleRow :=
  let k := if c.opts.grammar.isSome then cdiv m.outDim 2048 else 0
  { ctx := c.id, logits := at_, n := m.outDim, bf, mask := if k = 0 then none else some (o, k), param := o + 256 * k,
    result := o + 256 * k + 256, list := if samplesList c.sampling then some (o + 256 * k + 512) else none,
    count := min c.sampling.candCount m.outDim }

/-- Rows of SAMPLE put into tasks of at most 256 rows (04 R112) whose lines fit `lim`: for each task its rows and lines. -/
def sampleTasks (m : Model) (bf : Bool) (lim : Nat) (xs : List (Ctx × Nat)) : List (List SampleRow × Nat) :=
  xs.foldl (fun acc x =>
    let n := sampleLines m x.1
    match acc.getLast? with
    | some (rs, used) =>
      if rs.length < 256 ∧ used + n ≤ lim then acc.dropLast ++ [(rs ++ [sampleRowAt m bf x.1 x.2 (256 * used)], used + n)]
      else acc ++ [([sampleRowAt m bf x.1 x.2 0], n)]
    | none => [([sampleRowAt m bf x.1 x.2 0], n)]) []

/-- A launch of SAMPLE: one task, whose credits, watchdog and number are the firmware's own and free (log 66); the launches
after the pass wait for it. -/
def sampleLaunch (s : State) (l : Launch) (m pass : Nat) (x : List SampleRow × Nat) : State :=
  let v := fun k => (Config.freeValue (s.freeIdx + k)).toNat
  let task : Task :=
    { body := .sample x.1, credit := v 0 % 24 + 1, watchdog := v 1 % 4294967295 + 1, taskId := w32 (v 2), stand := none,
      done := false, reruns := 0 }
  let id := s.nextId
  let s1 := { s with
    freeIdx := s.freeIdx + 3
    launches := s.launches.map fun y => if y.after.contains l.id then { y with after := y.after ++ [id] } else y }
  addLaunch s1 { l with id, kind := .sample m pass, cont := true, posted := false, target := 0, release := none, tasks := [task],
                        after := [], gather := none, moves := [], awaits := [], slices := [], lists := [], room := x.2, amps := 0,
                        granted := none, fired := none, stallLate := 0, stallCredit := 0 }

/-- The launches that sample the tokens of a pass (11 R296), for requests with the places of their logits. A request whose lines
the WORK area could not hold ends with ST_NO_SPACE (05 R127). -/
def addSample (s : State) (l : Launch) (m : Model) (bf : Bool) (pass : Nat) (xs : List (Ctx × Nat)) : State :=
  let lim := workLines s l.part
  let s1 := (xs.filter fun x => decide (lim < sampleLines m x.1)).foldl (fun s x => noteEnding s x.1.id .noSpace .none) s
  (sampleTasks m bf lim (xs.filter fun x => decide (sampleLines m x.1 ≤ lim))).foldl (fun s x => sampleLaunch s l m.id pass x) s1

/-- The last group of a pass is complete: each request's output goes on (11 R307, R315, R296). -/
def passDone (s : State) (l : Launch) (m : Model) (pass : Nat) : State :=
  let tensor := (m.passes.getD pass (0, 0, 0)).2.2
  match m.kind with
  | 0 => (l.rows.zipIdx).foldl (fun s r =>
      if r.1.last && rowAlive s r.1 then vectorDone s r.1.ctx (outputVector s l m tensor r.2) else s) s
  | 1 => (l.rows.zipIdx).foldl (fun s r =>
      if r.1.last && rowAlive s r.1 then scoreDone s r.1.ctx ((outputRow s l m tensor r.2).headD 0) else s) s
  | _ =>
    let xs := ((l.rows.zipIdx).filter fun r => yieldsToken s pass r.1).filterMap fun r =>
      (s.ctx? r.1.ctx).map fun c => (c, outputAt l m tensor r.2)
    addSample s l m (outputBf m tensor) pass xs

/-- Tokens of a sampling launch are taken, in row order. -/
def samplesDone (s : State) (l : Launch) : State :=
  l.tasks.foldl (fun s t => match t.body with
    | .sample rows => rows.foldl (fun s x =>
        if l.rows.any fun r => r.ctx == x.ctx && rowAlive s r then sampleTake s l x else s) s
    | .record _ => s) s

/-- The Tally's SELECT of a row's candidates is done: its entries stand in WORK, and SAMPLE takes Count of them (10 R280; 11
R296). -/
def candidatesDone (j : Job) (launch ctx : Nat) (s : State) : State :=
  let s1 := s.dropJob j.id
  match s1.launch? launch with
  | none => s1
  | some l => match (l.tasks.flatMap fun t => match t.body with
      | .sample rows => rows
      | .record _ => []).find? fun r => r.ctx == ctx with
    | none => s1
    | some r => match r.list with
      | none => s1
      | some o =>
        let v := rowLogits s1 l.part r
        let out := selectRow v r.count
        let s2 := areaPut (charge s1 l.part .engine (4 * r.n)) l.part .engine 4 (workAt s1 l.part l.id + o)
          (out.sel.flatMap fun x => leBytes 4 (outValue x.1).toNat ++ leBytes 4 x.2)
        let s3 := s2.modLaunch l.id fun l => { l with tasks := l.tasks.map fun t => match t.body with
          | .sample rows => { t with body := .sample (rows.map fun y => if y.ctx = ctx then { y with count := out.sel.length } else y) }
          | .record _ => t }
        countSelect s3 l.part v.length out.nan

/-- A launch is complete: with the last part of a pass's last group the pass is done. -/
def launchEnds (s : State) (l : Launch) : State :=
  match l.kind with
  | .group mid pass g =>
    let more := s.launches.any fun x => x.id != l.id && x.part == l.part && x.stepNo == l.stepNo && x.kind == l.kind
    match partModel (s.part l.part) mid with
    | some m =>
      let p := m.passes.getD pass (0, 0, 0)
      let s1 := if !more && g + 1 == p.1 + p.2.1 then passDone s l m pass else s
      dropLaunch s1 l.id
    | none => dropLaunch s l.id
  | .sample _ _ => dropLaunch (samplesDone s l) l.id
  | .rerun _ _ => dropLaunch s l.id
  | .engine _ => dropLaunch s l.id
  | .slices => dropLaunch s l.id
  | .standTest _ => dropLaunch s l.id

/-- Have all units of a fired launch completed: its tasks, and the slices that ride in it (11 R289)? -/
def Launch.over (l : Launch) : Bool :=
  l.fired.isSome && l.tasks.all (·.done) && l.slices.isEmpty && match l.kind with
    | .engine _ => false
    | .standTest _ => false
    | .rerun _ _ => false
    | _ => true

/-- Every launch whose units have completed ends, and what waited for it is posted. A launch of slices alone, all of which are
gone before it fires, ends as well. -/
def endLaunches (s : State) : State :=
  postAll ((s.launches.filter fun l => l.over || (l.kind == .slices && l.slices.isEmpty)).foldl launchEnds s)

/-! ### Tasks -/

/-- A task of a launch is complete; when all are, so is the launch. -/
def taskMarked (s : State) (launch ti : Nat) : State :=
  let s1 := s.modLaunch launch fun l => { l with tasks := match l.tasks[ti]? with
    | some t => l.tasks.set ti { t with done := true }
    | none => l.tasks }
  match s1.launch? launch with
  | some l => if l.tasks.all (·.done) && l.slices.isEmpty then launchEnds s1 l else s1
  | none => s1

/-- Credits of a task return at the next epoch boundary (15 R405). -/
def releaseHold (s : State) (launch ti : Nat) : State :=
  { s with cut := { s.cut with held := s.cut.held.map fun h =>
      if h.launch = launch ∧ h.task = ti then { h with done := true } else h } }

/-- The task a stand runs for a launch that has fired. -/
def runningTask (s : State) (n : Nat) : Option (Nat × Launch × Nat × Task) :=
  match standAt s n with
  | none => none
  | some k => match (s.stands[k]?).bind (·.task) with
    | some (id, ti) => match s.launch? id with
      | some l => match l.fired, l.tasks[ti]? with
        | some _, some t => some (k, l, ti, t)
        | _, _ => none
      | none => none
    | none => none

/-- What a task does to the Landing (04 R96, R112; 01 R16), and the single-bit scratchpad errors that its stand has corrected and
counted by then: a free number (04 R105; log 89), as are the cycles its array waited for operands (04 R99; log 27). -/
def runBody (s : State) (k : Nat) (l : Launch) (b : TaskBody) : State :=
  let s0 := ({ s with freeIdx := s.freeIdx + 1 } : State).modStand k fun x =>
    { x with corrected := x.corrected + (Config.freeValue s.freeIdx).toNat }
  let s0 := bumpFree s0 .standDepStall l.part (((s.stands[k]?).bind (·.logical)).getD 0)
  match b with
  | .record ops =>
    charge { s0 with landing := runTask (s.part l.part).view l.bases ops s.landing } l.part .stand (taskTraffic ops)
  | .sample rows => runSampleRows s0 l rows

/-- The part of a task that has run when it stops: a free number of its operations, or rows, from the first on (04 R104; log
90). -/
def bodyPrefix (v : Nat) : TaskBody → TaskBody
  | .record ops => .record (ops.take (v % (ops.length + 1)))
  | .sample rows => .sample (rows.take (v % (rows.length + 1)))

/-- A task has run whole (04 R96): its stores are in the Landing and its stand is free. -/
def taskDone (n : Nat) (s : State) : State :=
  match runningTask s n with
  | none => s
  | some (k, l, ti, t) =>
    let s1 := runBody s k l t.body
    let s2 := releaseHold (s1.modStand k fun x => { x with task := none }) l.id ti
    let s3 := taskMarked s2 l.id ti
    let s4 := match l.kind with
      | .rerun o t => if (s3.launch? l.id).isNone then taskMarked s3 o t else s3
      | _ => s3
    postReady s4 l.part

/-- The task a stand runs completes, once its accesses have passed the partition's STAND regulator (13 R353). -/
def taskComplete (n : Nat) (s : State) : State :=
  match runningTask s n with
  | some (_, l, _, _) => regulated l.part .stand (taskDone n) s
  | none => s

/-- STAND_TASK_COMPLETE (04 R96). -/
def execStandTaskComplete (stand : Nat) (s : State) : Host.Outcome State Fault Refusal := live s (taskComplete stand s)

/-- A task stops with a fault (04 R104 to R106, R116): what it has stored stays, its stand leaves service, and the task runs
again on another, once. -/
def taskFault (s : State) (k : Nat) (l : Launch) (ti : Nat) (t : Task) : State :=
  let s0 := runBody { s with freeIdx := s.freeIdx + 1 } k l (bodyPrefix (Config.freeValue s.freeIdx).toNat t.body)
  let s1 := releaseHold (standFault s0 k) l.id ti
  let s2 := match l.kind with
    | .rerun o _ => match s1.launch? o with
      | some y => failStep (dropLaunch s1 l.id) y
      | none => dropLaunch s1 l.id
    | _ =>
      let s2 := s1.modLaunch l.id fun l => { l with tasks := l.tasks.set ti { t with stand := some k, reruns := t.reruns + 1 } }
      addLaunch s2 { l with id := s2.nextId, kind := .rerun l.id ti, cont := true, posted := false, target := 0,
                            release := none, tasks := [{ t with stand := none }], after := [], gather := none, moves := [],
                            awaits := [], slices := [], lists := [], room := 0, amps := 0, granted := none, fired := none, stallLate := 0, stallCredit := 0 }
  postReady s2 l.part

/-- ARRAY_RESIDUE_FAULT (04 R104, R105). -/
def execArrayResidueFault (stand : Nat) (s : State) : Host.Outcome State Fault Refusal :=
  live s (match runningTask s stand with
    | some (k, l, ti, t) => taskFault s k l ti t
    | none => s)

/-- Counts of `n` × 4,096 stand cycles of 2.25 GHz (04 R106). -/
def watchdogCounts (n : Nat) : Nat := cdiv (n * 4096 * 4) 9

/-- TASK_WATCHDOG (04 R106): the task has not finished in its time. -/
def execTaskWatchdog (stand : Nat) (s : State) : Host.Outcome State Fault Refusal :=
  live s (match runningTask s stand with
    | some (k, l, ti, t) =>
      if l.fired.getD 0 + watchdogCounts t.watchdog ≤ s.now then taskFault s k l ti t else s
    | none => s)

/-- UNIT_SELFTEST_DONE (15 R414): a stand that returns may let a launch that was held go on. -/
def execUnitSelftestDone (unit : TestUnit) (pass : Bool) (s : State) : Host.Outcome State Fault Refusal :=
  live s (postAll (unitTested unit pass s))

/-- SPARE_SELFTEST_DONE (15 R415). -/
def execSpareSelftestDone (pass : Bool) (s : State) : Host.Outcome State Fault Refusal := live s (postAll (spareTested pass s))

end Sys2Proof.Machine
end

