-- ==== Sys2Proof/Machine/Serving.lean ====
section
/-! DEFINITION. Steps and their boundaries (11 R289 to R293, R297, R298), pauses, resumes and cancels (R299 to R301, R489),
SERVE_START, SERVE_STOP and PARTITION_RECOVER (R291, R303; 15 R425), and the request commands (R286, R313, R314, R319). -/

namespace Sys2Proof.Machine

/-! ### Forming a step (11 R292, R293) -/

/-- Does a record of the request wait to be posted (02 R46)? -/
def recordHeld (s : State) (c : Ctx) : Bool := (s.pair c.pair).waiting.any fun r => r.ticket == c.ticket

/-- May the request take part in the step formed now: it goes on, and no record of it waits? -/
def eligible (s : State) (c : Ctx) : Bool := !c.isOver && c.ending.isNone && !recordHeld s c

/-- As `eligible`, for a batch of a GENERATOR: no pause that is to act before it (11 R290, R299). -/
def eligibleGen (s : State) (c : Ctx) : Bool :=
  eligible s c && !(s.part c.part).controls.any fun x => x.kind == .requestPause && x.req == c.ticket

/-- Requests of a partition in class and then admission order (11 R292). -/
def classOrder (s : State) (i : Nat) : List Ctx :=
  let l := admissionOrder s i
  l.filter (fun c => !c.yarrow) ++ l.filter (·.yarrow)

/-- RowLimit of a model with the tables as loaded (11 R306). -/
def rowLimit (s : State) (i : Nat) (m : Model) : Nat :=
  m.groups.foldl (fun n g =>
    match (s.part i).tables.find? fun t => t.id == g.gatherTable, m.tensors[g.gatherTensor]? with
    | some t, some x => if g.gatherTable = 0xFF then n else min n (x.bytes / (256 * cdiv (tableDim t * fmtElem x.fmt) 256))
    | _, _ => n) m.rowLimit

/-- Rows of one unit or chunk: positions from `pos` on. -/
def unitRows (c : Ctx) (pos : Nat) (toks : List Nat) : List BatchRow :=
  toks.zipIdx.map fun t => ⟨c.id, c.ticket, c.replays, pos + t.2, some t.1, t.2 + 1 == toks.length⟩

/-- Units that a request still has for a model of a Kind (11 R293): `taken` counts those in steps. -/
def unitsLeft (c : Ctx) (m : Model) : List (List Nat) :=
  if m.kind = 0 then (if c.stage == .embed && qEncoder c.pay == m.id then [c.encTokens].drop c.taken else [])
  else if c.stage == .rerank && qReranker c.pay == some m.id then c.pairTokens.drop c.taken else []

/-- Units taken while the budget holds. -/
def takeUnits : Nat → List (List Nat) → List (List Nat)
  | _, [] => []
  | budget, u :: r => if u.length ≤ budget then u :: takeUnits (budget - u.length) r else []

/-- A batch of an ENCODER or RERANKER (11 R293): each request takes whole units; a unit longer than StepTokens goes alone; one
longer than RowLimit ends its request with ST_NO_SPACE. The requests with their units, and the state. -/
def unitPick (lim step : Nat) (m : Model) : List Ctx → Nat → List (Ctx × List (List Nat)) → State →
    List (Ctx × List (List Nat)) × State
  | [], _, acc, s => (acc, s)
  | c :: r, budget, acc, s =>
    match unitsLeft c m with
    | [] => unitPick lim step m r budget acc s
    | u :: us =>
      if lim < u.length then unitPick lim step m r budget acc (failRequest s c.id .noSpace)
      else if step < u.length then ([(c, [u])], s)
      else
        let got := takeUnits budget (u :: us)
        if got.isEmpty then unitPick lim step m r budget acc s
        else unitPick lim step m r (budget - sumLens' got) (acc ++ [(c, got)]) s
where
  /-- Tokens of some units. -/
  sumLens' (l : List (List Nat)) : Nat := (l.map (·.length)).sum

def unitBatch (s : State) (i : Nat) (m : Model) (p : Serving) : Batch × State :=
  let lim := rowLimit s i m
  let reqs := (classOrder s i).filter fun c => c.state == .retrieving && eligible s c
  let r := unitPick lim p.stepTokens m reqs (min p.stepTokens lim) [] s
  let rows := r.1.flatMap fun x => x.2.flatMap (unitRows x.1 0)
  let s1 := r.1.foldl (fun s x => s.modCtx x.1.id fun c => { c with taken := c.taken + x.2.length }) r.2
  (⟨m.id, rows, []⟩, s1)

/-! ### KV pages (11 R294) -/

/-- `k` runs of `units` free pages of a partition's T1. -/
def allocRuns (limit units : Nat) : Nat → List (Nat × Nat) → List Nat → Option (List Nat)
  | 0, _, acc => some acc
  | k + 1, used, acc =>
    match lowestFree 1 used limit units with
    | some p => allocRuns limit units k ((p, units) :: used) (acc ++ [p])
    | none => none

/-- T1 addresses of `k` fresh KV pages. -/
def allocPages (s : State) (i units k : Nat) : Option (List Nat) :=
  (allocRuns ((s.part i).frames.length * 16) units k (usedPages s i) []).map fun l => l.map (· * pageBytes)

/-- Pages of each layer, with `add` new ones a layer taken in order from `fresh`. -/
def growPages (layers per add : Nat) (old fresh : List Nat) : List Nat :=
  (List.range layers).flatMap fun l => (old.drop (l * per)).take per ++ (fresh.drop (l * add)).take add

/-- `kv_room` (11 R292): pages for positions up to `top`, allocated at once; none when the T1 share has no room. -/
def kvRoom (s : State) (c : Ctx) (m : Model) (top : Nat) : Option State :=
  match s.ctx? c.id with
  | none => none
  | some c =>
    let per := c.kvPages.length / max 1 m.layers
    let want := cdiv top 16
    if want ≤ per then some s
    else (allocPages s c.part (kvPageUnits m) (m.layers * (want - per))).map fun fresh =>
      s.modCtx c.id fun c => { c with kvPages := growPages m.layers per (want - per) c.kvPages fresh }

/-- Give back the pages beyond `top` positions. -/
def kvTrim (s : State) (id : Nat) (m : Model) (top : Nat) : State :=
  s.modCtx id fun c =>
    let per := c.kvPages.length / max 1 m.layers
    { c with kvPages := (List.range m.layers).flatMap fun l => ((c.kvPages.drop (l * per)).take per).take (cdiv top 16) }

/-! ### A GENERATOR batch (11 R292) -/

/-- What a batch has added: request, first position, number of rows, and whether they are decode rows. -/
structure Added where
  ctx : Ctx
  pos : Nat
  n : Nat
  decode : Bool
  deriving DecidableEq, Repr

/-- A batch while it is formed. -/
structure Forming where
  s : State
  budget : Nat
  rows : Nat
  added : List Added

def kvWait (s : State) (i n : Nat) : State := bump s .serveKvWait i 0 n

/-- May a request decode one more position (11 R295)? -/
def mayDecode (c : Ctx) : Bool := decide (c.taken + 1 < c.prompt.length + c.maxNew)

def formDecode (m : Model) (max_ : Nat) (f : Forming) (c : Ctx) : Forming :=
  if f.rows < max_ ∧ 0 < f.budget ∧ mayDecode c then
    match kvRoom f.s c m (c.taken + 1) with
    | some s => ⟨s, f.budget - 1, f.rows + 1, f.added ++ [⟨c, c.taken, 1, true⟩]⟩
    | none => { f with s := kvWait f.s c.part 1 }
  else f

def formPrefill (m : Model) (chunk hold : Nat) (f : Forming) (c : Ctx) : Forming :=
  let n := min (min (c.prompt.length - c.taken) chunk) (f.budget - if c.yarrow then 0 else hold)
  if n = 0 then f
  else match kvRoom f.s c m (c.taken + n) with
    | some s => ⟨s, f.budget - n, f.rows, f.added ++ [⟨c, c.taken, n, false⟩]⟩
    | none => { f with s := kvWait f.s c.part 1 }

/-- Requests left out, the last added first, until the page lists fit what lists of the step's other batches leave of the KV area
(11 R488). One whose list alone does not fit the area ends with ST_NO_SPACE. -/
def fitLists (i : Nat) (m : Model) (lines used : Nat) : Nat → Forming → Forming
  | 0, f => f
  | n + 1, f =>
    let need := fun (a : Added) => listLines m.layers (a.pos + a.n)
    if (f.added.map need).sum + used ≤ lines then f
    else match f.added.getLast? with
      | none => f
      | some a =>
        let s1 := kvTrim f.s a.ctx.id m a.pos
        let s2 := if lines < need a then failRequest s1 a.ctx.id .noSpace else kvWait s1 i 1
        fitLists i m lines used n { f with s := s2, added := f.added.dropLast }

/-- Rows of what a request added; a decode row's token is the last one generated, known when the step's turn comes. -/
def addedRows (a : Added) : List BatchRow :=
  if a.decode then [⟨a.ctx.id, a.ctx.ticket, a.ctx.replays, a.pos, none, true⟩]
  else unitRows a.ctx a.pos ((a.ctx.prompt.drop a.pos).take a.n)

/-- The batch of a GENERATOR (11 R292); `used` lines of the KV area hold lists of the step's batches before it. -/
def genBatch (s : State) (i : Nat) (m : Model) (p : Serving) (used : Nat) : Batch × State :=
  let mine := (classOrder s i).filter fun c => c.generator == m.id && eligibleGen s c
  let pre := mine.filter fun c => c.state == .prefill && decide (c.taken < c.prompt.length)
  let f0 : Forming := ⟨s, min p.stepTokens (rowLimit s i m), 0, []⟩
  let f1 := (mine.filter fun c => c.state == .decode).foldl (formDecode m p.decodeMax) f0
  let hold := if pre.any (·.yarrow) then min p.yarrowShare f1.budget else 0
  let f2 := pre.foldl (formPrefill m p.chunkMax hold) f1
  let f3 := fitLists i m (areaBytes (s.part i).runs 2 / 256) used f2.added.length f2
  let s1 := f3.added.foldl (fun s a => s.modCtx a.ctx.id fun c =>
    let t := a.pos + a.n
    { c with taken := t, state := if t < c.prompt.length then c.state else .decode }) f3.s
  let pick := fun d => (f3.added.filter fun a => a.decode == d).flatMap addedRows
  (⟨m.id, pick false, pick true⟩, s1)

/-- The batches of a step, one for each model that has work, by ascending id. -/
def formBatches (s : State) (i : Nat) (p : Serving) : List Batch × State :=
  (List.range 16).foldl (fun (acc : List Batch × State) id =>
    match partModel (acc.2.part i) id with
    | none => acc
    | some m =>
      let used := ((acc.1.flatMap (batchLists (acc.2.part i))).map (·.2)).sum
      let r := if m.kind = 2 then genBatch acc.2 i m p used else unitBatch acc.2 i m p
      if r.1.rows0.isEmpty && r.1.rows1.isEmpty then (acc.1, r.2) else (acc.1 ++ [r.1], r.2)) ([], s)

/-! ### Posting a step (11 R289, R292) -/

/-- A row of a formed step as its turn comes: gone when its request is, or has left the batch; a decode row has its token. -/
def settleRow (s : State) (r : BatchRow) : Option BatchRow :=
  match s.ctx? r.ctx with
  | some c =>
    if !rowAlive s r || c.state == .paused || c.state == .queued then none
    else match r.token with
      | some _ => some r
      | none => (c.output[r.pos - c.prompt.length]?).map fun t => { r with token := some t }
  | none => none

def settleBatch (s : State) (b : Batch) : Batch := { b with rows0 := b.rows0.filterMap (settleRow s), rows1 := b.rows1.filterMap (settleRow s) }

/-- Class index of a row's request. -/
def rowClass (s : State) (r : BatchRow) : Nat := match s.ctx? r.ctx with
  | some c => boolNat c.yarrow
  | none => 0

/-- Tokens taken, by class (11 R320). -/
def countTaken (s : State) (i : Nat) (b : Batch) : State :=
  let one := fun (s : State) (n : Ctr) (rows : List BatchRow) =>
    bump (bump s n i 0 (rows.countP fun r => rowClass s r == 0)) n i 1 (rows.countP fun r => rowClass s r == 1)
  match partModel (s.part i) b.model with
  | some m => if m.kind = 2 then one (one s .serveTokPrefill b.rows0) .serveTokDecode b.rows1 else s
  | none => s

/-- Launches of a batch, its two passes in order (11 R292). -/
def batchLaunches (i no : Nat) (acc : State × List Nat) (b : Batch) : State × List Nat :=
  match partModel (acc.1.part i) b.model with
  | none => acc
  | some m =>
    let img := imageBytes acc.1 i m
    let top := longestContext (b.rows0 ++ b.rows1)
    let a := addPass acc.1 i no m img 0 b.rows0 top acc.2
    addPass a.1 i no m img 1 b.rows1 top a.2

/-- The engine slices of a step ride in its first launch, or, where that has no room for their current or there is none, in one
of their own (11 R289; 15 R401, R406). -/
def addRiders (i no : Nat) (s : State) : State :=
  let r := takeRiders s i
  if r.2.isEmpty then s
  else match s.launches.find? fun l => l.part == i && l.stepNo == no && !l.posted && !taskless l with
    | some l =>
      if sliceAmps r.1 r.2 + (l.tasks.map (·.credit)).foldl max 0 ≤ launchAmps s i then
        r.1.modLaunch l.id fun l => { l with slices := r.2 }
      else own r
    | none => own r
where
  /-- A launch of slices alone. -/
  own (r : State × List Nat) : State :=
    addLaunch r.1 { ownLaunch r.1 i .slices 0 with stepNo := no, posted := false, target := 0, slices := r.2 }

/-- The step formed next fires its launches (11 R290 order 6). -/
def postStep (i : Nat) (s : State) : State :=
  let no := (s.part i).stepsDone + 1
  match (s.part i).steps.find? fun x => x.no == no && !x.posted with
  | none => s
  | some x =>
    let bs := (x.batches.map (settleBatch s)).filter fun b => !(b.rows0.isEmpty && b.rows1.isEmpty)
    let s1 := bs.foldl (fun s b => countTaken s i b) s
    let s2 := addRiders i no (bs.foldl (batchLaunches i no) (s1, [])).1
    let ids := (s2.launches.filter fun l => l.part == i && l.stepNo == no).map (·.id)
    postReady (s2.modPart i fun p => { p with steps := p.steps.map fun y =>
      if y.no = no then { y with batches := bs, posted := true, launches := ids } else y }) i

/-! ### Boundaries (11 R290) -/

/-- The free regime of a cancel (11 R301): start-up, Mode TEST or recovery. -/
def freeRegime (p : Partition) : Bool :=
  p.warm || !p.recovering.isEmpty || match p.serve with
    | some v => v.test && p.state == .serving
    | none => false

/-- Requests that have caught up with what they had generated leave the recovery (11 R301). -/
def endRecovery (s : State) (i : Nat) : State :=
  s.modPart i fun p => { p with recovering := p.recovering.filter fun x => match s.ctx? x.1 with
    | some c => decide (c.output.length < x.2)
    | none => false }

/-- A stream record of a request's unreported text, when it is due (11 R298). -/
def streamRecord (s : State) (id : Nat) : State :=
  match s.ctx? id with
  | none => s
  | some c =>
    let n := c.text.length - c.reported
    if c.isOver || c.cancelMark.isSome || c.streamBytes = 0 || n < c.streamBytes then s
    else match c.result with
      | none => s
      | some (h, off, _) =>
        let r := { ctxRecord s c .ok .none true c.output.length with
          handle := some h, resOffset := off + c.textOffset + c.reported, resLength := n }
        post (s.modCtx id fun c => { c with reported := c.text.length }) c.pair r

/-- Order 1 of 11 R290: stream records, and the final records of the requests that ended. -/
def boundaryRecords (i : Nat) (s : State) : State :=
  endRecovery ((admissionOrder s i).foldl (fun s c =>
    let s1 := streamRecord s c.id
    match c.ending with
    | some e => endRequest s1 c.id e.status e.reason
    | none => s1) s) i

/-- The request a control acts on, while it is the one it was taken for (11 R489). -/
def controlTarget (s : State) (i : Nat) (x : PendingControl) : Option Ctx := s.ctxs.find? fun c => c.ticket == x.req && c.part == i && !c.isOver

def dropControl (s : State) (i : Nat) (x : PendingControl) : State :=
  s.modPart i fun p => { p with controls := p.controls.filter fun y => y.ticket != x.ticket }

/-- A cancel takes effect (11 R301, R489). -/
def cancelNow (i : Nat) (s : State) (x : PendingControl) : State :=
  let s1 := dropControl s i x
  match controlTarget s1 i x with
  | none => finishPlain s1 x.ticket .notFound 0
  | some c =>
    let s2 := if freeRegime (s1.part i) then endRequest s1 c.id .ok .cancelledFreed
      else if c.state == .queued || c.state == .paused then endRequest s1 c.id .ok .cancelledDropped
      else s1.modCtx c.id fun c => { c with cancelMark := some ⟨c.text.length, c.output.length⟩ }
    finishPlain s2 x.ticket .ok 0

/-- A pause reaches its boundary (11 R299, R489): a request that is not yet in PREFILL keeps it until it is. -/
def pauseDue (i : Nat) (s : State) (x : PendingControl) : State :=
  let s1 := dropControl s i x
  match controlTarget s1 i x with
  | none => finishPlain s1 x.ticket .notFound 0
  | some c =>
    if c.state == .prefill || c.state == .decode then pauseNow s1 c.id x.ticket x.spill
    else s1.modCtx c.id fun c => { c with pauseHeld := some (x.ticket, x.spill) }

/-- A spill of the request is still being written. -/
def spilling (s : State) (id : Nat) : Bool := s.fills.any fun f => match f.forWhat with
  | .spill c _ => c == id
  | _ => false

/-- A resume of the request is reading its pages back. -/
def refilling (s : State) (id : Nat) : Bool := s.fills.any fun f => match f.forWhat with
  | .refill c _ => c == id
  | _ => false

/-- The request is back in the state it paused from (11 R300). -/
def backFromPause (s : State) (id t : Nat) : State :=
  match s.ctx? id with
  | none => finishPlain s t .notFound 0
  | some c =>
    let s1 := finishPlain (s.modCtx id fun c => { c with state := c.pausedFrom, spilled := none }) t .ok 0
    if c.needReplay then replayRequest s1 id else s1

/-- A resume takes effect (11 R300): pages are allocated and spilled ones filled back; without pages it waits. A host that
cannot be read ends both with ST_FAULT (15 R491). -/
def resumeNow (i : Nat) (s : State) (x : PendingControl) : State :=
  match controlTarget s i x with
  | none => finishPlain (dropControl s i x) x.ticket .notFound 0
  | some c =>
    if spilling s c.id then s
    else if c.state != .paused then finishPlain (dropControl s i x) x.ticket .wrongState 0
    else if c.needReplay then backFromPause (dropControl s i x) c.id x.ticket
    else match c.spilled, ctxModel s c c.generator with
      | some (space, addr, _, lens), some m =>
        match allocPages s i (kvPageUnits m) lens.length with
        | none => kvWait s i 1
        | some pages =>
          let s1 := (dropControl s i x).modCtx c.id fun c => { c with kvPages := pages }
          let r := startFill s1 i space 0 addr lens.sum (.refill c.id x.ticket)
          if r.2 then r.1 else finishPlain (failRequest r.1 c.id .fault) x.ticket .fault 0
      | _, _ => backFromPause (dropControl s i x) c.id x.ticket

/-- Controls of a code that are due at the boundary of step `n`, in the order they were taken. -/
def dueControls (s : State) (i n : Nat) (k : Code) : List PendingControl :=
  (s.part i).controls.filter fun x => x.kind == k && decide (x.atStep ≤ n)

/-- Orders 3 and 4 of 11 R290. -/
def boundaryControls (i n : Nat) (s : State) : State :=
  let s1 := (dueControls s i n .requestCancel).foldl (cancelNow i) s
  let s2 := (dueControls s1 i n .requestPause).foldl (pauseDue i) s1
  (dueControls s2 i n .requestResume).foldl (resumeNow i) s2

/-- Is service going on: may steps be formed and requests admitted? -/
def serves (p : Partition) : Bool := (p.state == .serving || p.state == .draining) && p.serve.isSome

/-- Order 5, unless a re-bind's switch is not complete (13 R360). -/
def boundaryAdmit (i : Nat) (s : State) : State :=
  if serves (s.part i) && (s.part i).rebind.isNone then admitAll s i else s

/-- The last launch of the running step has completed (11 R289). -/
def stepOver (s : State) (i : Nat) : Bool :=
  let no := (s.part i).stepsDone + 1
  (s.part i).steps.any (fun x => x.no == no && x.posted) && s.launches.all fun l => l.part != i || l.stepNo != no

/-- No step is running or formed: what acts at a boundary acts at once (log 68). -/
def idle (s : State) (i : Nat) : Bool := !stepRunning (s.part i)

/-- What is due acts now while no step runs, but not while a re-bind switches (13 R362). -/
def actIdle (i : Nat) (s : State) : State :=
  if idle s i && !switching s i then boundaryAdmit i (boundaryControls i (s.part i).stepsDone (boundaryRecords i s)) else s

/-- The release under which the step formed next is formed (12 R324, R339): a barrier with STEP_ALIGN, released, that no step is
bound to yet. -/
def nextAligned (s : State) (i : Nat) : Option (Nat × Nat) :=
  (s.part i).globals.findSome? fun g => match g.released with
    | some (n, _) =>
      if (s.part i).steps.any (fun x => x.aligned.any fun a => a.1 == g.ticket) || s.launches.any (fun x => x.release == some g.ticket)
      then none else some (g.ticket, n)
    | none => none

/-- The tracker forms the next step (11 R289, R290): at most one ahead of the one that runs, none while a re-bind is pending
(13 R360). A step is formed for batches, and for engine slices that ride in its launches. With
no step running it fires at once. -/
def stepForm (i : Nat) (s : State) : State :=
  let p := s.part i
  match p.serve with
  | none => s
  | some v =>
    if !serves p || p.rebind.isSome || p.stepsDone + 1 < p.stepsFormed then s
    else
      let s0 := actIdle i s
      let r := formBatches s0 i v
      if r.1.isEmpty && (ridersOf r.2 i).isEmpty then r.2
      else
        let no := (r.2.part i).stepsFormed + 1
        let s1 := r.2.modPart i fun p => { p with
          stepsFormed := no, steps := p.steps ++ [⟨no, r.1, false, [], nextAligned r.2 i⟩] }
        if (s1.part i).stepsDone + 1 = no then postStep i s1 else s1

/-! ### Spills and refills (11 R299, R300) -/

/-- The pages of a paused request have been written out: they are freed and the pause is complete. -/
def spillDone (s : State) (f : Fill) (id t : Nat) : State :=
  match s.ctx? id with
  | none => s.dropFill f.id
  | some c =>
    let chip := match c.spilled with
      | some (_, _, k, _) => k
      | none => false
    let bytes := bytesAt (spillPages s c chip).flatten 0 f.len
    let s1 := s.dropFill f.id
    let done := fun (s : State) =>
      finishPlain (bump (s.modCtx id fun c => { c with kvPages := [] }) .servePaused c.part 0 1) t .ok bytes.length
    if f.space = 1 then done (s1.t1Store f.part f.addr bytes)
    else
      let r := hostStore s1 f.part f.addr bytes
      if r.2 then done r.1
      else finishPlain (s1.modCtx id fun c => { c with state := c.pausedFrom, spilled := none }) t .fault 0

/-- Pages cut from the bytes of a spill range; none where a Chipper page does not decode. -/
def spillCut (chip : Bool) (size : Nat) : List Nat → List Byte → Option (List (List Byte))
  | [], _ => some []
  | n :: r, l =>
    let raw := if chip then chipBlocks (fun a k => bytesAt l a k) (size / 4096) 0 (size / 4096)
      else some (bytesAt l 0 n)
    match raw, spillCut chip size r (l.drop n) with
    | some a, some b => some (a :: b)
    | _, _ => none

/-- The bytes of a spill range have come back: the pages are stored and the resume is complete. -/
def refillDone (s : State) (f : Fill) (id t : Nat) (bytes : List Byte) : State :=
  match s.ctx? id with
  | none => s.dropFill f.id
  | some c =>
    let s1 := s.dropFill f.id
    match c.spilled with
    | none => s1
    | some (_, _, chip, lens) => match spillCut chip (ctxPageBytes s c) lens bytes with
      | none => backFromPause (bump (s1.modCtx id fun c => { c with needReplay := true }) .chipperErr 0 0 1) id t
      | some pages =>
        backFromPause ((c.kvPages.zip pages).foldl (fun s x => s.t1Store f.part x.1 x.2) s1) id t

/-! ### SERVE_START, SERVE_STOP, WARMUP_END -/

/-- Form of SERVE_START (11 R291). -/
def serveForm (l : List Byte) : Bool :=
  let st := fld l 4 4
  let dm := fld l 0xA 2
  has l 16 && decide (fld l 0 1 ≤ 1) && zeroAt l 1 1 && decide (fld l 2 2 ≤ 60000) && decide (64 ≤ st ∧ st ≤ 16384) &&
  decide (16 ≤ fld l 8 2 ∧ fld l 8 2 ≤ st) && decide (1 ≤ dm ∧ dm ≤ 256) && decide (fld l 0xC 2 + dm ≤ st) && zeroAt l 0xE 2

/-- SERVE_START (11 R291). -/
def cmdServeStart (r : Req) (t : Nat) (s : State) : State :=
  let i := reqPid s r
  let l := r.pay
  runCmd .serveStart (pairPart s r)
    { Need.pass with form := serveForm l, state := (reqPart s r).state == .loaded }
    (fun t s => finishPlain (s.modPart i fun p => { p with
      state := .serving, warm := decide (0 < fld l 2 2)
      serve := some { test := fld l 0 1 == 1, warmupMs := fld l 2 2, stepTokens := fld l 4 4, chunkMax := fld l 8 2,
                      decodeMax := fld l 0xA 2, yarrowShare := fld l 0xC 2, since := s.now } }) t .ok 0) r t s

def execServeStart (r : Req) (s : State) : Host.Outcome State Fault Refusal := live s (enter .serveStart cmdServeStart r s)

/-- WarmupMs after SERVE_START, start-up ends (11 R291). -/
def warmupEnd (i : Nat) (s : State) : State :=
  match (s.part i).serve with
  | some v => if v.since + v.warmupMs * 1000000 ≤ s.now then s.modPart i fun p => { p with warm := false } else s
  | none => s

def execWarmupEnd (part : Nat) (s : State) : Host.Outcome State Fault Refusal := live s (warmupEnd part s)

/-- SERVE_STOP (11 R303; 02 R54): DRAINING, and on to LOADED or BOUND at once when no request is in flight. -/
def cmdServeStop (r : Req) (t : Nat) (s : State) : State :=
  let i := reqPid s r
  runCmd .serveStop (pairPart s r)
    { Need.pass with form := r.pay.isEmpty, state := (reqPart s r).state == .serving }
    (fun t s =>
      let n := s.ctxs.countP fun c => c.part == i
      let s1 := alignDropped s i
      finishPlain (s1.modPart i fun p => { p with state := if n = 0 then loadedOr p else .draining }) t .ok n) r t s

def execServeStop (r : Req) (s : State) : Host.Outcome State Fault Refusal := live s (enter .serveStop cmdServeStop r s)

/-! ### PARTITION_RECOVER (15 R425) -/

/-- A pair restarts (02 R30): indices, expected number and payloads; its binding stays. -/
def restartPair (s : State) (k : Nat) : State :=
  s.modPair k fun p => { Pair.reset with
    bound := p.bound, part := p.part, geom := p.geom, segs := p.segs, tailErr := p.tailErr, headErr := p.headErr,
    unboundWr := p.unboundWr, via := p.via }

/-- Everything of the partition but its binding is discarded; its segments are zeroed, its frames take a new generation. -/
def recoverEffect (i : Nat) (s : State) : State :=
  let p := s.part i
  let gen := if p.frames.isEmpty then s.t1.gen else (s.t1.gen + 1) % 2 ^ 48
  let s1 := dropEngineWork { s with cmds := s.cmds.filter fun c => c.part != some i, ctxs := s.ctxs.filter fun c => c.part != i } i
  let s2 := { s1 with landing := Mem.zeroSegs s1.landing p.segs, t1 := { s1.t1 with gen } }
  let s3 := (p.pairs ++ [64 + i]).foldl restartPair s2
  formDigest (s3.modPart i fun q => { Partition.unbound with
    state := .bound, segs := q.segs, runs := q.runs, frames := q.frames.map fun f => (f.1, gen), pairs := q.pairs,
    kvCompress := q.kvCompress, regs := q.regs, linkWeight := q.linkWeight, peers := q.peers, config := q.config,
    generation := if p.frames.isEmpty then q.generation else gen, lastRebindUs := q.lastRebindUs }) i

/-- PARTITION_RECOVER: the partition named is that of the pair (log 69); its final record lies at index 0 of the restarted
ring. -/
def cmdPartitionRecover (r : Req) (t : Nat) (s : State) : State :=
  let i := reqPid s r
  runCmd .partitionRecover (pairPart s r)
    { Need.pass with
      form := partitionForm r.pay && namedPart r.pay == pairPart s r
      state := (reqPart s r).state == .faulted }
    (fun t s =>
      let own := s.cmds.filter fun c => c.ticket == t
      let s1 := recoverEffect i s
      finishPlain { s1 with cmds := s1.cmds ++ own } t .ok 0) r t s

def execPartitionRecover (r : Req) (s : State) : Host.Outcome State Fault Refusal :=
  live s (enter .partitionRecover cmdPartitionRecover r s)

/-! ### QUERY_SUBMIT, GENERATE_SUBMIT -/

/-- Positive and finite (04 R112). -/
def positive32 (w : W32) : Bool := finite32 w && lt32 0 w

/-- The sampling fields' ranges (11 R296, R313; 04 R112). -/
def samplingForm (inv top : W32) (cand flags : Nat) : Bool :=
  positive32 inv && finite32 top && lt32 0 top && le32 top 0x3F800000 && decide (cand ≤ 4096) && decide (flags < 2) &&
  (!lt32 top 0x3F800000 || cand != 0 || flags == 1)

def streamForm (n : Nat) : Bool := n == 0 || decide (64 ≤ n ∧ n ≤ 1048576)

/-- Form of QUERY_SUBMIT that needs no object (11 R313, R296). -/
def queryForm (l : List Byte) : Bool :=
  let exp := bit (fld l 0 1) 0
  let k := (blockParse l 0x48).k
  let rr := fld l 2 1
  let off8 := fun o => fld l o 4 % 8 == 0
  has l 0x68 && decide (fld l 0 1 < 4) && decide (fld l 1 1 ≤ 15) && (decide (rr ≤ 15) || rr == 0xFF) && decide (fld l 3 1 ≤ 15) &&
  decide (fld l 4 1 ≤ 15) && (if rr = 0xFF then fld l 6 2 == 0 && fld l 0xA 2 == 0
    else decide (1 ≤ fld l 6 2 ∧ fld l 6 2 ≤ k) && decide (16 ≤ fld l 0xA 2)) &&
  decide (1 ≤ fld l 8 2 ∧ fld l 8 2 ≤ 256) && decide (16 ≤ fld l 0xC 4) &&
  (if exp then fld l 0x10 4 == 0 else decide (1 ≤ fld l 0x10 4 ∧ fld l 0x10 4 ≤ 65536)) && streamForm (fld l 0x14 4) &&
  samplingForm (w32 (fld l 0x20 4)) (w32 (fld l 0x24 4)) (fld l 0x28 2) (fld l 0x2A 2) && (exp || zeroAt l 0x2C 2) &&
  zeroAt l 0x2E 2 && off8 0x30 && off8 0x34 && off8 0x3C && optionsForm (l.drop (fld l 0x30 4)) &&
  decide (1 ≤ fld l 0x38 4 ∧ fld l 0x38 4 ≤ 65536) && has l (fld l 0x34 4 + fld l 0x38 4) &&
  decide (fld l 0x40 4 ≤ 65536) && (fld l 0x40 4 != 0 || fld l 0x3C 4 == 0) && has l (fld l 0x3C 4 + fld l 0x40 4) &&
  zeroAt l 0x44 4 && blockForm l 0x48

/-- Rules between a text options block, its grammar and the generator (07 R201, 11 R314). -/
def optionsFit (o : TextOptions) (g : Option Grammar) (m : Model) : Bool :=
  optionsGrammarOk o g && match g with
    | some x => x.tokenizer == m.tokenizer
    | none => true

/-- Rules of 11 R314 and R295 that need the objects; each applies as far as its objects are there. -/
def queryFits (s : State) (i : Nat) (l : List Byte) : Bool :=
  let enc := findModel s i (fld l 1 1)
  let rr := (qReranker l).map fun n => findModel s i n
  let gen := findModel s i (fld l 3 1)
  let x := findIndex s i (fld l 4 1)
  let o := optionsParse (l.drop (fld l 0x30 4))
  let g := o.grammar.bind fun n => findGrammar s i n
  let frame := fld l 5 1
  (match enc with
    | some m => m.kind == 0 && match x with
      | some x => m.outDim == x.dim
      | none => true
    | none => true) &&
  (match rr with
    | some (some m) => m.kind == 1 && decide (frame < m.frames.length) && decide (fld l 0xA 2 ≤ m.maxPos) &&
        decide ((frameSlot m frame 0).length + (frameSlot m frame 1).length ≤ fld l 0xA 2) &&
        (match modelTokenizer s i m with
          | some t => t.pad.isSome
          | none => true)
    | _ => true) &&
  (match gen with
    | some m => m.kind == 2 && decide (frame < m.frames.length) && decide (fld l 0xC 4 + fld l 0x10 4 ≤ m.maxPos) && optionsFit o g m
    | none => true) &&
  (match x with
    | some x => maskFits x (blockParse l 0x48)
    | none => true)

/-- The objects a query names (11 R314). -/
def queryFound (s : State) (i : Nat) (l : List Byte) : Bool :=
  let o := optionsParse (l.drop (fld l 0x30 4))
  (findModel s i (fld l 1 1)).isSome && (match qReranker l with
    | some n => (findModel s i n).isSome
    | none => true) && (findModel s i (fld l 3 1)).isSome && (findStore s i (fld l 4 1)).isSome &&
  (match o.grammar with
    | some n => (findGrammar s i n).isSome
    | none => true) &&
  match findIndex s i (fld l 4 1) with
  | some x => homeTerms x (blockParse l 0x48)
  | none => false

/-- Form of GENERATE_SUBMIT that needs no object (11 R319, R296). -/
def generateForm (l : List Byte) : Bool :=
  let fl := fld l 1 1
  let n := fld l 0x24 4
  has l 0x30 && decide (fld l 0 1 ≤ 15) && decide (fl < 8) && decide (1 ≤ fld l 4 4 ∧ fld l 4 4 ≤ 65536) && streamForm (fld l 8 4) &&
  samplingForm (w32 (fld l 0xC 4)) (w32 (fld l 0x10 4)) (fld l 2 2) (fld l 0x14 2) && zeroAt l 0x16 2 && decide (1 ≤ n) &&
  has l (fld l 0x20 4 + if bit fl 0 then 4 * n else n) && zeroAt l 0x2C 4 &&
  (if bit fl 1 then fld l 0x28 4 % 8 == 0 && optionsForm (l.drop (fld l 0x28 4)) else fld l 0x28 4 == 0)

/-- Options of a GENERATE_SUBMIT. -/
def generateOptions (l : List Byte) : TextOptions :=
  if bit (fld l 1 1) 1 then optionsParse (l.drop (fld l 0x28 4)) else TextOptions.plain

/-- Rules of GENERATE_SUBMIT that need its objects (11 R295, R319). -/
def generateFits (s : State) (i : Nat) (l : List Byte) : Bool :=
  let o := generateOptions l
  match findModel s i (fld l 0 1) with
  | none => true
  | some m =>
    m.kind == 2 && optionsFit o (o.grammar.bind fun n => findGrammar s i n) m &&
    (!bit (fld l 1 1) 0 ||
      ((fldList l (fld l 0x20 4) 4 (fld l 0x24 4)).all fun t => decide (t < m.outDim)) &&
        match modelTokenizer s i m with
        | some t => decide ((genTokens t l []).length + fld l 0x24 4 + fld l 4 4 ≤ m.maxPos)
        | none => true)

def generateFound (s : State) (i : Nat) (l : List Byte) : Bool :=
  (findModel s i (fld l 0 1)).isSome && match (generateOptions l).grammar with
    | some n => (findGrammar s i n).isSome
    | none => true

/-- Lowest free request context of the 4,096 (11 R286). -/
def freeCtxId (s : State) : Option Nat :=
  (firstFrom (fun n => s.ctxs.all fun c => c.id != n) (s.ctxs.length + 1) 0 1).filter fun n => decide (n < 4096)

/-- Does the request name a damaged model, store, tokenizer or grammar (15 R417)? -/
def namesDamaged (s : State) (i : Nat) (models : List Nat) (store grammar : Option Nat) : Bool :=
  let p := s.part i
  (p.models.any fun m => models.contains m.id && (m.res.damaged || p.tokenizers.any fun t => t.id == m.tokenizer && t.res.damaged)) ||
  p.stores.any (fun x => store == some x.id && x.res.damaged) || p.grammars.any fun g => grammar == some g.id && g.res.damaged

/-- A request is accepted (11 R286; 02 R44): its context, its acceptance record, and admission at once while no step runs. -/
def acceptRequest (r : Req) (i t : Nat) (isQuery : Bool) (generator maxNew stream : Nat) (p : Sampling) (o : TextOptions)
    (s : State) : State :=
  match freeCtxId s with
  | none => finishPlain s t .busy 0
  | some id =>
    let c : Ctx :=
      { id, ticket := t, pair := r.pair, seq := r.hdr.seq, irq := bit r.hdr.flags.toNat 0, part := i, yarrow := r.hdr.prio == 1,
        adm := t, state := .queued, stage := .none, pausedFrom := .queued, isQuery, pay := r.pay, generator, sampling := p,
        opts := o, maxNew, streamBytes := stream, queryTokens := [], encTokens := [], vector := [], entries := [],
        missing := 0, passages := [], pairTokens := [], scores := [], skipped := 0, nanSeen := false, packed := [],
        prompt := [], taken := 0, output := [], u := [], gstate := startState (s.part i) o, text := [], reported := 0,
        result := none, textOffset := 0, kvPages := [], spilled := none, pauseHeld := none, cancelTaken := false,
        cancelMark := none, ending := none, isOver := false, replays := 0, needReplay := false }
    let s1 := { s with ctxs := s.ctxs ++ [c] }.modCmd t fun x => { x with ctx := some id }
    actIdle i (post s1 r.pair (ctxRecord s1 c .ok .none true 0))

/-- QUERY_SUBMIT (11 R313, R314). -/
def cmdQuerySubmit (r : Req) (t : Nat) (s : State) : State :=
  let i := reqPid s r
  let l := r.pay
  let o := optionsParse (l.drop (fld l 0x30 4))
  runCmd .querySubmit (pairPart s r)
    { Need.pass with
      form := queryForm l && queryFits s i l
      state := (reqPart s r).state == .serving
      found := queryFound s i l
      room := if (freeCtxId s).isNone then some .busy else none }
    (fun t s =>
      let models := [fld l 1 1, fld l 3 1] ++ (qReranker l).toList
      if namesDamaged s i models (some (fld l 4 1)) o.grammar then finishPlain s t .fault 0
      else acceptRequest r i t true (fld l 3 1) (fld l 0x10 4) (fld l 0x14 4)
        { seed := w64 (fld l 0x18 8), invTemp := w32 (fld l 0x20 4), topP := w32 (fld l 0x24 4), candCount := fld l 0x28 2,
          greedy := bit (fld l 0x2A 2) 0 } o s) r t s

def execQuerySubmit (r : Req) (s : State) : Host.Outcome State Fault Refusal := live s (enter .querySubmit cmdQuerySubmit r s)

/-- GENERATE_SUBMIT (11 R319). -/
def cmdGenerateSubmit (r : Req) (t : Nat) (s : State) : State :=
  let i := reqPid s r
  let l := r.pay
  let o := generateOptions l
  runCmd .generateSubmit (pairPart s r)
    { Need.pass with
      form := generateForm l && generateFits s i l
      state := (reqPart s r).state == .serving
      found := generateFound s i l
      room := if (freeCtxId s).isNone then some .busy else none }
    (fun t s =>
      if namesDamaged s i [fld l 0 1] none o.grammar then finishPlain s t .fault 0
      else acceptRequest r i t false (fld l 0 1) (fld l 4 4) (fld l 8 4)
        { seed := w64 (fld l 0x18 8), invTemp := w32 (fld l 0xC 4), topP := w32 (fld l 0x10 4), candCount := fld l 2 2,
          greedy := bit (fld l 0x14 2) 0 } o s) r t s

def execGenerateSubmit (r : Req) (s : State) : Host.Outcome State Fault Refusal :=
  live s (enter .generateSubmit cmdGenerateSubmit r s)

/-! ### REQUEST_CANCEL, REQUEST_PAUSE, REQUEST_RESUME -/

/-- The request a control names: the one that holds the context, in the pair's partition (11 R301, R489). -/
def namedCtx (s : State) (r : Req) : Option Ctx :=
  s.ctxs.find? fun c => c.id == r.hdr.context.toNat && some c.part == pairPart s r && !c.isOver

def controlState (st : PState) : Bool := st == .serving || st == .draining

/-- A control of the request is pending. -/
def controlPending (s : State) (c : Ctx) (k : Code) : Bool :=
  (s.part c.part).controls.any fun x => x.kind == k && x.req == c.ticket

/-- A control waits for the boundary of the last step formed; with none running it acts at once (11 R290; log 68). -/
def addControl (i t : Nat) (c : Ctx) (k : Code) (spill : Option (Nat × Nat × Nat)) (s : State) : State :=
  actIdle i (s.modPart i fun p => { p with controls := p.controls ++ [⟨t, c.ticket, p.stepsFormed, k, spill⟩] })

/-- REQUEST_CANCEL (11 R301). -/
def cmdRequestCancel (r : Req) (t : Nat) (s : State) : State :=
  let c := namedCtx s r
  runCmd .requestCancel (pairPart s r)
    { Need.pass with
      form := r.pay.isEmpty
      state := controlState (reqPart s r).state && match c with
        | some c => !c.cancelTaken
        | none => true
      found := c.isSome }
    (fun t s => match c with
      | some c => addControl c.part t c .requestCancel none (s.modCtx c.id fun c => { c with cancelTaken := true })
      | none => s) r t s

def execRequestCancel (r : Req) (s : State) : Host.Outcome State Fault Refusal :=
  live s (enter .requestCancel cmdRequestCancel r s)

/-- Form of REQUEST_PAUSE (11 R299). -/
def pauseForm (l : List Byte) : Bool :=
  has l 0x18 && decide (fld l 0 1 ≤ 1) && zeroAt l 2 6 &&
  if fld l 0 1 = 0 then zeroAt l 1 1 && zeroAt l 8 16 else spaceForm (fld l 1 1) && fld l 8 8 % 4096 == 0

/-- REQUEST_PAUSE (11 R299; 02 R58): of a Yarrow request that is neither paused nor to be paused or cancelled. -/
def cmdRequestPause (r : Req) (t : Nat) (s : State) : State :=
  let c := namedCtx s r
  let l := r.pay
  let spill := if fld l 0 1 = 0 then none else some (fld l 1 1, fld l 8 8, fld l 0x10 8)
  runCmd .requestPause (pairPart s r)
    { Need.pass with
      form := pauseForm l
      state := controlState (reqPart s r).state && match c with
        | some c => c.yarrow && c.state != .paused && !c.cancelTaken && c.pauseHeld.isNone && !controlPending s c .requestPause
        | none => true
      found := c.isSome }
    (fun t s => match c with
      | some c => addControl c.part t c .requestPause spill s
      | none => s) r t s

def execRequestPause (r : Req) (s : State) : Host.Outcome State Fault Refusal := live s (enter .requestPause cmdRequestPause r s)

/-- REQUEST_RESUME (11 R300). -/
def cmdRequestResume (r : Req) (t : Nat) (s : State) : State :=
  let c := namedCtx s r
  runCmd .requestResume (pairPart s r)
    { Need.pass with
      form := r.pay.isEmpty
      state := controlState (reqPart s r).state && match c with
        | some c => c.state == .paused && !controlPending s c .requestResume && !refilling s c.id
        | none => true
      found := c.isSome }
    (fun t s => match c with
      | some c => addControl c.part t c .requestResume none s
      | none => s) r t s

def execRequestResume (r : Req) (s : State) : Host.Outcome State Fault Refusal :=
  live s (enter .requestResume cmdRequestResume r s)

end Sys2Proof.Machine
end

