-- ==== Sys2Proof/Machine/Fills.lean ====
section
/-! DEFINITION. Fills and peer calls to their end: what a fill reads (05 R131), what it leaves when it completes, how it fails
(05 R135, R136; 15 R491), poisoned pages with their repair and damage (05 R141; 15 R417, R418, R423), unanswered and answered
peer commands (08 R222, R235; 09 R263; 11 R315), and PEER_FETCH. -/

namespace Sys2Proof.Machine

/-! ### Who owns a page (15 R417, R423) -/

/-- What a page of a partition's T1 holds. -/
inductive PageOwner where
  | model (id : Nat)
  | store (id : Nat)
  | tokenizer (id : Nat)
  | grammar (id : Nat)
  | table (id : Nat)
  | index (id : Nat)
  | bitmap (index bitmap : Nat)
  /-- Seedling list or planting workspace of a shard. -/
  | shardData (index : Nat)
  | request (ctx : Nat)
  | other
  deriving DecidableEq, Repr

/-- Does a residence hold a page of the partition? -/
def Residence.holds (r : Residence) (pg : Nat) : Bool := decide (16 * r.frame ≤ pg ∧ pg < 16 * (r.frame + r.frames))

/-- Do a request's KV pages or its spill range hold a page? -/
def ctxHolds (s : State) (c : Ctx) (pg : Nat) : Bool :=
  c.kvPages.any (fun a => decide (a / pageBytes ≤ pg ∧ pg * pageBytes < a + ctxPageBytes s c)) || match c.spilled with
    | some (1, a, _, lens) => decide (a / pageBytes ≤ pg ∧ pg * pageBytes < a + lens.sum)
    | _ => false

/-- Owner of a partition's page. -/
def pageOwner (s : State) (i pg : Nat) : PageOwner :=
  let p := s.part i
  let frame := pg / 16
  match p.models.find? (fun x => x.res.holds pg), p.stores.find? (fun x => x.res.holds pg),
    p.tokenizers.find? (fun x => x.res.holds pg), p.grammars.find? (fun x => x.res.holds pg),
    p.tables.find? (fun x => x.res.holds pg), p.indexes.find? (fun x => x.res.holds pg) with
  | some x, _, _, _, _, _ => .model x.id
  | _, some x, _, _, _, _ => .store x.id
  | _, _, some x, _, _, _ => .tokenizer x.id
  | _, _, _, some x, _, _ => .grammar x.id
  | _, _, _, _, some x, _ => .table x.id
  | _, _, _, _, _, some x => .index x.id
  | _, _, _, _, _, _ =>
    match p.indexes.findSome? fun x => (x.bitRes.find? fun b => b.2.holds pg).map fun b => (x.id, b.1) with
    | some (x, b) => .bitmap x b
    | none => match p.indexes.find? fun x => (x.seedFrames ++ x.workFrames ++ x.plantFrames).contains frame with
      | some x => .shardData x.id
      | none => match s.ctxs.find? fun c => c.part == i && ctxHolds s c pg with
        | some c => .request c.id
        | none => .other

/-- The residence of a content object (15 R417). -/
def ownerRes (p : Partition) : PageOwner → Option Residence
  | .model id => (p.models.find? fun x => x.id == id).map (·.res)
  | .store id => (p.stores.find? fun x => x.id == id).map (·.res)
  | .tokenizer id => (p.tokenizers.find? fun x => x.id == id).map (·.res)
  | .grammar id => (p.grammars.find? fun x => x.id == id).map (·.res)
  | .table id => (p.tables.find? fun x => x.id == id).map (·.res)
  | .index id => (p.indexes.find? fun x => x.id == id).map (·.res)
  | .bitmap x b => ((p.indexes.find? fun y => y.id == x).bind fun y => y.bitRes.find? fun e => e.1 == b).map (·.2)
  | _ => none

/-- Offset in its object of a page that holds loaded bytes, with the object's residence. -/
def loadedPage (s : State) (i pg : Nat) : Option (Residence × Nat) :=
  match ownerRes (s.part i) (pageOwner s i pg) with
  | some r =>
    let off := (pg - 16 * r.frame) * pageBytes
    if off < r.len then some (r, off) else none
  | none => none

/-- Where in its source some bytes of an object's T1 bytes came from: offset and length of each piece. Of a table T1 keeps the
rows and the shift bytes alone (08 R220). -/
def sourcePieces (s : State) (i pg off n : Nat) : List (Nat × Nat) :=
  match pageOwner s i pg with
  | .table id => match (s.part i).tables.find? fun t => t.id == id with
    | some t =>
      let k := min n (t.dataLen - off)
      (if k = 0 then [] else [(t.dataOffset + off, k)]) ++
        if k < n then [(t.scaleOffset + (off + k - t.dataLen), n - k)] else []
    | none => []
  | _ => [(off, n)]

/-- Offset and length of the source bytes that hold some pieces. -/
def piecesSpan (ps : List (Nat × Nat)) : Nat × Nat :=
  let lo := (ps.map (·.1)).foldl min (ps.headD (0, 0)).1
  (lo, (ps.map fun p => p.1 + p.2).foldl max 0 - lo)

/-! ### Damage (15 R417) -/

/-- Requests of a partition that some test picks end with a status (15 R417). -/
def endThose (s : State) (i : Nat) (st : Status) (f : Ctx → Bool) : State :=
  ((inFlight s i).filter f).foldl (fun s c => endRequest s c.id st .none) s

/-- Launches that run a model are dropped. -/
def dropModelLaunches (s : State) (i id : Nat) : State :=
  ((s.launches.filter fun l => l.part == i && match l.kind with
    | .group m _ _ => m == id
    | .sample m _ => m == id
    | .rerun o _ => match s.launch? o with
      | some y => match y.kind with
        | .group m _ _ => m == id
        | .sample m _ => m == id
        | .rerun _ _ => false
        | .slices => false
        | .engine _ => false
        | .standTest _ => false
      | none => false
    | .slices => false
    | .engine _ => false
    | .standTest _ => false).map (·.id)).foldl dropLaunch s

/-- Engine commands of some codes that name an object complete with ST_FAULT. -/
def faultCmds (s : State) (cs : List Cmd) : State :=
  cs.foldl (fun s c =>
    finishPlain ((s.jobs.filter fun j => j.ticket == c.ticket).foldl (fun s j => s.dropJob j.id) s) c.ticket .fault 0) s

/-- Searches of a damaged shard that run: a home's own shard is missing, a peer is refused (09 R263; 15 R417). -/
def shardGone (s : State) (i : Nat) (x : Index) : State :=
  (s.searches.filter fun y => y.part == i && y.index == x.id).foldl (fun s y =>
    match y.owner with
    | .peer t => finishPlain (cancelSearch s y.id) t .fault 0
    | _ =>
      let mine := fun (j : Job) => match j.kind with
        | .searchPart n _ _ _ => n == y.id
        | .shardMerge n => n == y.id
        | _ => false
      if y.shards.any (fun a => a.shard == x.shardIndex) || y.missing.contains x.shardIndex || x.isMap then s
      else shardMissing ((s.jobs.filter mine).foldl (fun s j => s.dropJob j.id) s) y.id x.shardIndex) s

/-- Rows of a table whose stored bytes or shift bytes lie in some image bytes: component and row. -/
def rowsAt (s : State) (t : Table) (off : Nat) : List (Nat × Nat) :=
  let me := s.myId.toNat
  (List.range t.shards.length).flatMap fun k =>
    let x := tableShard t k
    let f := (t.component x.comp).fmt
    if !x.heldBy me || x.colCount = 0 then [] else
      ((List.range x.rowCount).map (x.rowFirst + ·)).filterMap fun row =>
        let pl := rowPlace t me k row
        if rangesMeet (pl.1, fmtBytes f x.colCount) (off, pageBytes) || rangesMeet (pl.2, storedShifts f x.colCount) (off, pageBytes)
        then some (x.comp, row) else none

/-- The object that owns a page is damaged (15 R417): requests and commands that name it complete with ST_FAULT, a shard is
missing, a table loses the rows of the page. -/
def damageOwner (s : State) (i pg : Nat) : State :=
  let p := s.part i
  let hit := fun (s : State) (was : Bool) => if was then s else bump s .objDamaged i 0 1
  let dmg := fun (r : Residence) => { r with damaged := true }
  match pageOwner s i pg with
  | .model id =>
    let was := (p.models.find? fun x => x.id == id).any (·.res.damaged)
    let s1 := s.modPart i fun p => { p with models := p.models.map fun x => if x.id = id then { x with res := dmg x.res } else x }
    dropModelLaunches (endThose (hit s1 was) i .fault fun c => ctxUsesModel c id) i id
  | .store id =>
    let was := (p.stores.find? fun x => x.id == id).any (·.res.damaged)
    let s1 := s.modPart i fun p => { p with stores := p.stores.map fun x => if x.id = id then { x with res := dmg x.res } else x }
    endThose (hit s1 was) i .fault fun c => ctxUsesIndex c id
  | .tokenizer id =>
    let was := (p.tokenizers.find? fun x => x.id == id).any (·.res.damaged)
    let s1 := s.modPart i fun p => { p with
      tokenizers := p.tokenizers.map fun x => if x.id = id then { x with res := dmg x.res } else x }
    let s2 := endThose (hit s1 was) i .fault fun c => p.models.any fun m => m.tokenizer == id && ctxUsesModel c m.id
    faultCmds s2 ((cmdsOf s2 i .tokenizeSubmit ++ cmdsOf s2 i .detokenizeSubmit).filter fun c => fld c.pay 0 1 == id)
  | .grammar id =>
    let was := (p.grammars.find? fun x => x.id == id).any (·.res.damaged)
    let s1 := s.modPart i fun p => { p with grammars := p.grammars.map fun x => if x.id = id then { x with res := dmg x.res } else x }
    let s2 := endThose (hit s1 was) i .fault fun c => c.opts.grammar == some id
    faultCmds s2 ((cmdsOf s2 i .detokenizeSubmit).filter fun c => detokGrammar c.pay == some id)
  | .table id => match p.tables.find? fun x => x.id == id with
    | some t =>
      let rows := rowsAt s t ((pg - 16 * t.res.frame) * pageBytes)
      hit (modTable s i id fun t => { t with damagedRows := t.damagedRows ++ rows }) (!t.damagedRows.isEmpty)
    | none => s
  | .index id => shard id s
  | .bitmap id _ => shard id s
  | .shardData id => shard id s
  | .request _ => s
  | .other => s
where
  /-- A damaged shard is searched as missing. -/
  shard (id : Nat) (s : State) : State := match partIndex (s.part i) id with
    | some x =>
      let s1 := modIndex s i id fun x => { x with res := { x.res with damaged := true } }
      shardGone (if x.res.damaged then s1 else bump s1 .objDamaged i 0 1) i x
    | none => s

/-! ### What a fill reads (05 R131) -/

/-- The object a load or a repair brings: its length and whether it comes as a Chipper object (05 R486). -/
def fillObject (s : State) (f : Fill) : Option (Nat × Bool) :=
  match f.forWhat with
  | .load t => (s.cmd? t).map fun c => ((loadSrc c.code c.pay).len, (loadSrc c.code c.pay).chipper)
  | .repair i pg => (loadedPage s i pg).map fun x => (x.1.len, x.1.chip)
  | _ => none

/-- The tensor an operand fill brings. -/
def fillTensor (s : State) (f : Fill) : Option Tensor :=
  match f.forWhat with
  | .operand l k => match s.launch? l with
    | some x => match x.kind with
      | .group m _ _ => (partModel (s.part f.part) m).bind fun m => m.tensors[k]?
      | _ => none
    | none => none
  | _ => none

/-- First address and length of the bytes a fill reads, as far as `rd` shows them: a Chipper object is read through its map
(05 R152, R486). -/
def fillRange (s : State) (f : Fill) (rd : Nat → Nat → List Byte) : Nat × Nat :=
  match f.forWhat with
  | .move _ raw =>
    let d := descParse raw
    if d.chipSrc then
      (d.srcBase, chipEnd (fun o k => rd (d.srcBase + o) k) d.auxCount (min d.chipTop d.auxCount))
    else (f.addr, f.len)
  | .operand _ _ => match fillTensor s f with
    | some x => if x.chipper then
        let n := cdiv x.bytes 4096
        (f.addr, chipEnd (fun o k => rd (f.addr + o) k) n n)
      else (f.addr, f.len)
    | none => (f.addr, f.len)
  | _ => match fillObject s f with
    | some (len, true) => (f.addr, chipEnd (fun o k => rd (f.addr + o) k) (len / 4096) (len / 4096))
    | _ => (f.addr, f.len)

/-- First address of the bytes that arrive for a fill. -/
def fillBase (f : Fill) : Nat := match f.forWhat with
  | .move _ raw => if (descParse raw).chipSrc then (descParse raw).srcBase else f.addr
  | _ => f.addr

/-- Bytes of a fill from T1. -/
def fillT1 (s : State) (f : Fill) : Nat → Nat → List Byte := s.t1Bytes f.part

/-- Bytes of a fill as they have arrived from outside. -/
def fillGot (f : Fill) (l : List Byte) : Nat → Nat → List Byte := fun a k => bytesAt l (a - fillBase f) k

/-- Pages of the partition's T1 that a fill or spill reads. -/
def fillPages (s : State) (f : Fill) : List Nat :=
  match f.forWhat with
  | .spill id _ => match s.ctx? id with
    | some c => c.kvPages.flatMap fun a => rangePages a (ctxPageBytes s c)
    | none => []
  | .passage _ _ store item => match (s.part f.part).stores.find? fun y => y.id == store with
    | some st => itemPages s f.part st item
    | none => []
  | _ => if f.space = 1 then
      let r := fillRange s f (fillT1 s f)
      rangePages r.1 r.2
    else []

/-! ### Repair (15 R417) -/

def repairOf (s : State) (i pg : Nat) : Bool := s.fills.any fun f => f.forWhat == .repair i pg

/-- The blocks of a page are fetched from the object's source again; where that cannot be asked the object is damaged. -/
def repairStart (s : State) (i pg : Nat) : State :=
  if repairOf s i pg then s
  else match loadedPage s i pg with
    | none => damageOwner s i pg
    | some (r, off) =>
      let span := piecesSpan (sourcePieces s i pg off (min pageBytes (r.len - off)))
      let x := if r.chip then startFill s i r.srcSpace r.srcPeer r.srcAddr (8 * (r.len / 4096)) (.repair i pg)
        else startFill s i r.srcSpace r.srcPeer (r.srcAddr + span.1) span.2 (.repair i pg)
      if x.2 then x.1 else damageOwner x.1 i pg

/-- A load fails for good. -/
def loadEnds (s : State) (t : Nat) (st : Status) : State :=
  match s.cmd? t with
  | some c => loadFail s (c.part.getD 0) t st 0
  | none => s

/-- A launch's batch fails. -/
def launchFails (s : State) (launch : Nat) (st : Status) : State :=
  match s.launch? launch with
  | some l => failBatch s l st
  | none => s

/-- A pause or resume that met lost bytes: the request is to be replayed at its resume (15 R423). A pause is complete with no
bytes written (log 67), a resume brings the request back from its first stage. -/
def spillLost (s : State) (f : Fill) : State :=
  let s1 := s.dropFill f.id
  match f.forWhat with
  | .spill id t => finishPlain (s1.modCtx id fun c => { c with needReplay := true, kvPages := [], spilled := none }) t .ok 0
  | .refill id t => backFromPause (s1.modCtx id fun c => { c with needReplay := true }) id t
  | _ => s1

/-- A fill's bytes are lost for good (15 R491). -/
def fillLost (s : State) (f : Fill) (st : Status) : State :=
  match f.forWhat with
  | .load t => loadEnds (s.dropFill f.id) t st
  | .move l _ => launchFails (s.dropFill f.id) l st
  | .operand l _ => launchFails (s.dropFill f.id) l st
  | .spill _ _ => spillLost s f
  | .refill _ _ => spillLost s f
  | .repair i pg => damageOwner (s.dropFill f.id) i pg
  | .passage id _ _ _ => failRequest (s.dropFill f.id) id st

/-- A launch is formed again for the others of its batch (15 R491). -/
def launchReforms (s : State) (launch : Nat) : State :=
  match s.launch? launch with
  | some l => reformPass s l
  | none => s

/-- A fill's bytes are lost for good, and they belonged to one request, which is taken out of the batch (15 R491). -/
def fillTaken (s : State) (f : Fill) : State :=
  match f.forWhat with
  | .move l _ => launchReforms (s.dropFill f.id) l
  | .operand l _ => launchReforms (s.dropFill f.id) l
  | _ => fillLost s f .fault

/-- Fills of a partition that read a poisoned page which nothing repairs are lost; `own` says that the page was one request's. -/
def sweepFills (s : State) (i : Nat) (own : Bool := false) : State :=
  (s.fills.filter fun f => f.part == i).foldl (fun s f =>
    match s.fill? f.id with
    | some f =>
      if (fillPages s f).any fun pg => pagePoisoned s i pg && !repairOf s i pg then
        if own then fillTaken s f else fillLost s f .fault
      else s
    | none => s) s

/-- Is the page one request's own (15 R423)? -/
def ownPage (s : State) (i pg : Nat) : Bool :=
  match pageOwner s i pg with
  | .request _ => true
  | _ => false

/-- A page of a partition is poisoned and what it held is resolved (15 R417, R423, R491). -/
def pageLost (s : State) (i pg : Nat) : State :=
  let s1 := match pageOwner s i pg with
    | .request id => replayRequest s id
    | .other => s
    | .shardData _ => damageOwner s i pg
    | _ => repairStart s i pg
  feedUnits (sweepFills s1 i (ownPage s i pg))

/-- Mark a module page poisoned, and keep the count for its channel (05 R141; 15 R419). -/
def poisonPage (s : State) (page : Nat) : State :=
  if s.t1.poison.contains page then s else
    { s with t1 := { s.t1 with
        poison := page :: s.t1.poison
        poisonAt := (s.t1.poisonAt.filter fun e => decide (s.now < e.2 + dayCounts)) ++ [(s.t1.channelOf page, s.now)] } }

/-- A word of a module page stays uncorrectable after its retry (05 R141). -/
def pageError (s : State) (page : Nat) : State :=
  if s.t1.poison.contains page then s else bump (poisonPage s page) .memUe 0 (s.t1.channelOf page) 1

/-- Partition, and page of it, that a module page belongs to. -/
def pageHome (s : State) (page : Nat) : Option (Nat × Nat) :=
  (List.range 32).findSome? fun i =>
    ((s.part i).frames.findIdx? fun f => f.1 == page / 16).map fun k => (i, 16 * k + page % 16)

/-! ### A fill completes (05 R131) -/

/-- Class of a fill's Landing accesses (01 R16). -/
def fillFlow (f : Fill) : Flowing := if f.space = 1 then .fill else .link

/-- The accesses of a fill of `n` bytes that lands in T1, or leaves it: through the Landing, with frames where its other end is
outside (01 R16; 05 R137). -/
def fillCharge (s : State) (f : Fill) (n : Nat) : State :=
  if f.space = 1 then charge s f.part .fill n else charge (charge s f.part .link n) f.part .fill n

/-- Words that the controllers corrected while a fill read its pages, by channel: free numbers, which count towards retirement (05
R141; 15 R419; log 27). -/
def readCorrects (s : State) (i : Nat) (pages : List Nat) : State :=
  let cs := distinct (pages.filterMap fun pg => (t1Page (s.part i).frames (pg * pageBytes)).map fun x => s.t1.channelOf x.1)
  cs.foldl (fun s c =>
    let n := (Config.freeValue s.freeIdx).toNat
    let s1 := bumpFree s .memCe 0 c
    { s1 with t1 := { s1.t1 with
        correctedAt := (s1.t1.correctedAt.filter fun e => decide (s.now < e.2.1 + hourCounts)) ++ [(c, s.now, n)] } }) s

/-- A fill's bytes with zeros for the poisoned pages (05 R136, R141). -/
def intactT1 (s : State) (f : Fill) : Nat → Nat → List Byte := fun a n =>
  (chunks pageBytes a n).flatMap fun c =>
    if pagePoisoned s f.part (c.1 / pageBytes) then List.replicate c.2 0 else s.t1Bytes f.part c.1 c.2

/-- A fill into the Landing fails: the 64-byte units that arrived intact, which `rd` shows, hold their data, the others are zeros (05
R136). -/
def fillPartial (s : State) (f : Fill) (rd : Nat → Nat → List Byte) : State :=
  match f.forWhat with
  | .move _ raw => runFailed s f.part (descParse raw) rd
  | .operand l k => match fillTensor s f, s.launch? l with
    | some x, some y =>
      let n := cdiv x.bytes 4096
      let bytes := if x.chipper then ((List.range n).flatMap fun b =>
          (chipBlock (fun o k => rd (f.addr + o) k) n b).getD (List.replicate 4096 0)).take x.bytes
        else rd f.addr x.bytes
      { s with landing := landWrite s.landing (s.part f.part).view (y.bases.getD k 0) bytes }
    | _, _ => s
  | _ => s

/-- Blocks of a fill from T1 do not decode: CHIPPER_ERR is counted and what failed of a loaded object is fetched again, else the
bytes are lost (05 R155; 15 R491). -/
def chipFails (s : State) (f : Fill) : State :=
  let s1 := bump s .chipperErr 0 0 1
  let pages := (fillPages s f).filter fun pg => (loadedPage s f.part pg).isSome
  if pages.isEmpty then fillLost s1 f .fault
  else pages.foldl (fun s pg => repairStart s f.part pg) (fillPartial s1 f (intactT1 s f))

/-- The bytes of a repaired page have come: when they are what was loaded the page is rewritten, else its object is damaged
(15 R417). -/
def repairDone (s : State) (f : Fill) (i pg : Nat) (rd : Nat → Nat → List Byte) : State :=
  let s1 := s.dropFill f.id
  match loadedPage s i pg with
  | none => s1
  | some (r, off) =>
    let n := min pageBytes (r.len - off)
    let got := if r.chip then
        (chipBlock (fun o k => rd (f.addr + o) k) (r.len / 4096) (off / 4096)).map fun b => b.take n
      else some ((sourcePieces s i pg off n).flatMap fun p => rd (r.srcAddr + p.1) p.2)
    if got == some (s.t1Bytes i (pg * pageBytes) n) then
      let page := ((t1Page (s.part i).frames (pg * pageBytes)).map (·.1)).getD 0
      feedUnits (bump { fillCharge s1 f n with t1 := { s1.t1 with poison := s1.t1.poison.filter (· != page) } } .repairFill i 0 1)
    else feedUnits (sweepFills (damageOwner (bump s1 .chipperErr 0 0 (boolNat got.isNone)) i pg) i)

/-- Consumers of a fill whose bytes `rd` shows. -/
def fillArrived (s : State) (f : Fill) (rd : Nat → Nat → List Byte) : State :=
  match f.forWhat with
  | .load t =>
    let r := fillRange s f rd
    loadArrive (fillCharge (s.dropFill f.id) f f.len) t (rd r.1 (max r.2 f.len))
  | .move l raw =>
    let d := descParse raw
    let s1 := s.dropFill f.id
    if !chipDstFits s1 f.part d (d.source rd) then protection s1 f.part
    else match runDesc s1 f.part d (d.source rd) with
      | some s2 => awaitDone (moveDone s2 l) l f.id
      | none => if f.space = 1 then chipFails s f else launchFails (bump s1 .chipperErr 0 0 1) l .fault
  | .operand l k =>
    let s1 := s.dropFill f.id
    match fillTensor s f, s.launch? l with
    | some x, some y =>
      let n := cdiv x.bytes 4096
      let bytes := if x.chipper then (chipBlocks (fun o k => rd (f.addr + o) k) n 0 n).map fun b => b.take x.bytes
        else some (rd f.addr x.bytes)
      match bytes with
      | some b => awaitDone (s1.viewStore f.part .fill (y.bases.getD k 0) b) l f.id
      | none => chipFails s f
    | _, _ => s1
  | .spill id t => spillDone (fillCharge s f f.len) f id t
  | .refill id t => refillDone (fillCharge s f f.len) f id t (rd f.addr f.len)
  | .repair i pg => repairDone s f i pg rd
  | .passage id rank store item => match (s.part f.part).stores.find? fun y => y.id == store with
    | some st =>
      let x := storeItem s f.part st item
      if (itemRecord s f.part st item).isSome && x.isNone then chipFails s f
      else fetchAdvance (passageIn (charge (s.dropFill f.id) f.part .fill (match x with
        | some y => y.1.length + y.2.length
        | none => 0)) id rank x) id
    | none => fetchAdvance (passageIn (s.dropFill f.id) id rank none) id

/-- Forget what was asked outside for a fill. -/
def dropAsked (s : State) (id : Nat) : State :=
  { s with
    calls := s.calls.filter fun c => c.forWhat != .fill id
    bridge := { s.bridge with hostReads := s.bridge.hostReads.map fun h => if h.fill = some id then { h with fill := none } else h } }

/-- Is a page of the fill poisoned, or being fetched again? -/
def fillBlocked (s : State) (f : Fill) : Bool :=
  (fillPages s f).any fun pg => pagePoisoned s f.part pg || repairOf s f.part pg

/-- A fill or spill whose accesses pass completes. From T1 its bytes are those of the partition's T1, once none of its pages is
poisoned: till then its intact units land, and it waits (05 R136, R141). A range that a Chipper map takes outside the share is a
protection violation (05 R144). From host memory or a peer they are the bytes that frames and reads have brought, or `data`. -/
def fillTake (f : Fill) (data : List Byte) (s : State) : State :=
  let isSpill := match f.forWhat with
    | .spill _ _ => true
    | _ => false
  if isSpill || f.space = 1 then
    let r := fillRange s f (fillT1 s f)
    if !isSpill && !t1Ok (s.part f.part).frames r.1 r.2 then protection s f.part
    else if fillBlocked s f then fillPartial s f (intactT1 s f)
    else fillArrived (readCorrects s f.part (fillPages s f)) f (fillT1 s f)
  else
    let l := if f.len ≤ f.got.length then f.got else data
    let r := fillRange s f (fillGot f l)
    if l.length < f.len || l.length < r.2 then s
    else fillArrived (dropAsked s f.id) f (fillGot f l)

/-- FILL_COMPLETE: the accesses wait for the partition's regulator of their class (13 R353). -/
def fillComplete (fill : Nat) (data : List Byte) (s : State) : State :=
  match s.fill? fill with
  | none => s
  | some f => regulated f.part (fillFlow f) (fillTake f data) s

def execFillComplete (fill : Nat) (data : List Byte) (s : State) : Host.Outcome State Fault Refusal :=
  live s (fillComplete fill data s)

/-- Bytes arrive for a fill from outside. A Chipper object's map shows what else must be fetched (05 R152). -/
def fillGrows (s : State) (id : Nat) (bytes : List Byte) : State :=
  match s.fill? id with
  | none => s
  | some f =>
    let got := f.got ++ bytes
    let set := fun (s : State) (len : Nat) => { s with fills := s.fills.map fun x => if x.id = id then { x with got, len } else x }
    if got.length < f.len then set s f.len
    else
      let need := (fillRange s f (fillGot f got)).2
      if f.space = 2 && decide (f.len < need) then
        let r := hostFetch (set s need) f.part id (f.addr + f.len) (need - f.len)
        if r.2 then r.1 else fillLost s f .fault
      else set s f.len

/-! ### A fill fails (05 R135, R136; 15 R491) -/

/-- The source outside reports an error: a load or a resume completes with ST_FAULT, and so do the requests behind it. -/
def sourceFails (s : State) (f : Fill) (st : Status) : State :=
  let s1 := fillPartial (dropAsked s f.id) f (fillGot f (f.got.take (f.got.length / 64 * 64)))
  match f.forWhat with
  | .spill id t =>
    finishPlain ((s1.dropFill f.id).modCtx id fun c => { c with state := c.pausedFrom, spilled := none }) t st 0
  | .refill id t => endRequest (finishPlain (s1.dropFill f.id) t st 0) id st .none
  | .repair i pg => feedUnits (sweepFills (damageOwner (s1.dropFill f.id) i pg) i)
  | _ => fillLost s1 f st

/-- A fill fails: an uncorrectable word in a page that it reads, a Chipper block that does not decode, or an error of its
source. -/
def fillFailed (fill : Nat) (cause : FillCause) (s : State) : State :=
  match s.fill? fill with
  | none => s
  | some f => match cause with
    | .uncorrectable page => match pageHome s page with
      | some (i, pg) =>
        if i = f.part ∧ (fillPages s f).contains pg then
          let s1 := pageError s page
          pageLost (fillPartial s1 f (intactT1 s1 f)) i pg
        else s
      | none => s
    | .t2Source => if f.space = 1 then s else sourceFails s f .fault
    | .chipper => match f.forWhat with
      | .load t => if (fillObject s f).any (·.2) then loadEnds ((dropAsked s fill).dropFill fill) t .invalid else s
      | .repair i pg =>
        feedUnits (sweepFills (damageOwner (bump ((dropAsked s fill).dropFill fill) .chipperErr 0 0 1) i pg) i)
      | .refill _ _ => spillLost (bump (dropAsked s fill) .chipperErr 0 0 1) f
      | .spill _ _ => s
      | _ => chipFails (dropAsked s fill) f

def execFillFailed (fill : Nat) (cause : FillCause) (s : State) : Host.Outcome State Fault Refusal :=
  live s (fillFailed fill cause s)

/-! ### Unanswered peer commands -/

/-- The table that a gather's job reads. -/
def jobTable (s : State) (job : Nat) : Option Table :=
  match s.job? job with
  | none => none
  | some j =>
    let id : Option Nat := match s.cmd? j.ticket with
      | some c => some (fld c.pay 0 1)
      | none => match s.launch? j.ticket with
        | some l => l.gather.map fun g => g.1
        | none => none
    id.bind fun id => (s.part j.part).tables.find? fun t => t.id == id

/-- A gather that cannot have its rows: its command completes with a status, or of its launch the rows' requests do. -/
def rowsFail (s : State) (job comp : Nat) (items : List (Nat × Nat)) (st : Status) : State :=
  match s.job? job with
  | none => s
  | some j =>
    if (s.cmd? j.ticket).isSome then finishPlain (dropGather s job) j.ticket st 0
    else match s.launch? j.ticket, jobTable s job with
      | some l, some t =>
        let hit := l.rows.filter fun r =>
          let tok := r.token.getD 0
          indexOkFor t tok && (gatherItems t [tok]).any fun (x : Nat × Nat × Nat) => x.1 == comp && items.contains (x.2.1, x.2.2)
        feedUnits (endRows s hit st)
      | _, _ => feedUnits s

/-- A call goes unanswered: the replica is asked, and where there is none the owning chapter's outcome follows (08 R222, 09
R263, 11 R315, 05 R135). -/
def callFails (s : State) (c : Call) : State :=
  let s1 := s.dropCall c.tag
  let next := if c.onReplica || c.replica = 0xFFFF then none else if peerUp s (w16 c.replica) then some (w16 c.replica) else none
  match c.forWhat with
  | .search id shard => match next with
    | some m => if m = s.myId then shardMissing s1 id shard else resendCall s c m
    | none => shardMissing s1 id shard
  | .passage id rank => match next with
    | some m =>
      if m = s.myId then fetchAdvance (fetchHere s1 c.part id rank (fld c.pay 1 1) (fld c.pay 8 8)) id
      else resendCall s c m
    | none => fetchAdvance (passageIn s1 id rank none) id
  | .rows job comp items => match jobTable s job with
    | some t =>
      let r := if c.onReplica then (s1, items) else askReplicas s1 c job comp t items
      if r.2.isEmpty then feedUnits r.1 else rowsFail r.1 job comp r.2 .timeout
    | none => s1
  | .update t _ =>
    finishPlain { s1 with calls := s1.calls.filter fun x => match x.forWhat with
      | .update u _ => u != t
      | _ => true } t .timeout 0
  | .fill id => match s1.fill? id with
    | some f => sourceFails s1 f .timeout
    | none => s1

/-- 100 ms after it was issued, a fill from outside or a peer command fails (05 R135); named by its number. -/
def t2Timeout (n : Nat) (s : State) : State :=
  match s.fill? n with
  | some f => if f.space != 1 && decide (f.issued + t2Bound ≤ s.now) then sourceFails s f .timeout else s
  | none => match s.calls.find? fun c => c.tag == n with
    | some c => if !c.held && decide (c.issued + t2Bound ≤ s.now) then callFails s c else s
    | none => s

def execT2FillTimeout (fill : Nat) (s : State) : Host.Outcome State Fault Refusal := live s (t2Timeout fill s)

/-! ### Answers to peer commands -/

/-- Rows of a PEER_GATHER's reply, in the order asked (log 20); none where it is too short. -/
def parseRows (t : Table) (job comp epoch : Nat) (degraded : Bool) : List (Nat × Nat) → List Byte → Option (List FetchedRow)
  | [], _ => some []
  | (k, row) :: r, l =>
    let x := tableShard t k
    let f := (t.component comp).fmt
    let n := fmtBytes f x.colCount
    let m := storedShifts f x.colCount
    if l.length < n + m then none
    else (parseRows t job comp epoch degraded r (l.drop (n + m))).map fun q =>
      ⟨job, comp, k, row, l.take n, (l.drop n).take m, epoch, degraded⟩ :: q

/-- An owner reports its applied epoch (08 R235). -/
def epochReport (s : State) (i table owner epoch : Nat) : State :=
  modTable s i table fun t => { t with reports := setKey t.reports owner epoch }

/-- Tag and passage of a PEER_FETCH reply (log 20): two u32 lengths, tag bytes, passage bytes. -/
def passageReply (x : List Byte × List Byte) : List Byte := leBytes 4 x.1.length ++ leBytes 4 x.2.length ++ x.1 ++ x.2

/-- A peer has answered a call with a status and result bytes. -/
def callAnswered (s : State) (c : Call) (st : Nat) (l : List Byte) : State :=
  let s1 := s.dropCall c.tag
  let ok := st == Status.ok.code
  match c.forWhat with
  | .search id shard => shardAnswered s1 id shard st l
  | .passage id rank =>
    let n := fld l 0 4
    fetchAdvance (passageIn s1 id rank (if ok && has l (8 + n + fld l 4 4) then some (bytesAt l 8 n, bytesAt l (8 + n) (fld l 4 4))
      else none)) id
  | .rows job comp items =>
    if st == Status.fault.code then rowsFail s1 job comp items .fault
    else match jobTable s job with
      | none => s1
      | some t => match parseRows t job comp (fld l 0 4) (bit (fld l 4 1) 0) items (l.drop 8) with
        | some rows =>
          if ok && has l 8 then feedUnits { epochReport s1 c.part t.id c.target (fld l 0 4) with fetched := s1.fetched ++ rows }
          else callFails s c
        | none => callFails s c
  | .update t table =>
    if ok then
      let s2 := epochReport s1 c.part table c.target (fld l 0 4)
      if s2.calls.any fun x => x.forWhat == .update t table then s2
      else finishPlain s2 t .ok (match s2.cmd? t with
        | some x => updOcc x.pay
        | none => 0)
    else
      let s2 := if st = Status.denied.code && has l 8 then epochReport s1 c.part table c.target (fld l 0 4) else s1
      finishPlain { s2 with calls := s2.calls.filter fun x => x.forWhat != .update t table } t
        (if st = Status.denied.code then .denied else .fault) 0
  | .fill id => if ok then fillGrows s1 id l else match s1.fill? id with
    | some f => sourceFails s1 f .fault
    | none => s1

/-- Bytes of a peer's reply arrive, in order (14 R372), in class LINK (01 R16; those of a fill are counted with it); with the last
the call is answered. -/
def replyArrives (s : State) (src tag : W16) (total : Nat) (bytes : List Byte) : State :=
  match s.calls.find? fun c => w16 c.target == src && w16 c.tag == tag with
  | none => s
  | some c =>
    let c' := { c with got := c.got ++ bytes }
    let s := match c.forWhat with
      | .fill _ => s
      | _ => charge s c.part .link bytes.length
    if c'.got.length < total then { s with calls := s.calls.map fun x => if x.tag = c.tag then c' else x }
    else callAnswered s c' (fld c'.got 4 2) (c'.got.drop 32)

/-! ### PEER_FETCH -/

/-- Range of T1 that a PEER_FETCH of kind 0 or 2 reads. -/
def peerRange (s : State) (i : Nat) (l : List Byte) : Nat × Nat :=
  let a := fld l 8 8
  if fld l 0 1 = 2 then (a, chipEnd (fun o k => s.t1Bytes i (a + o) k) (fld l 16 4) (min (fld l 16 4) (fld l 20 4)))
  else (a, fld l 16 8)

/-- Form of a PEER_FETCH (log 20). -/
def peerFetchForm (s : State) (i : Nat) (l : List Byte) : Bool :=
  has l 24 && decide (fld l 0 1 ≤ 2) &&
  if fld l 0 1 = 1 then zeroAt l 2 6 && zeroAt l 16 8
  else zeroAt l 1 7 &&
    let r := peerRange s i l
    t1Ok (s.part i).frames r.1 r.2

/-- The answer to a PEER_FETCH of an item. Lost bytes end it with ST_FAULT and their repair begins (05 R141, R155; 15 R491). -/
def itemAnswer (i : Nat) (st : Store) (item t : Nat) (s : State) : State :=
  let pages := itemPages s i st item
  let bad := pages.filter (pagePoisoned s i)
  if st.res.damaged then finishPlain s t .fault 0
  else if !bad.isEmpty then finishPlain (bad.foldl (fun s pg => pageLost s i pg) s) t .fault 0
  else match storeItem s i st item with
    | some x => finish (charge s i .fill (x.1.length + x.2.length)) t .ok 0 (some (passageReply x))
    | none => finishPlain (pages.foldl (fun s pg => repairStart s i pg) (bump s .chipperErr 0 0 1)) t .fault 0

/-- PEER_FETCH (06 R161; 09 R263; 11 R315; 05 R156): bytes of this partition's T1, the encoded bytes of a Chipper object, or
an item's tag and passage. Poisoned bytes end it with ST_FAULT, and their repair begins. -/
def cmdPeerFetch (r : Req) (t : Nat) (s : State) : State :=
  let i := reqPid s r
  let l := r.pay
  let store := findStore s i (fld l 1 1)
  let item := fld l 0 1 == 1
  let there := store.bind fun st => itemRecord s i st (fld l 8 8)
  runCmd .peerFetch (pairPart s r)
    { Need.pass with
      form := peerFetchForm s i l
      state := engineState s r
      found := !item || there.isSome }
    (fun t s =>
      if item then match store with
        | some st => itemAnswer i st (fld l 8 8) t s
        | none => s
      else
        let g := peerRange s i l
        let bad := (rangePages g.1 g.2).filter (pagePoisoned s i)
        if bad.isEmpty then finish (charge s i .fill g.2) t .ok 0 (some (s.t1Bytes i g.1 g.2))
        else finishPlain (bad.foldl (fun s pg => pageLost s i pg) s) t .fault 0) r t s

def execPeerFetch (r : Req) (s : State) : Host.Outcome State Fault Refusal := live s (enter .peerFetch cmdPeerFetch r s)

end Sys2Proof.Machine
end

