-- ==== Sys2Proof/Machine/Cut.lean ====
section
/-! DEFINITION. The Cut arbiter: rounds and grants (15 R401 to R408), epoch boundaries (R402, R405), the budget loop (R399) and
the thermal states (R400); and what passes with a count of the Launch Counter (12 R321; 01 R18; 13 R353). -/

namespace Sys2Proof.Machine

/-- The quantities of 15 R398, in amperes. -/
def cutReserve : Nat := 128
def cutFloor : Nat := 256
def cutPeak : Nat := 1280
def cutGrantable : Nat := 1152

/-- Counts of an epoch (15 R398). -/
def epochCounts : Nat := 256

/-! ### Requests -/

/-- `a` is older than `b`, or of equal age: the count of arrival, then ascending partition id (15 R403). Posting order is the
order of the list. -/
def olderReq (a b : CutRequest) : Bool := decide (a.arrived < b.arrived ∨ (a.arrived = b.arrived ∧ a.part < b.part))

/-- Pending requests that have arrived, in order of age (15 R403). -/
def agedRequests (s : State) : List CutRequest := rankSort olderReq (s.cut.requests.filter fun r => decide (r.arrived ≤ s.now))

/-- A request refused in two consecutive rounds is blocking (15 R404). -/
def CutRequest.blocking (r : CutRequest) : Bool := decide (2 ≤ r.refusals)

/-- Credits a partition holds. -/
def heldPart (s : State) (i : Nat) : Nat :=
  ((s.cut.held.filter fun h => h.part == i).map (·.amps)).sum +
    ((s.launches.filter fun l => l.part == i && unfiredGrant l).map (·.amps)).sum

/-- A launch whose grant lapsed asks again once its operands are complete, naming the first epoch whose late round falls at
or after now (15 R402). -/
def askAgain (s : State) : State :=
  let due := s.launches.filter fun l =>
    l.posted && l.fired.isNone && l.granted.isNone && operandsReady l && s.cut.requests.all fun r => r.launch != l.id
  { s with cut := { s.cut with requests := s.cut.requests ++ due.map fun l =>
      { launch := l.id, part := l.part, amps := l.amps, epoch := alignUp epochCounts (s.now + 128), arrived := s.now,
        refusals := 0, cause := some .lapsed } } }

/-! ### A round (15 R403, R404) -/

/-- What a round finds against a request, the first that holds; `older` are the pending requests older than it. -/
def refusal (s : State) (r : CutRequest) (older : List CutRequest) : Option WaitCause :=
  let held := heldAmps s
  let cap := s.cut.caps.getD r.part 0
  if !(decide (held + cutReserve + r.amps ≤ s.cut.b) || (held == 0 && older.isEmpty && decide (r.amps ≤ cutGrantable))) then
    some .budget
  else if cap != 0 && decide (cap < heldPart s r.part + r.amps) then some .partcap
  else if s.cut.therm = .crit then some .thermal
  else if older.any (·.blocking) then some .order
  else none

/-- Decide one request of the round for epoch `e`: the credits are granted, or it names the next epoch (15 R402). -/
def decideOne (e : Nat) (s : State) (r : CutRequest) : State :=
  let older := (agedRequests s).takeWhile fun x => x.launch != r.launch
  match refusal s r older with
  | none =>
    let s1 := { s with cut := { s.cut with requests := s.cut.requests.filter fun x => x.launch != r.launch } }
    bump (s1.modLaunch r.launch fun l => { l with granted := some e }) .cutGrant r.part 0 r.amps
  | some c =>
    { s with cut := { s.cut with requests := s.cut.requests.map fun x =>
        if x.launch = r.launch then { x with epoch := e + epochCounts, refusals := x.refusals + 1, cause := some c } else x } }

/-- One round for epoch `e` over the requests that a test picks; a launch that a lowered cap cannot hold is divided before it
(15 R406). -/
def cutRound (e : Nat) (pick : CutRequest → Bool) (s : State) : State :=
  let s1 := (s.launches.map (·.id)).foldl divideAgain s
  ((agedRequests s1).filter pick).foldl (decideOne e) s1

/-! ### Epoch boundaries (15 R402, R405) -/

/-- At a boundary the credits of completed tasks are free, and grants of the epoch that ends without firing lapse. -/
def epochEnds (s : State) : State :=
  let s1 := { s with
    cut := { s.cut with held := s.cut.held.filter fun h => !h.done }
    launches := s.launches.map fun l => match l.granted with
      | some e => if l.fired.isNone && decide (e + epochCounts ≤ s.now) then { l with granted := none } else l
      | none => l }
  askAgain s1

/-- EPOCH_BOUNDARY: at counts that are multiples of 256. -/
def epochBoundary (s : State) : State := if s.now % epochCounts = 0 then epochEnds s else s

def execEpochBoundary (s : State) : Host.Outcome State Fault Refusal := live s (epochBoundary s)

/-- CUT_MAIN_ROUND: at E − 256, itself a boundary whose released credits count as free (15 R403, R405). -/
def cutMain (s : State) : State :=
  if s.now % epochCounts = 0 then
    let e := s.now + epochCounts
    cutRound e (fun r => decide (r.epoch ≤ e)) (epochEnds s)
  else s

def execCutMainRound (s : State) : Host.Outcome State Fault Refusal := live s (cutMain s)

/-- CUT_LATE_ROUND: at E − 128, over the requests that name E and that the main round has not decided. -/
def cutLate (s : State) : State :=
  if s.now % epochCounts = 128 then
    let e := s.now + 128
    cutRound e (fun r => r.epoch == e) (askAgain s)
  else s

def execCutLateRound (s : State) : Host.Outcome State Fault Refusal := live s (cutLate s)

/-! ### Budget (15 R399) -/

/-- The loop's term before the limits: B + ⌊(PS − Pavg) / 2⌋. -/
def loopTerm (s : State) (pavg : Nat) : Int := (s.cut.b : Int) + ((s.cut.ps : Int) - (pavg : Int)).fdiv 2

/-- B and the term that decides it, as CutBudget.LIMIT codes it (15 R399, R410). -/
def budgetOf (s : State) (pavg : Nat) : Nat × BitVec 3 :=
  let loop := (loopTerm s pavg).toNat
  let v := max cutFloor loop
  if v ≤ min cutPeak s.cut.bth then (v, if cutFloor ≤ loop then 0 else 1)
  else if s.cut.bth < cutPeak then (s.cut.bth, 3) else (cutPeak, 2)

/-- BUDGET_UPDATE: the measured powers come with it. -/
def budgetUpdate (pavg peak : Nat) (s : State) : State :=
  let b := budgetOf s pavg
  { s with cut := { s.cut with b := b.1, limit := b.2, pavg, peak := max s.cut.peak peak, peakHr := max s.cut.peakHr peak } }

def execBudgetUpdate (pavg peak : Nat) (s : State) : Host.Outcome State Fault Refusal := live s (budgetUpdate pavg peak s)

/-! ### Thermal states (15 R400) -/

/-- Tmax: the highest of the base-die, tile and LPDDR5X readings, the first six. -/
def tmaxOf (temps : List Int) : Int := ((temps.take 6).drop 1).foldl max (temps.headD 0)

/-- The state after a sample. -/
def thermNext (t : ThermState) (tmax : Int) : ThermState :=
  if 1050 ≤ tmax then .crit
  else match t with
    | .normal => if 950 ≤ tmax then .warn else .normal
    | .warn => if tmax < 900 then .normal else .warn
    | .crit => if tmax < 1000 then .warn else .crit

/-- The thermal alert output, pin SB_THERM_N: released, high, but low in WARN and CRIT (15 R400; 18 R466). -/
def thermPin (s : State) : Bool := s.cut.therm == .normal

/-- Bth after a sample: it falls for each millisecond spent in WARN, and returns when WARN is left for NORMAL. -/
def bthNext (old new : ThermState) (bth : Nat) : Nat :=
  match old, new with
  | .warn, .normal => cutPeak
  | .warn, _ => max cutFloor (bth - 32)
  | .normal, .normal => cutPeak
  | _, _ => bth

/-- THERMAL_SAMPLE: every millisecond, with the eight temperatures and the voltages and current of the telemetry (15 R411). At
110.0 degrees the core rail is turned off. -/
def thermalSample (temps : List Int) (milliVolts milliAmps coreMilliVolts : Nat) (s : State) : State :=
  if temps.length ≠ 8 then s
  else
    let tmax := tmaxOf temps
    let new := thermNext s.cut.therm tmax
    let s1 := match s.cut.therm with
      | .normal => s
      | .warn => bump s .thermWarn 0 0 1
      | .crit => bump s .thermCrit 0 0 1
    { s1 with
      cut := { s1.cut with therm := new, tmax, bth := bthNext s.cut.therm new s.cut.bth, temps, milliVolts, milliAmps,
                           coreMilliVolts }
      power := { s1.power with railTripped := s1.power.railTripped || decide (1100 ≤ tmax) } }

def execThermalSample (temps : List Int) (milliVolts milliAmps coreMilliVolts : Nat) (s : State) :
    Host.Outcome State Fault Refusal := live s (thermalSample temps milliVolts milliAmps coreMilliVolts s)

/-! ### A count passes -/

/-- Codes of CUT_WAIT (15 R408). -/
def WaitCause.code : WaitCause → Nat
  | .budget => 0 | .partcap => 1 | .order => 2 | .thermal => 3 | .lapsed => 4

/-- A launch past its target that has not fired spends the count under one cause (01 R18; 15 R408). -/
def stallOne (s : State) (l : Launch) : State :=
  if !l.posted || l.fired.isSome || decide (s.now < l.target) then s
  else if !operandsReady l then s.modLaunch l.id fun l => { l with stallLate := l.stallLate + 1 }
  else if creditsNow s l then s
  else
    let cause := match s.cut.requests.find? fun r => r.launch == l.id with
      | some r => r.cause
      | none => some .lapsed
    let s1 := s.modLaunch l.id fun l => { l with stallCredit := l.stallCredit + 1 }
    match cause with
    | some c => bump s1 .cutWait l.part c.code 1
    | none => s1

/-- A regulator gains its rate, up to its burst; what waited for it may pass once the count is positive (13 R353). -/
def Regulator.gain (r : Regulator) : Regulator :=
  let n := min (r.burst : Int) (r.count + r.rate)
  { r with count := n, waiting := r.waiting && decide (n ≤ 0) }

/-- Landing cycles of 1.6 GHz in the count that follows count `n`. -/
def landingCycles (n : Nat) : Nat := (n + 1) * 8 / 5 - n * 8 / 5

/-- Class codes in the order of a partition's regulators (01 R16; 13 R346). -/
def regCodes : List Nat := [3, 2, 4, 5, 1]

/-- Accesses that wait for their regulators add the cycles to REG_WAIT (13 R353, R366). Frames of LINK traffic wait in the port
buffers, which no command of the block shows: how long is a free number (log 86). -/
def regWaits (s : State) : State :=
  (List.range 32).foldl (fun s i => ((s.part i).regs.zip regCodes).foldl (fun s r =>
    if r.2 = 1 then (if flowHolds s i .link then bumpFree s .regWait i 1 else s)
    else if r.1.waiting then bump s .regWait i r.2 (landingCycles s.now) else s) s) s

/-! ### Waits for fills (05 R133, R134) -/

/-- Does a fill bring blocks that a Chipper lane decodes? -/
def fillChips (s : State) (f : Fill) : Bool :=
  match f.forWhat with
  | .move _ raw => (descParse raw).chipSrc
  | .operand _ _ => (fillTensor s f).any (·.chipper)
  | .passage _ _ _ _ => true
  | _ => (fillObject s f).any (·.2)

/-- Does a fill read a page of the channel whose copy runs (05 R148)? -/
def migrating (s : State) (f : Fill) : Bool :=
  (fillPages s f).any fun pg => match t1Page (s.part f.part).frames (pg * pageBytes) with
    | some x => s.t1.copying == some (pageChannel (s.t1.placeFrom s.t1.retired [] x.1))
    | none => false

/-- The causes a wait for a fill may have (05 R133): FILL_FAILED while a page of it is repaired; else what its source allows, which
of them being a matter of timing. -/
def fillCauses (s : State) (f : Fill) : List Nat :=
  if (fillPages s f).any (repairOf s f.part) then [0x31]
  else if f.space = 1 then [0x10, 0x12] ++ (if fillChips s f then [0x11] else []) ++ if migrating s f then [0x13] else []
  else [if f.space = 2 then 0x20 else 0x21, 0x22]

/-- What waits in this count, by partition, with the causes the wait may have (05 R134): launches that wait for fills, under the
oldest of them; gathers that wait for rows of peers (08 R229) or for room in WORK (08 R225); fills that wait for a repair; and work in
progress that reads T1 (09 R237), of which the spec does not say in which counts it waits: NONE is among its causes. -/
def tierWaits (s : State) : List (Nat × List Nat) :=
  (s.launches.filter fun l => l.posted && l.fired.isNone).filterMap (fun l =>
    (s.fills.find? fun f => l.awaits.contains f.id).map fun f => (l.part, fillCauses s f)) ++
  (s.jobs.filter fun j => j.kind == .gather && j.unit.isNone).filterMap (fun j =>
    if s.calls.any fun c => match c.forWhat with
      | .rows n _ _ => n == j.id
      | _ => false then some (j.part, [0x21, 0x22])
    else if jobReady s j && !workFits s j.part j.id j.room then some (j.part, [0x30]) else none) ++
  (s.fills.filterMap fun f => if (fillPages s f).any (repairOf s f.part) then some (f.part, [0x31]) else none) ++
  s.jobs.filterMap fun j => if j.started.isSome && j.unit.isSome then some (j.part, [0x00, 0x10, 0x11, 0x12]) else none

/-- One wait counts under one of its causes, a free choice (log 27); NONE is never counted. -/
def tierWait (s : State) (w : Nat × List Nat) : State :=
  let c := w.2.getD ((Config.freeValue s.freeIdx).toNat % w.2.length) 0
  bump { s with freeIdx := s.freeIdx + 1 } .tierWait w.1 c (boolNat (c != 0))

/-! ### Other waits -/

/-- Parts of searches that a pending change holds back, and changes that wait at boundaries for searches (09 R255, R270). -/
def quiesceWaits (s : State) (i : Nat) : Nat :=
  (s.jobs.countP fun j => j.part == i && j.unit.isNone && match j.kind with
    | .searchPart n _ _ _ => (s.search? n).any fun x => !searchBegun s x && changePending s i x.index
    | _ => false) + (s.part i).changes.countP (·.seen)

/-- Waits of a partition's gathers and epochs, searches and changes, and held peer commands (08 R236; 09 R270; 12 R343). -/
def engineWaits (s : State) : State :=
  (List.range 32).foldl (fun s i =>
    bump (bump (bump s .yardEpochWait i 0 (epochWaits s i)) .cruQuiesceWait i 0 (quiesceWaits s i)) .blazeHold i 0
      (s.calls.countP fun c => c.part == i && c.held)) s

/-- What the hardware alone decides in a count: accesses that waited at banks, Landing words and link symbols corrected, and what
firmware moved of its own working data in class CTRL (01 R16; 05 R121, R124; 14 R374; log 27). -/
def freeCounts (s : State) : State :=
  let s1 := (List.range 6).foldl (fun s k => bumpFree s .landingWait 0 k) (bumpFree s .landingCe 0 0)
  let s2 := (List.range 64).foldl (fun s k => bumpFree s .linkFecCorr 0 k) s1
  (List.range 32).foldl (fun s i => if (s.part i).state == .unbound then s else bumpFree s .landingBytes i 0) s2

/-- One count passes for what waits (01 R18; 05 R134; 13 R353). -/
def countPasses (s : State) : State :=
  let s1 := askAgain (s.launches.foldl stallOne s)
  let s2 := regWaits (engineWaits ((tierWaits s1).foldl tierWait s1))
  let s3 := freeCounts s2
  { s3 with lc := s3.lc + 1, parts := s3.parts.map fun p => { p with regs := p.regs.map Regulator.gain } }

/-- Every launch whose conditions hold at this count fires at it, oldest first (01 R18). -/
def fireDue (s : State) : State := (s.launches.map (·.id)).foldl (fun s id => launchFire id s) s

/-- One count of the Launch Counter (12 R321): what is due at it fires, the count passes, and a reset that
waited for its record takes place (12 R342). The counter runs while the module is
powered and out of its reset (18 R468). -/
def tick (s : State) : State :=
  if s.boot.phase = .off ∨ s.boot.phase = .held ∨ s.power.railTripped then s
  else groupResetNow (countPasses (fireDue s))

end Sys2Proof.Machine
end

