-- ==== Sys2Proof/Machine/Health.lean ====
section
/-! DEFINITION. Failures of the stores and of peers, and the tests: Landing errors (05 R124; 15 R416), the patrol scrub (05
R142; 15 R418), channel retirement (05 R148, R149; 15 R419), lost peers (15 R420; 08 R222, R233; 09 R263; 12 R336),
LOOPBACK_SET and SELFTEST_RUN (15 R427, R428). -/

namespace Sys2Proof.Machine

/-! ### Landing errors (15 R416) -/

/-- Spare segments of the reserve (15 R416). -/
def reserveSpares : Nat := 24

/-- A segment is retired: a bound one is copied, one of the module's reserve is replaced by a spare while there is one. -/
def retireSegment (s : State) (g : Nat) : State :=
  if s.segRetired.contains g then s
  else if bindableSegs ≤ g then
    if s.sparesUsed < reserveSpares then
      bump { s with segRetired := s.segRetired ++ [g], sparesUsed := s.sparesUsed + 1 } .segRetired 0 0 1
    else s
  else
    let s1 := bump { s with segRetired := s.segRetired ++ [g] } .segRetired 0 0 1
    match (List.range 32).find? fun i => (s.part i).segs.contains g with
    | some i => copyRetired i s1
    | none => s1

/-- The partition whose CTRL area holds a segment. -/
def ctrlPart (s : State) (g : Nat) : Option Nat :=
  (List.range 32).find? fun i => ((areaSegs (s.part i).runs 0).map fun k => (s.part i).segs.getD k bindableSegs).contains g

/-- The command whose access failed is run again where its inputs survive; else its request is replayed, or, where it is no
request, it completes with ST_FAULT (15 R416, R423). -/
def accessFailed (s : State) (ticket : Nat) (survive : Bool) : State :=
  match (s.launch? ticket).filter fun l => !taskless l with
  | some l =>
    if survive then s
    else (distinct ((l.rows.filter (rowAlive s)).map (·.ctx))).foldl replayRequest (dropLaunch s l.id)
  | none => match s.cmd? ticket with
    | none => s
    | some c =>
      if survive then
        feedUnits ((s.jobs.filter fun j => j.ticket == ticket).foldl (fun s j =>
          match j.unit with
          | some u => (freeUnit s u).modJob j.id fun j => { j with started := none }
          | none => s) s)
      else match c.ctx with
        | some id => replayRequest s id
        | none => faultCmds s [c]

/-- A double-bit Landing error (05 R124; 15 R416, R424). -/
def landingUe (g ticket : Nat) (survive : Bool) (s : State) : State :=
  if 6144 ≤ g then s else
    let s1 := bump s .landingUe 0 0 1
    let again := s1.segErrs.any fun e => e.1 == g && decide (s.now < e.2 + dayCounts)
    let s2 := { s1 with segErrs := (s1.segErrs.filter fun e => decide (s.now < e.2 + dayCounts)) ++ [(g, s.now)] }
    let s3 := match ctrlPart s2 g with
      | some i => enterFaulted s2 i
      | none => s2
    accessFailed (if again then retireSegment s3 g else s3) ticket survive

def execLandingUe (segment ticket : Nat) (inputsSurvive : Bool) (s : State) : Host.Outcome State Fault Refusal :=
  live s (landingUe segment ticket inputsSurvive s)

/-! ### Patrol scrub (05 R142) -/

/-- Module pages, and the first page of the firmware frames (05 R139, R143). -/
def modulePages : Nat := 351561600
def firmwarePage : Nat := 16 * 21964408

/-- A page in firmware frames is poisoned: the requests whose contexts it holds complete with ST_FAULT (15 R418). Which
contexts a page holds is not given and stays free (log 70). -/
def contextsLost (s : State) : State :=
  let lost := (s.ctxs.zipIdx.filter fun c => bit (Config.freeValue (s.freeIdx + c.2)).toNat 0).map (·.1.id)
  lost.foldl (fun s id => endRequest s id .fault .none) { s with freeIdx := s.freeIdx + s.ctxs.length }

/-- The scrub reads a written page (05 R141, R142; 15 R419). -/
def patrolScrub (page : Nat) (found : ScrubResult) (s : State) : State :=
  let fw := decide (firmwarePage ≤ page ∧ page < modulePages)
  let home := pageHome s page
  let written := match home with
    | some (i, pg) => match t1Page (s.part i).frames (pg * pageBytes) with
      | some (p, g) => s.t1.written p g
      | none => false
    | none => fw
  if !written || s.t1.poison.contains page then s
  else match found with
    | .clean => s
    | .corrected n =>
      let c := s.t1.channelOf page
      let s1 := bump s .memCe 0 c n
      { s1 with t1 := { s1.t1 with
          correctedAt := (s1.t1.correctedAt.filter fun e => decide (s.now < e.2.1 + hourCounts)) ++ [(c, s.now, n)] } }
    | .uncorrectable =>
      let s1 := pageError s page
      match home with
      | some (i, pg) => pageLost s1 i pg
      | none => contextsLost s1

def execPatrolScrub (page : Nat) (found : ScrubResult) (s : State) : Host.Outcome State Fault Refusal :=
  live s (patrolScrub page found s)

/-! ### Channel retirement (05 R148, R149; 15 R419) -/

/-- Does a channel meet a condition of retirement: 4 pages poisoned in 24 h, or more than 4,096 corrections in 1 h? -/
def channelDue (s : State) (c : Nat) : Bool :=
  decide (4 ≤ (s.t1.poisonAt.filter fun e => e.1 == c && decide (s.now < e.2 + dayCounts)).length) ||
  decide (4096 < ((s.t1.correctedAt.filter fun e => e.1 == c && decide (s.now < e.2.1 + hourCounts)).map (·.2.2)).sum)

/-- The `k` highest free numbers below `n`. -/
def takeHighest (free : Nat → Bool) : Nat → Nat → List Nat → List Nat
  | 0, _, acc => acc.reverse
  | n + 1, k, acc => if k = 0 then acc.reverse else if free n then takeHighest free n (k - 1) (n :: acc) else takeHighest free n k acc

/-- The further reserve of a second or later retirement; none where too few frames are unbound. -/
def furtherReserve (s : State) : Option (List Nat) :=
  if s.t1.retired.isEmpty then some []
  else
    let taken := takenFrames s
    let l := takeHighest (fun f => !taken.contains f) bindableFrames reserveFrames []
    if l.length = reserveFrames then some l else none

/-- Written pages of a dead channel, as partition and page of it. -/
def deadPages (s : State) (c : Nat) : List (Nat × Nat × Nat) :=
  (s.t1.tags.filter fun e => s.t1.channelOf e.1 == c).filterMap fun e =>
    match pageHome s e.1 with
    | some (i, pg) => match t1Page (s.part i).frames (pg * pageBytes) with
      | some (_, g) => if e.2 = g then some (e.1, i, pg) else none
      | none => none
    | none => none

/-- Pages of the firmware frames that a channel holds (05 R143). -/
def deadFirmware (s : State) (c : Nat) : List Nat :=
  ((List.range (16 * 8192)).map (firmwarePage + ·)).filter fun p => s.t1.channelOf p == c

/-- A channel's retirement begins: its pages are redirected (05 R148); of a dead one the written pages are poisoned, those in
firmware frames as well (15 R417 to R419). One at a time (15 R426). Redirection changes no data. -/
def channelRetire (c : Nat) (dead : Bool) (s : State) : State :=
  if decide (128 ≤ c) || s.t1.retired.contains c || s.t1.copying.isSome || !(dead || channelDue s c) then s
  else match furtherReserve s with
    | none => s
    | some l =>
      let s1 := { s with t1 := { s.t1 with
        copying := some c, reserve := s.t1.reserve ++ l, dead := if dead then s.t1.dead ++ [c] else s.t1.dead } }
      if dead then
        let pages := deadPages s c
        let s2 := (pages.map (·.1) ++ deadFirmware s c).foldl (fun s e =>
          { s with t1 := { s.t1 with poison := e :: s.t1.poison.filter (· != e) } }) s1
        contextsLost (pages.foldl (fun s e => pageLost s e.2.1 e.2.2) s2)
      else s1

def execChannelRetire (channel : Nat) (dead : Bool) (s : State) : Host.Outcome State Fault Refusal :=
  live s (channelRetire channel dead s)

/-- The last page of a retired channel is copied (05 R148). -/
def channelCopied (c : Nat) (s : State) : State :=
  if s.t1.copying = some c then
    degrade (setEvent { s with t1 := { s.t1 with copying := none, retired := s.t1.retired ++ [c] } } 1)
  else s

def execChannelCopyComplete (channel : Nat) (s : State) : Host.Outcome State Fault Refusal := live s (channelCopied channel s)

/-! ### Lost peers (15 R420) -/

/-- 250 ms in counts. -/
def lostBound : Nat := 250000000

/-- A table's source is lost (08 R233): its open epochs are closed with what has come, and the table is degraded. -/
def sourceLost (me m : Nat) (t : Table) : Table :=
  if holdsShard t me && t.sources.contains m then
    let open_ := distinct ((t.contribs.filter fun c => c.source == m && !t.ends.contains (m, c.epoch)).map (·.epoch))
    { t with lostSources := if t.lostSources.contains m then t.lostSources else t.lostSources ++ [m]
             degraded := true, ends := t.ends ++ open_.map fun e => (m, e) }
  else t

/-- Flows to and from a lost peer number their frames from 0 again, and frames that wait for it are dropped (14 R372; log 73). -/
def forgetFlows (s : State) (m : W16) : State :=
  { s with
    flowTx := s.flowTx.filter fun e => e.1.1 != m
    flowRx := s.flowRx.filter fun e => e.1.1 != m
    early := s.early.filter fun f => f.src != m
    bridge := { s.bridge with relays := s.bridge.relays.filter fun r => !(r.dead && w16 r.module == m) }
    ports := s.ports.map fun (p : Port) => { p with
      blazeQ := p.blazeQ.filter fun f => f.dest != m
      flows := p.flows.mapIdx fun q (fl : Flow) =>
        Flow.tagUp p (flowWeight s q) { fl with queue := fl.queue.filter fun x => x.frame.dest != m } } }

/-- A peer unreachable for 250 ms is declared lost (15 R420): an event, and what waits for it goes to replicas or ends. -/
def peerLost (m : W16) (s : State) : State :=
  if m = s.myId ∨ s.lost.contains m ∨ reachable s m ∨ s.now < lookupD s.unreach m 0 + lostBound then s
  else
    let s1 : State := degrade (setEvent (bump { forgetFlows s m with lost := s.lost ++ [m] } .peerDeclaredLost 0 0 1) 3)
    let me := s.myId.toNat
    let s2 := { s1 with parts := s1.parts.map fun (p : Partition) => { p with tables := p.tables.map (sourceLost me m.toNat) } }
    let s3 := (s2.calls.filter fun c => c.target == m.toNat).foldl (fun s c =>
      if s.calls.any fun x => x.tag == c.tag then callFails s c else s) s2
    globalsLose m s3

def execPeerLost (peer : W16) (s : State) : Host.Outcome State Fault Refusal := live s (peerLost peer s)

/-- A lost peer is reachable again (15 R420). -/
def peerReinstated (m : W16) (s : State) : State :=
  if s.lost.contains m && reachable s m then
    { s with
      lost := s.lost.filter (· != m), unreach := eraseKey s.unreach m
      parts := s.parts.map fun p => { p with tables := p.tables.map fun t =>
        { t with lostSources := t.lostSources.filter (· != m.toNat) } } }
  else s

def execPeerReinstated (peer : W16) (s : State) : Host.Outcome State Fault Refusal := live s (peerReinstated peer s)

/-! ### LOOPBACK_SET (15 R427) -/

/-- Legal states of the test commands (02 R57). -/
def testState (s : State) (r : Req) : Bool := (reqPart s r).state == .bound || (reqPart s r).state == .loaded

/-- Ports a mask names, ascending. -/
def maskPorts (m : Nat) : List Nat := (List.range 16).filter (bit m)

/-- May the port be looped: held DOWN by DISABLE, and no bridge port in bridge mode? -/
def portLoops (s : State) (n : Nat) : Bool := bit (s.port n).ctl.toNat 0 && !(s.ident.bridge && decide (n < 4))

/-- Result records: port, bits checked, bit errors. -/
def loopResult (ports : List Nat) (results : List (W64 × W64)) : List Byte :=
  (ports.zip results).flatMap fun x => leBytes 4 x.1 ++ leBytes 4 0 ++ leBytes 8 x.2.1.toNat ++ leBytes 8 x.2.2.toNat

/-- LOOPBACK_SET. Mode OFF checks no bits itself; a test whose every port it stops is at its end. -/
def cmdLoopbackSet (r : Req) (t : Nat) (s : State) : State :=
  let i := reqPid s r
  let l := r.pay
  let ports := maskPorts (fld l 0 2)
  let us := fld l 4 4
  runCmd .loopbackSet (pairPart s r)
    { Need.pass with
      form := has l 8 && decide (fld l 2 1 ≤ 2) && zeroAt l 3 1 && decide (1 ≤ us ∧ us ≤ 10000000)
      state := testState s r && ports.all (portLoops s) }
    (fun t s =>
      if fld l 2 1 = 0 then
        let s1 := { s with parts := s.parts.map fun p => { p with loopbacks := p.loopbacks.map fun x =>
          if (x.2.1.all ports.contains) then (x.1, x.2.1, min x.2.2 s.now) else x } }
        finish s1 t .ok 0 (some (loopResult ports (ports.map fun _ => (0, 0))))
      else s.modPart i fun p => { p with loopbacks := p.loopbacks ++ [(t, ports, s.now + 1000 * us)] }) r t s

def execLoopbackSet (r : Req) (s : State) : Host.Outcome State Fault Refusal := live s (enter .loopbackSet cmdLoopbackSet r s)

/-- The oldest test of a partition whose time is over ends with the counts its ports have measured. -/
def loopbackEnd (i : Nat) (results : List (W64 × W64)) (s : State) : State :=
  match (s.part i).loopbacks.find? fun x => decide (x.2.2 ≤ s.now) && x.2.1.length == results.length with
  | some x =>
    finish (s.modPart i fun p => { p with loopbacks := p.loopbacks.filter fun y => y.1 != x.1 }) x.1 .ok 0
      (some (loopResult x.2.1 results))
  | none => s

def execLoopbackTestEnd (part : Nat) (results : List (W64 × W64)) (s : State) : Host.Outcome State Fault Refusal :=
  live s (loopbackEnd part results s)

/-! ### SELFTEST_RUN (15 R428) -/

/-- The stands that a commanded self-test of a partition tests, by physical index: the bound ones in service (17 X20). -/
def testedStands (s : State) (i : Nat) : List Nat :=
  (partStands s i).filterMap fun n => (standAt s n).filter fun k =>
    ((s.stands[k]?).map (·.status)) == some StandStatus.active

/-- The self-test at the head of a partition's line begins: one of stands asks for the current of each (17 X19). -/
def testStands (s : State) (i : Nat) : State :=
  match (s.part i).selftests with
  | (_, 0) :: _ => (testedStands s i).foldl (fun s k => standTest s k i) s
  | _ => s

/-- Have the launches of the self-test at the head of a partition's line fired? -/
def testsFired (s : State) (i : Nat) : Bool :=
  match (s.part i).selftests with
  | (_, 0) :: _ => (testedStands s i).all fun k => kindFired s (.standTest k)
  | _ => true

def cmdSelftestRun (r : Req) (t : Nat) (s : State) : State :=
  let i := reqPid s r
  let target := fld r.pay 0 1
  runCmd .selftestRun (pairPart s r)
    { Need.pass with
      form := has r.pay 8 && decide (target ≤ 3) && zeroAt r.pay 1 7
      state := testState s r && (decide (target < 2) || (reqPart s r).state == .bound) }
    (fun t s =>
      let s1 := s.modPart i fun p => { p with selftests := p.selftests ++ [(t, target)] }
      if (s.part i).selftests.isEmpty then testStands s1 i else s1) r t s

def execSelftestRun (r : Req) (s : State) : Host.Outcome State Fault Refusal := live s (enter .selftestRun cmdSelftestRun r s)

/-- Unit of a bit of the FailMask of ENGINES. -/
def maskUnit (n : Nat) : Option EngineUnit :=
  if n < 8 then some (.traversal n) else if n < 10 then some (.tally (n - 8)) else if n < 26 then some (.lane (n - 10))
  else if n = 26 then some .yarder else none

/-- The result of a test (15 R428). -/
def selftestResult (target failed mask first : Nat) : List Byte :=
  [b8 target, 0, 0, 0] ++ leBytes 4 failed ++ leBytes 8 mask ++ leBytes 8 first

/-- What failing units come to (15 R414, R416, R419), and what the test leaves of what it tested. -/
def selftestEffect (s : State) (i target : Nat) (failed : List Nat) : State :=
  match target with
  | 0 => failed.foldl (fun s n => match standAt s n with
    | some k => retireStand s k
    | none => s) s
  | 1 => failed.foldl (fun s n => match maskUnit n with
    | some .yarder => bump s .unitFault 0 (unitKind .yarder) 1
    | some u => retireUnit s u
    | none => s) s
  | 2 =>
    let gs := failed.map fun k => (s.part i).segs.getD k 6144
    let s1 := gs.foldl retireSegment s
    { s1 with landing := s1.landing.zeroSegs (s1.part i).segs }
  | _ =>
    let s1 := failed.foldl (fun s pg => match t1Page (s.part i).frames (pg * pageBytes) with
      | some (p, _) => poisonPage s p
      | none => s) s
    if (s.part i).frames.isEmpty then s1
    else
      let gen := (s1.t1.gen + 1) % 2 ^ 48
      ({ s1 with t1 := { s1.t1 with gen } } : State).modPart i fun p => { p with
        frames := p.frames.map (fun f => (f.1, gen)), generation := gen }

/-- The units, segments or pages of a target among the reported ones that the partition's test covers: no retired unit (17
X20). -/
def selftestOwn (s : State) (i target : Nat) (failed : List Nat) : List Nat :=
  distinct (failed.filter fun n => match target with
    | 0 => ((standAt s n).map (testedStands s i).contains) == some true
    | 1 => ((maskUnit n).bind s.unit?).any fun x => x.status != .retired
    | 2 => decide (n < (s.part i).segs.length)
    | _ => decide (n < 16 * (s.part i).frames.length))

/-- A commanded self-test ends. -/
def selftestEnd (i : Nat) (failed : List Nat) (s : State) : State :=
  match (s.part i).selftests with
  | [] => s
  | (t, target) :: rest =>
    if !testsFired s i then s else
    let own := selftestOwn s i target failed
    let mask := if target < 2 then (own.map (2 ^ ·)).sum else 0
    let unit := if target = 2 then segBytes else pageBytes
    let first := if target < 2 then 2 ^ 64 - 1 else match own with
      | [] => 2 ^ 64 - 1
      | n :: r => r.foldl min n * unit
    let s1 := if target = 0 then dropTests s (testedStands s i) else s
    let s2 := selftestEffect (s1.modPart i fun p => { p with selftests := rest }) i target own
    testStands (finish s2 t .ok 0 (some (selftestResult target own.length mask first))) i

def execSelftestRunEnd (part : Nat) (failed : List Nat) (s : State) : Host.Outcome State Fault Refusal :=
  live s (selftestEnd part failed s)

end Sys2Proof.Machine
end

