-- ==== Sys2Proof/Machine/Cores.lean ====
section
/-! DEFINITION. A Ranger core is retired (15 R421): what becomes of the commands and requests it had taken. -/

namespace Sys2Proof.Machine

/-- Work of one command: its jobs, fills, searches and calls (15 R421). -/
def dropTicketWork (s : State) (t : Nat) : State :=
  let gone := (s.jobs.filter fun j => j.ticket == t && j.ctx.isNone).map (·.id)
  let mine := fun (x : Search) => x.owner == .command t || x.owner == .peer t
  let s1 := dropJobs s gone
  { s1 with
    fills := s.fills.filter fun f => match f.forWhat with
      | .load x => x != t
      | _ => true
    searches := s.searches.filter fun x => !mine x
    calls := s.calls.filter fun c => match c.forWhat with
      | .search n _ => !(s.searches.any fun x => x.id == n && mine x)
      | .rows j _ _ => !gone.contains j
      | .update x _ => x != t
      | .fill n => !(s.fills.any fun f => f.id == n && f.forWhat == .load t)
      | _ => true
    fetched := s.fetched.filter fun x => !gone.contains x.job
    parts := s.parts.map fun p => { p with
      reserved := p.reserved.filter fun r => r.1 != t
      globals := p.globals.filter fun g => g.ticket != t
      changes := p.changes.filter fun c => c.ticket != t
      controls := p.controls.filter fun c => c.ticket != t
      rebind := p.rebind.filter fun b => b.ticket != t || b.switched
      loopbacks := p.loopbacks.filter fun b => b.1 != t
      indexes := p.indexes.map fun x => match x.planting with
        | some pl => if pl.ticket = t then { x with planting := none, workFrames := [] } else x
        | none => x } }

/-- A self-test command of a partition that a failure ends: the launches of one that has begun are over, and the next in line
begins (15 R421, R428). -/
def abortSelftest (s : State) (i t : Nat) : State :=
  let old := (s.part i).selftests
  let s1 := s.modPart i fun p => { p with selftests := old.filter fun x => x.1 != t }
  match old with
  | x :: _ => if x.1 = t then testStands (if x.2 = 0 then dropTests s1 (testedStands s1 i) else s1) i else s1
  | [] => s1

/-- What one command has changed before its end goes back (15 R421): a binding, contributions to a table, a self-test. -/
def undoCommand (s : State) (c : Cmd) : State :=
  match c.part with
  | none => s
  | some i => match c.code with
    | .partitionBind => unbindEffect i c.ticket s
    | .updateSubmit => s.modPart i fun p => { p with tables := p.tables.map (updateUndone s.myId.toNat c.ticket (updOcc c.pay)) }
    | .selftestRun => abortSelftest s i c.ticket
    | _ => s

/-- A command that a failure ends (15 R421): what it touched stays as it was before it; a request ends otherwise. -/
def abortCommand (s : State) (t : Nat) : State :=
  match s.cmd? t with
  | none => s
  | some c => if c.ctx.isSome then s else feedUnits (finishPlain (undoCommand (dropTicketWork s t) c) t .fault 0)

/-- A Ranger core is retired (15 R421): requests it was updating are replayed, other commands it had taken end with
ST_FAULT; with fewer than 5 cores the module resets. -/
def coreRetire (core : Nat) (ctxs tickets : List Nat) (s : State) : State :=
  if !s.released || !s.boot.coreMask.getLsbD core then s else
    let m := s.boot.coreMask &&& ~~~(BitVec.ofNat 8 (2 ^ core))
    let s1 := bump { s with boot := { s.boot with coreMask := m } } .coreRetired 0 0 1
    if (List.range 8).countP (m.getLsbD ·) < 5 then innerReset .watchdog s1
    else
      let s2 := ctxs.foldl replayRequest s1
      tickets.foldl abortCommand s2

def execCoreRetire (core : Nat) (ctxs : List Nat) (tickets : List Nat) (s : State) : Host.Outcome State Fault Refusal :=
  live s (coreRetire core ctxs tickets s)

end Sys2Proof.Machine
end

