-- ==== Sys2Proof/Machine/Slices.lean ====
section
/-! DEFINITION. The end of a slice on a shared unit, and the unit's faults: what the work leaves when its last slice ends (13
R345; 09 R246; 10 R280), the slice watchdog and the re-run of work (15 R413, R414; 10 R281). -/

namespace Sys2Proof.Machine

/-- The home's merge is done: the lists go to the command or to the request that searched (09 R262; 11 R315). -/
def homeMergeDone (j : Job) (id : Nat) (s : State) : State :=
  let r := homeMerged j id s
  match r.2 with
  | none => r.1
  | some (y, out) => match y.owner with
    | .command t => searchRecord t y out r.1
    | .context c => ctxSearched r.1 c y out
    | .peer _ => r.1

/-- A gather's work is done, by whom it was for: GATHER_SUBMIT, PEER_GATHER or a launch. -/
def gatherEnds (j : Job) (s : State) : State :=
  match s.cmd? j.ticket with
  | some c => if c.code == .peerGather then peerGatherDone j s else gatherDone j s
  | none => launchGatherDone j s

/-- Landing accesses of a piece of work by its last slice (01 R16; 07; 09 R237; 10 R280); those of gathers and of candidates are
counted with their lines. Where the spec does not fix how many a unit makes, the number is free (log 86). -/
def jobTraffic (j : Job) (s : State) : State :=
  let pay := match s.cmd? j.ticket with
    | some c => c.pay
    | none => []
  match j.kind with
  | .tokenize => charge s j.part .text pay.length
  | .detokenize => charge s j.part .text pay.length
  | .ctxTokens => chargeFree s j.part .text
  | .tally => charge s j.part .engine (pay.length + tallySize pay)
  | .shardMerge _ => chargeFree s j.part .engine
  | .homeMerge _ => chargeFree s j.part .engine
  | .ctxSelect => chargeFree s j.part .engine
  | .searchPart _ _ _ _ => chargeFree (chargeFree s j.part .engine) j.part .fill
  | .planting _ => chargeFree (chargeFree s j.part .engine) j.part .fill
  | .gather => s
  | .candidates _ _ => s

/-- What a piece of work leaves when its last slice ends. -/
def jobDone (j : Job) (s0 : State) : State :=
  let s := jobTraffic j s0
  match j.kind with
  | .tokenize => tokenizeDone j.ticket (s.dropJob j.id)
  | .detokenize => detokenizeDone j.ticket (s.dropJob j.id)
  | .tally => tallyDone j.ticket (s.dropJob j.id)
  | .gather => gatherEnds j s
  | .searchPart _ _ _ _ => searchPartDone j s
  | .shardMerge id => shardMergeDone j id s
  | .homeMerge id => homeMergeDone j id s
  | .ctxTokens => match j.ctx with
    | some c => ctxTokensDone j c s
    | none => s.dropJob j.id
  | .ctxSelect => match j.ctx with
    | some c => ctxSelectDone j c s
    | none => s.dropJob j.id
  | .candidates launch ctx => candidatesDone j launch ctx s
  | .planting index => plantingReady j index s

/-- The job a unit works on: the one it has taken, once its turn has begun. -/
def unitJob (s : State) (u : EngineUnit) : Option Job :=
  ((s.unit? u).bind fun x => x.job.bind s.job?).filter fun j => sliceFired s j.id

/-- Is the unit a Tally pipeline? -/
def isTally : EngineUnit → Bool
  | .tally _ => true
  | _ => false

/-- Rank buffer errors of one bit that a pipeline has corrected and counted by the end of a task: a free number (10 R281; log
27). -/
def tallyCorrects (s : State) (u : EngineUnit) : State :=
  if isTally u then bumpFree s .tallyCe 0 0 else s

/-- A slice ends: the unit goes on to the next partition in rotation, and finished work leaves its result (13 R345). A Tally task
keeps its pipeline until it has finished (10 R280). -/
def sliceEnd (u : EngineUnit) (finished : Bool) (s : State) : State :=
  match unitJob s u with
  | none => s
  | some j =>
    if isTally u && !finished then s
    else
      let s1 := freeUnit (tallyCorrects s u) u
      let s2 := if finished then jobDone j s1 else s1
      feedUnits (feedUnit s2 u)

/-- A search ends with ST_FAULT for whoever asked for it. -/
def searchFault (s : State) (id : Nat) : State :=
  match s.search? id with
  | none => s
  | some y => match y.owner with
    | .command t => finishPlain (cancelSearch s id) t .fault 0
    | .peer t => finishPlain (cancelSearch s id) t .fault 0
    | .context c => failRequest (cancelSearch s id) c .fault

/-- The requests of the step whose launch a piece of work rides in, or is waited for by, end with ST_FAULT (04 R116). -/
def stepGivesUp (s : State) (l : Option Launch) : State :=
  match l with
  | some l => failStep s l
  | none => s

/-- A Tally task faults a second time: it is not run again, its command completes with ST_FAULT, and so do the requests of its
step (10 R281; 04 R116). -/
def tallyGivesUp (s : State) (j : Job) : State :=
  let l := s.launches.find? fun l => l.slices.contains j.id || l.lists.contains j.id
  let s1 := s.dropJob j.id
  let s2 := match j.kind with
    | .shardMerge id => searchFault s1 id
    | .homeMerge id => searchFault s1 id
    | .ctxSelect => match j.ctx with
      | some c => failRequest s1 c .fault
      | none => s1
    | .candidates _ _ => s1
    | _ => finishPlain s1 j.ticket .fault 0
  stepGivesUp s2 l

/-- A unit faults with its work, which is run again from its start on a sibling (09 R246; 10 R281; 15 R413); a part of a search
begins its budget afresh (09 R251). -/
def unitFaults (u : EngineUnit) (s : State) : State :=
  match unitJob s u with
  | none => feedUnits (unitFaulted s u)
  | some j =>
    let s1 := unitFaulted s u
    let s2 := match u with
      | .tally _ => if 1 ≤ j.reruns then tallyGivesUp s1 j else s1.modJob j.id fun j => { j with reruns := j.reruns + 1 }
      | _ => s1.modJob j.id fun j => { j with reruns := j.reruns + 1, started := none }
    feedUnits s2

/-- A unit that is in service faults. -/
def serviceFault (u : EngineUnit) (s : State) : State :=
  match s.unit? u with
  | some x => if x.status == .inService then unitFaults u s else s
  | none => s

end Sys2Proof.Machine
end

