-- ==== Sys2Proof/Machine/Boundaries.lean ====
section
/-! DEFINITION. Boundaries of steps (11 R290) with the switch of a re-bind (13 R360 to R362), which waits for the slices in progress
of its partition; and the rows that end a slice (13 R345; 15 R413; 10 R281). -/

namespace Sys2Proof.Machine

/-! ### After the switch of a re-bind (13 R362) -/

/-- A command that waited for a re-bind's switch starts (13 R362). -/
def startHeld (s : State) (c : Cmd) : State :=
  let r : Req := { pair := c.pair, hdr := ⟨c.seq, 0, 0, 0xFFFF, 0, 0, 0, 0, 0, 0, 0⟩, pay := c.pay, src := c.src, tag := c.tag }
  match c.code with
  | .serveStart => cmdServeStart r c.ticket s
  | .modelSwapIn => cmdModelSwapIn r c.ticket s
  | .modelSwapOut => cmdModelSwapOut r c.ticket s
  | .indexUnload => cmdIndexUnload r c.ticket s
  | .contentUnload => cmdContentUnload r c.ticket s
  | .indexLoad => cmdIndexLoad r c.ticket s
  | .tableLoad => cmdTableLoad r c.ticket s
  | .tokenizerLoad => cmdTokenizerLoad r c.ticket s
  | .grammarLoad => cmdGrammarLoad r c.ticket s
  | .searchSubmit => cmdSearchSubmit r c.ticket s
  | .gatherSubmit => cmdGatherSubmit r c.ticket s
  | .updateSubmit => cmdUpdateSubmit r c.ticket s
  | .tallySubmit => cmdTallySubmit r c.ticket s
  | .tokenizeSubmit => cmdTokenizeSubmit r c.ticket s
  | .detokenizeSubmit => cmdDetokenizeSubmit r c.ticket s
  | .searchInsert => cmdSearchInsert r c.ticket s
  | .searchDelete => cmdSearchDelete r c.ticket s
  | .plantStart => cmdPlantStart r c.ticket s
  | .barrierJoin => cmdBarrierJoin r c.ticket s
  | .broadcastSend => cmdBroadcastSend r c.ticket s
  | .snapshotTake => cmdSnapshotTake r c.ticket s
  | .groupReset => cmdGroupReset r c.ticket s
  | .loopbackSet => cmdLoopbackSet r c.ticket s
  | .selftestRun => cmdSelftestRun r c.ticket s
  | .peerFetch => cmdPeerFetch r c.ticket s
  | .peerSearch => cmdPeerSearch r c.ticket s
  | .peerGather => cmdPeerGather r c.ticket s
  | .peerUpdate => cmdPeerUpdate r c.ticket s
  | _ => s

/-- Once the re-bind that was pending in `s` has ended in `s'`, what waited for its switch starts, in the order taken, and
work goes on. -/
def afterSwitch (i : Nat) (s s' : State) : State :=
  match (s.part i).rebind with
  | some rb =>
    if (s'.part i).rebind.isSome then s' else feedUnits (actIdle i
      ((s'.cmds.filter fun c => c.part == some i && startsAfterSwitch c.code && decide (rb.ticket < c.ticket)).foldl startHeld s'))
  | none => s'

/-- The switch of a partition's re-bind goes on as far as it can (13 R360). -/
def switchGoes (s : State) (i : Nat) : State := afterSwitch i s (rebindGo i s)

/-- What the end of slices or of launches lets go on: launches whose units have all completed end (11 R289), and a re-bind that
waited for slices switches (13 R360). -/
def settle (s : State) : State := (List.range 32).foldl switchGoes (endLaunches s)

/-! ### Boundaries (11 R290) -/

/-- What a boundary does after step `n`, in the order of 11 R290; a re-bind switches before admission (13 R360). -/
def boundaryActs (i n : Nat) (s : State) : State :=
  let s1 := boundaryEpochs i (boundaryChanges i (boundaryRecords i s))
  let s2 := boundaryGlobals i (boundaryControls i n s1)
  postStep i (boundaryAdmit i (afterSwitch i s2 (rebindAt i n s2)))

/-- The boundary of a step. -/
def stepBoundary (i : Nat) (s0 : State) : State :=
  let s := endLaunches s0
  if !stepOver s i then s
  else
    let n := (s.part i).stepsDone + 1
    let s1 := s.modPart i fun p => { p with stepsDone := n, steps := p.steps.filter fun x => x.no != n }
    boundaryActs i n (bump s1 .serveSteps i 0 1)

/-- STEP_BOUNDARY (11 R290). -/
def execStepBoundary (part : Nat) (s : State) : Host.Outcome State Fault Refusal := live s (stepBoundary part s)

/-- Zeroing of a released segment completes (05 R129), and with it perhaps a re-bind that waited for it (13 R361, R362). -/
def zeroedActs (segment : Nat) (s : State) : State :=
  (List.range 32).foldl (fun s' i => afterSwitch i s s') (segmentZeroed segment s)

def execSegmentZeroed (segment : Nat) (s : State) : Host.Outcome State Fault Refusal := live s (zeroedActs segment s)

/-! ### Slices -/

/-- The class of a unit's Landing accesses (01 R16; 05 R120). -/
def unitFlow : EngineUnit → Flowing
  | .lane _ => .text
  | _ => .engine

/-- A slice ends; with the last one the work's accesses have passed its partition's regulator (13 R353). -/
def sliceRow (u : EngineUnit) (finished : Bool) (s : State) : State :=
  match unitJob s u with
  | some j => if finished then regulated j.part (unitFlow u) (sliceEnd u true) s else sliceEnd u false s
  | none => s

def execEngineSliceEnd (unit : EngineUnit) (finished : Bool) (s : State) : Host.Outcome State Fault Refusal :=
  live s (settle (sliceRow unit finished s))

/-- A slice takes more than 100 ms (15 R413). -/
def execSliceWatchdog (unit : EngineUnit) (s : State) : Host.Outcome State Fault Refusal :=
  live s (if (unitJob s unit).isSome then settle (serviceFault unit s) else s)

/-- A SECDED or parity error in a unit (15 R413). -/
def execEngineFault (unit : EngineUnit) (s : State) : Host.Outcome State Fault Refusal := live s (settle (serviceFault unit s))

/-- A double-bit rank buffer error stops a Tally task (10 R281). -/
def execTallyFault (pipe : Nat) (s : State) : Host.Outcome State Fault Refusal :=
  live s (if (unitJob s (.tally pipe)).isSome then settle (serviceFault (.tally pipe) s) else s)

/-- SAPWOOD_BUDGET_EXPIRY (09 R251). -/
def execSapwoodBudgetExpiry (job : Nat) (s : State) : Host.Outcome State Fault Refusal :=
  live s (match budgetOver s job with
    | some j => settle (budgetExpiry j s)
    | none => s)

/-! ### Steps -/

/-- STEP_FORM (11 R290). -/
def execStepForm (part : Nat) (s : State) : Host.Outcome State Fault Refusal := live s (stepForm part (settle s))

end Sys2Proof.Machine
end

