-- ==== Sys2Proof/Machine/Mailbox.lean ====
section
/-! DEFINITION. The mailbox class and the events of a pair's rings (02 R43 to R49, R57, R62). -/

namespace Sys2Proof.Machine

/-- State check of a command that acts on its own pair: any state but UNBOUND; on pair 0 always (02 R57). -/
def pairUsable (s : State) (r : Req) : Bool := r.pair == 0 || pairPState s r.pair != .unbound

/-- NOP (02 R49). -/
def cmdNop (r : Req) (t : Nat) (s : State) : State :=
  runCmd .nop (pairPart s r) { Need.pass with form := r.pay.isEmpty, state := pairUsable s r }
    (fun t s => finishPlain s t .ok 0) r t s

def execNop (r : Req) (s : State) : Host.Outcome State Fault Refusal := live s (enter .nop cmdNop r s)

/-- Handles named by a RESULT_RELEASE (02 R48). -/
def releaseHandles (r : Req) : List W32 := (fldList r.pay 4 4 (fld r.pay 0 2)).map w32

/-- Form of a RESULT_RELEASE (02 R48). -/
def releaseForm (r : Req) : Bool :=
  let n := fld r.pay 0 2
  has r.pay 4 && decide (1 ≤ n ∧ n ≤ 32) && zeroAt r.pay 2 2 && has r.pay (4 + 4 * n)

/-- Does every handle name a live payload at its turn (02 R48)? -/
def allLive : List W32 → List ResultPayload → Bool
  | [], _ => true
  | h :: rest, live => live.any (fun x => x.handle == h) && allLive rest (live.filter fun x => x.handle != h)

/-- No handle names a live payload whose request has not posted its final record (02 R49). -/
def noneUnfinished (hs : List W32) (live : List ResultPayload) : Bool :=
  live.all fun x => x.final || !hs.contains x.handle

/-- RESULT_RELEASE (02 R48, R49). -/
def cmdResultRelease (r : Req) (t : Nat) (s : State) : State :=
  let hs := releaseHandles r
  let live := (s.pair r.pair).results
  runCmd .resultRelease (pairPart s r)
    { form := releaseForm r, state := pairUsable s r && noneUnfinished hs live, found := allLive hs live, room := none,
      detail := 0 }
    (fun t s => finishPlain (s.modPair r.pair fun p => { p with results := p.results.filter fun x => !hs.contains x.handle })
      t .ok hs.length) r t s

def execResultRelease (r : Req) (s : State) : Host.Outcome State Fault Refusal :=
  live s (enter .resultRelease cmdResultRelease r s)

/-- A write to ImgCplHead (02 R36, R62): frees the ring slots it passes; one that would pass ImgCplTail is ignored (log 42). -/
def writeCplHead (i : Nat) (value : W32) (s : State) : State :=
  if decide (64 ≤ i) then s else
    let p := s.pair i
    let v : W16 := value.setWidth 16
    if !p.bound then s.modPair i fun p => { p with unboundWr := true }
    else if cplUsed p < (v - p.cplHead).toNat then s.modPair i fun p => { p with headErr := true }
    else s.modPair i fun p => { p with cplHead := v }

def execImgCplHeadWrite (pair : Nat) (value : W32) (s : State) : Host.Outcome State Fault Refusal :=
  live s (writeCplHead pair value s)

/-- Waiting records are posted in order as far as the ring has room (02 R46). -/
def execPendingRecordPost (pair : Nat) (s : State) : Host.Outcome State Fault Refusal :=
  live s (drainRecords pair (s.pair pair).waiting.length s)

/-- Commands of a pair that wait for result-region room, oldest first (02 R46, R47). -/
def roomWaiters (s : State) (pair : Nat) : List Cmd := s.cmds.filter fun c => c.pair == pair && c.roomWait.isSome

/-- The oldest waiting command of its pair posts its result once the region has room (02 R47). -/
def roomWaitEnd (ticket : Nat) (s : State) : State :=
  match s.cmd? ticket with
  | none => s
  | some c => match c.roomWait with
    | none => s
    | some (st, d, bs) =>
      if ((roomWaiters s c.pair).head?.map (·.ticket)) = some ticket then finish s ticket st d (some bs) else s

def execResultRoomWaitEnd (ticket : Nat) (s : State) : Host.Outcome State Fault Refusal := live s (roomWaitEnd ticket s)

end Sys2Proof.Machine
end

