-- ==== Sys2Proof/Machine/Registers.lean ====
section
/-! DEFINITION. Register accesses: the flash window (18 R477, R479), the power registers (15 R410), SbModuleId (18 R473),
the Launch Counter (02 R63, 18 R476), link registers and gate switches (14 R383 to R386), and every other register (00 R9,
R11). -/

namespace Sys2Proof.Machine

/-! ### Flash window -/

/-- A refused or failed operation (18 R479). -/
def flashError (s : State) (code : BitVec 4) : State := { s with flash := { s.flash with err := true, code } }

/-- Start an operation, or refuse it with the lowest code that applies (18 R479; log 53). -/
def flashStart (op : FlashOp) (s : State) : State :=
  let a := s.flash.addr.toNat
  let unit_ := if op = .erase then 65536 else 4096
  if !s.managed then s
  else if op ≠ .read ∧ 0x0F000000 ≤ a then flashError s 1
  else if s.flash.busy then flashError s 2
  else if a % unit_ ≠ 0 then flashError s 3
  else { s with flash := { s.flash with busy := true, op := some (op, a), tainted := false } }

def execFlashRead (s : State) : Host.Outcome State Fault Refusal := live s (flashStart .read s)
def execFlashProgram (s : State) : Host.Outcome State Fault Refusal := live s (flashStart .program s)
def execFlashErase (s : State) : Host.Outcome State Fault Refusal := live s (flashStart .erase s)

/-- The effect of an operation that ends (18 R477, R479). Programming only clears bits; a buffer written meanwhile, or a
device that failed, leaves the bytes undefined (logs 15, 16). -/
def flashEffect (op : FlashOp) (a : Nat) (deviceOk : Bool) (s : State) : State :=
  match op, deviceOk with
  | .read, true => { s with flash := { s.flash with buf := Mem.writeRange 0 [] 0 (flashRead s a 4096) } }
  | .read, false => s
  | .program, true =>
    if s.flash.tainted then { flashWrite s a (freeBytes s 4096) with freeIdx := s.freeIdx + 4096 }
    else flashWrite s a (List.zipWith (· &&& ·) (flashRead s a 4096) (Mem.readRange 0 s.flash.buf 0 4096))
  | .program, false => { flashWrite s a (freeBytes s 4096) with freeIdx := s.freeIdx + 4096 }
  | .erase, true => flashErase s a 65536
  | .erase, false => { flashWrite s a (freeBytes s 65536) with freeIdx := s.freeIdx + 65536 }

/-- An operation ends and BUSY clears; a boot ROM that waited for it goes on (18 R471, R479). -/
def flashOpDone (deviceOk : Bool) (s : State) : State :=
  match s.flash.op with
  | none => s
  | some (op, a) =>
    let s1 := flashEffect op a deviceOk s
    let s2 := { s1 with flash := { s1.flash with
      busy := false, op := none, tainted := false
      err := s1.flash.err || !deviceOk, code := if deviceOk then 0 else 4 } }
    if s2.boot.phase = .booting then bootRom s2 else s2

def execFlashOpDone (deviceOk : Bool) (s : State) : Host.Outcome State Fault Refusal := live s (flashOpDone deviceOk s)

/-! ### Power registers and SbModuleId -/

/-- The side-band registers outside the management domain answer (18 R478). -/
def sbOpen (s : State) : Bool := s.managed && s.released

/-- A write to PwrLimit (15 R410). -/
def pwrLimitWrite (value : W32) (s : State) : State :=
  let w := bitsOf value.toNat 10 0
  if sbOpen s && psOk w then { s with cut := { s.cut with ps := w } } else s

def execPwrLimitWrite (value : W32) (s : State) : Host.Outcome State Fault Refusal := live s (pwrLimitWrite value s)

/-- A read of PwrMeas (15 R410): PEAK_W clears when all four bytes were read (18 R476). -/
def pwrMeasRead (nbytes : Nat) (s : State) : State :=
  let w := if sbOpen s then pwrMeas s else 0
  let s1 := { s with readOut := (leBytes 4 w.toNat).take nbytes }
  if sbOpen s && decide (4 ≤ nbytes) then { s1 with cut := { s1.cut with peak := 0 } } else s1

def execPwrMeasRead (nbytes : Nat) (s : State) : Host.Outcome State Fault Refusal := live s (pwrMeasRead nbytes s)

/-- A write to SbModuleId (18 R473): it resumes a boot that waits for an id. -/
def sbModuleIdWrite (value : W32) (s : State) : State :=
  if !s.managed then s else
    let id := bitsOf value.toNat 15 0
    let s1 := { s with sb := { s.sb with moduleId := w32 id } }
    if s.boot.phase == .waitId && id != 0xFFFF then firmwareStart s1 else s1

def execSbModuleIdWrite (value : W32) (s : State) : Host.Outcome State Fault Refusal := live s (sbModuleIdWrite value s)

/-! ### Launch Counter -/

/-- A read of LcCount (02 R63): the low word latches the high one, which the high offset returns. -/
def lcCountRead (high : Bool) (s : State) : State :=
  if high then { s with readOut := leBytes 4 s.lcLatch.toNat }
  else { s with readOut := leBytes 4 (halfWord s.lc false).toNat, lcLatch := halfWord s.lc true }

def execLcCountRead (high : Bool) (s : State) : Host.Outcome State Fault Refusal := live s (lcCountRead high s)

/-- A read of SbLcCount (18 R476): the low word latches when all four bytes were read. -/
def sbLcCountRead (high : Bool) (nbytes : Nat) (s : State) : State :=
  if !sbOpen s then { s with readOut := List.replicate (min nbytes 4) 0 }
  else if high then { s with readOut := (leBytes 4 s.sb.lcLatch.toNat).take nbytes }
  else
    let s1 := { s with readOut := (leBytes 4 (halfWord s.lc false).toNat).take nbytes }
    if 4 ≤ nbytes then { s1 with sb := { s1.sb with lcLatch := halfWord s.lc true } } else s1

def execSbLcCountRead (high : Bool) (nbytes : Nat) (s : State) : Host.Outcome State Fault Refusal :=
  live s (sbLcCountRead high nbytes s)

/-! ### Time gates -/

/-- Lengths of the maximal runs of open entries, for a list that starts with a closed one. -/
def openRuns (flow : Nat) : List W64 → Nat → List Nat
  | [], acc => if acc = 0 then [] else [acc]
  | e :: r, acc =>
    if gateOpen flow e then openRuns flow r (acc + gateDuration e)
    else if acc = 0 then openRuns flow r 0 else acc :: openRuns flow r 0

/-- The list turned so that it starts with its first closed entry. -/
def turnClosed (flow : Nat) (es : List W64) : List W64 :=
  es.dropWhile (gateOpen flow) ++ es.takeWhile (gateOpen flow)

/-- No window of the flow is shorter than 400 counts; a flow open in every entry has no window end (14 R384, R385). -/
def windowsOk (es : List W64) (flow : Nat) : Bool :=
  es.all (gateOpen flow) || (openRuns flow (turnClosed flow es) 0).all fun n => decide (400 ≤ n)

/-- May the switch be armed (14 R385)? -/
def switchOk (s : State) (p : Port) : Bool :=
  let es := bankEntries p (!p.activeBank) (p.pendCount.toNat + 1)
  decide (s.now + 1000 ≤ p.gateBase.toNat) && es.all (fun e => gateDuration e != 0) && (List.range 37).all (windowsOk es)

/-- Ports 0 to 3 of a bridge ignore the gate registers (14 R386). -/
def gateIgnored (s : State) (port : Nat) : Bool := s.ident.bridge && decide (port < 4)

/-- RW and W1C fields of LinkGateCtl (14 R386). -/
def gateCtlFields (value : W32) (p : Port) : Port :=
  { p with pendCount := BitVec.ofNat 6 (bitsOf value.toNat 13 8), gateErr := p.gateErr && !bit value.toNat 29 }

/-- PENDING written 1: arm the switch or refuse it (14 R385). -/
def gateArm (port : Nat) (value : W32) (s : State) : State :=
  if !sbOpen s || gateIgnored s port then s else
    s.modPort port fun p =>
      let p1 := gateCtlFields value p
      if switchOk s p1 then { p1 with pending := true } else { p1 with pending := false, gateErr := true }

def execGateSwitchArm (port : Nat) (value : W32) (s : State) : Host.Outcome State Fault Refusal :=
  live s (gateArm port value s)

/-- PENDING written 0: cancel (14 R386). -/
def gateCancel (port : Nat) (value : W32) (s : State) : State :=
  if !sbOpen s || gateIgnored s port then s else
    s.modPort port fun p => { gateCtlFields value p with pending := false }

def execGateSwitchCancel (port : Nat) (value : W32) (s : State) : Host.Outcome State Fault Refusal :=
  live s (gateCancel port value s)

/-- At LinkGateBase the pending bank becomes active, after a frame in transmission (14 R385). -/
def gateBankSwitch (port : Nat) (s : State) : State :=
  let p := s.port port
  if p.pending && decide (p.gateBase.toNat ≤ s.now) && decide (p.busyUntil ≤ s.now) then
    s.modPort port fun p =>
      { p with pending := false, activeBank := !p.activeBank, actCount := p.pendCount, activeBase := p.gateBase, gated := true }
  else s

def execGateBankSwitch (port : Nat) (s : State) : Host.Outcome State Fault Refusal := live s (gateBankSwitch port s)

/-! ### Other registers -/

/-- A write to LinkPortCtl (14 R386): DISABLE holds the port DOWN; cleared, the port trains again unless no lane is left
(14 R376). Ports 0 to 3 train once PCIe detection has ended (14 R387). -/
def portCtlWrite (port : Nat) (value : W32) (s : State) : State :=
  let p := s.port port
  let s1 := s.modPort port fun p => { p with ctl := w32 (value.toNat % 4 + bitsOf value.toNat 23 16 * 2 ^ 16) }
  if p.state == .pcie then s1
  else if bit value.toNat 0 then routesChanged s (portDown s1 port)
  else if p.state == .down && bit p.ctl.toNat 0 && p.retiredLanes != 15 && (decide (4 ≤ port) || s.boot.pcieDone) then
    s1.modPort port fun p => { p with state := .training }
  else s1

/-- A 64-bit register takes its value when the high word is written (18 R476): the low word kept for it. -/
def heldFor (s : State) (off : Nat) : W32 := lookupD s.sb.heldLow off 0

def holdLow (s : State) (off : Nat) (value : W32) : State :=
  { s with sb := { s.sb with heldLow := setKey s.sb.heldLow off value } }

/-- A write in a link port block (14 R386). -/
def linkBlockWrite (off : Nat) (value : W32) (s : State) : State :=
  let port := (off - 0x0400) / 0x20
  match (off - 0x0400) % 0x20 with
  | 0x00 => portCtlWrite port value s
  | 0x08 => if bit value.toNat 31 then gateArm port value s else gateCancel port value s
  | 0x10 => if gateIgnored s port then s else holdLow s off value
  | 0x14 =>
    if gateIgnored s port then s else
      let low := heldFor s (off - 4)
      s.modPort port fun p => { p with gateBase := value ++ low }
  | _ => s

/-- A write to a gate entry (14 R386). -/
def gateEntryWrite (off : Nat) (value : W32) (s : State) : State :=
  let port := (off - 0x4000) / 0x400
  let o := (off - 0x4000) % 0x400
  if gateIgnored s port then s
  else if o % 8 = 0 then holdLow s off value
  else
    let low := heldFor s (off - 4)
    let v : W64 := value ++ low
    s.modPort port fun p =>
      let rest := eraseKey p.gates (o / 8)
      { p with gates := if v = 0 then rest else (o / 8, v) :: rest }

/-- A write to a side-band register (18 R477, R478, R479; 15 R410; 14 R386): a register with a row of its own acts as that
row; offsets that are not multiples of 4 are refused (18 R475). -/
def sbWrite (off : Nat) (value : W32) (s : State) : State :=
  if !s.managed || off % 4 != 0 then s
  else if off = 0x0008 then sbModuleIdWrite value s
  else if off = 0x0100 then
    match bitsOf value.toNat 1 0 with
    | 1 => flashStart .read s
    | 2 => flashStart .program s
    | 3 => flashStart .erase s
    | _ => s
  else if off = 0x0104 then { s with flash := { s.flash with addr := w32 (bitsOf value.toNat 27 0) } }
  else if off = 0x0108 then { s with flash := { s.flash with err := s.flash.err && !bit value.toNat 30 } }
  else if 0x1000 ≤ off ∧ off < 0x2000 then
    { s with flash := { s.flash with
        buf := Mem.writeRange 0 s.flash.buf (off - 0x1000) (leBytes 4 value.toNat)
        tainted := s.flash.tainted || s.flash.busy } }
  else if !s.released then s
  else if off = 0x0200 then pwrLimitWrite value s
  else if 0x0400 ≤ off ∧ off < 0x0600 then linkBlockWrite off value s
  else if 0x4000 ≤ off ∧ off < 0x8000 then gateEntryWrite off value s
  else s

/-- A write to a register of a slot page other than the indices (02 R61). -/
def slotRegWrite (pair off : Nat) (value : W32) (s : State) : State :=
  match off with
  | 0x010 => s.modPair pair fun p =>
    { p with unboundWr := p.unboundWr && !bit value.toNat 0, tailErr := p.tailErr && !bit value.toNat 1,
             headErr := p.headErr && !bit value.toNat 2 }
  | 0x808 => { s with ident := { s.ident with events := s.ident.events &&& ~~~(value.setWidth 4) } }
  | _ => s

/-- A write to page 0 of a function (02 R61): ImgWinErr.UNREACH clears. -/
def page0Write (fn off : Nat) (value : W32) (s : State) : State :=
  if off = 0x004 ∧ bit value.toNat 0 then
    { s with bridge := { s.bridge with winErr := s.bridge.winErr.filter (· != fn) } }
  else s

end Sys2Proof.Machine
end

