-- ==== Sys2Proof/Machine/Imger.lean ====
section
/-! DEFINITION. Imger takes commands (02 R35 to R39, R45, R51, R59): the doorbell, the ring's slots and payloads, commands held
by FENCE, and writes to registers (00 R9; 02 R61). -/

namespace Sys2Proof.Machine

/-- Start a command that has passed its sequence check (02 R51). Whether a fuse read-back succeeds is not the sender's to say:
a free value where no row says it (log 49). -/
def startCode : Code → Req → Nat → State → State
  | .nop => cmdNop
  | .resultRelease => cmdResultRelease
  | .moduleQuery => cmdModuleQuery
  | .healthRead => cmdHealthRead
  | .powerSet => cmdPowerSet
  | .partitionBind => cmdPartitionBind
  | .partitionUnbind => cmdPartitionUnbind
  | .partitionRebind => cmdPartitionRebind
  | .lifecycleAdvance => fun r t s =>
    cmdLifecycleAdvance (!(Config.freeValue s.freeIdx).getLsbD 0) r t { s with freeIdx := s.freeIdx + 1 }
  | .attestGet => cmdAttestGet
  | .configExport => cmdConfigExport
  | .configImport => cmdConfigImport
  | .bridgeMap => cmdBridgeMap
  | .serveStart => cmdServeStart
  | .serveStop => cmdServeStop
  | .partitionStatus => cmdPartitionStatus
  | .digestRead => cmdDigestRead
  | .partitionRecover => cmdPartitionRecover
  | .modelSwapIn => cmdModelSwapIn
  | .modelSwapOut => cmdModelSwapOut
  | .indexLoad => cmdIndexLoad
  | .indexUnload => cmdIndexUnload
  | .tableLoad => cmdTableLoad
  | .tokenizerLoad => cmdTokenizerLoad
  | .grammarLoad => cmdGrammarLoad
  | .contentUnload => cmdContentUnload
  | .querySubmit => cmdQuerySubmit
  | .generateSubmit => cmdGenerateSubmit
  | .requestCancel => cmdRequestCancel
  | .requestPause => cmdRequestPause
  | .requestResume => cmdRequestResume
  | .searchSubmit => cmdSearchSubmit
  | .gatherSubmit => cmdGatherSubmit
  | .updateSubmit => cmdUpdateSubmit
  | .tallySubmit => cmdTallySubmit
  | .tokenizeSubmit => cmdTokenizeSubmit
  | .detokenizeSubmit => cmdDetokenizeSubmit
  | .searchInsert => cmdSearchInsert
  | .searchDelete => cmdSearchDelete
  | .plantStart => cmdPlantStart
  | .barrierJoin => cmdBarrierJoin
  | .broadcastSend => cmdBroadcastSend
  | .snapshotTake => cmdSnapshotTake
  | .groupReset => cmdGroupReset
  | .loopbackSet => cmdLoopbackSet
  | .selftestRun => cmdSelftestRun
  | .peerSearch => cmdPeerSearch
  | .peerFetch => cmdPeerFetch
  | .peerGather => cmdPeerGather
  | .peerUpdate => cmdPeerUpdate

/-! ### Requests in the ring -/

/-- Bytes of a request slot (02 R27, R37). -/
def reqSlotBytes : Nat := 512

/-- Region offset of the slot of request index `i` (02 R27, R35). -/
def slotAt (p : Pair) (i : W16) : Nat := reqSlotBytes * (i.toNat % 2 ^ p.geom.reqLog2)

/-- The header of a slot (02 R37). -/
def headerOf (l : List Byte) : Header :=
  { seq := w32 (fld l 0 4), flags := b8 (fld l 6 1), prio := b8 (fld l 7 1), context := w16 (fld l 8 2),
    payLoc := b8 (fld l 0xA 1), rsv0B := b8 (fld l 0xB 1), payLen := w32 (fld l 0xC 4), payOffset := w32 (fld l 0x10 4),
    rsv14 := w32 (fld l 0x14 4), expDigest := w64 (fld l 0x18 8), rsv20 := BitVec.ofNat 256 (fld l 0x20 32) }

/-- Payload bytes that a header names, inline or in the payload region (02 R37, R39); none where the header's form already
fails. R39 lets firmware read them at any time until the final completion: the model takes what stands there when the request is
taken, also for one that FENCE holds. DESIGN CHOICE (log 101). -/
def payloadOf (s : State) (p : Pair) (h : Header) (slot : List Byte) : List Byte :=
  let n := h.payLen.toNat
  let off := h.payOffset.toNat
  if h.payLoc = 0 then if n ≤ 448 then bytesAt slot 0x40 n else []
  else if off + n ≤ p.geom.payUnits * 0x10000 then regionRead s.landing p.segs (0x100000 + off) n else []

/-- The request in the slot of an index: its code field and what is sent with it. -/
def requestAt (s : State) (pair : Nat) (i : W16) : Nat × Req :=
  let p := s.pair pair
  let slot := regionRead s.landing p.segs (slotAt p i) reqSlotBytes
  let h := headerOf slot
  (fld slot 4 2, { pair, hdr := h, pay := payloadOf s p h slot, src := 0, tag := 0 })

/-- A request arrives: a code that no command has fails after the sequence check (02 R51). -/
def takeRequest (code : Nat) (r : Req) (s : State) : State :=
  match Code.ofNum code with
  | some c => enter c (startCode c) r s
  | none =>
    let p := s.pair r.pair
    if !s.isReady || !p.bound || decide (96 ≤ r.pair) then s else
      let irq := bit r.hdr.flags.toNat 0
      let s1 := { s with nextId := s.nextId + 1 }
      let ok := r.hdr.seq == p.expSeq
      let s2 := if ok then s1.modPair r.pair fun p => { p with expSeq := p.expSeq + 1 } else s1
      post s2 r.pair { mkRecord s r.hdr.seq irq p.part (if ok then .unknownCommand else .sequence) (if ok then 0 else p.expSeq)
        s.nextId with dest := if 64 ≤ r.pair then some (r.src, r.tag) else none }

/-- Take at most `n` requests of a pair in index order, up to its tail (02 R35, R59). -/
def takeRing (pair : Nat) : Nat → State → State
  | 0, s => s
  | n + 1, s =>
    let p := s.pair pair
    if !s.isReady || !p.bound || p.reqHead == p.reqTail then s
    else
      let q := requestAt s pair p.reqHead
      takeRing pair n (takeRequest q.1 q.2 (s.modPair pair fun p => { p with reqHead := p.reqHead + 1 }))

/-- Is a written tail taken (02 R36): not more than a ring ahead of the head, nor behind the tail before? -/
def tailOk (p : Pair) (v : W16) : Bool :=
  let ahead := (v - p.reqHead).toNat
  decide (ahead ≤ 2 ^ p.geom.reqLog2) && decide ((p.reqTail - p.reqHead).toNat ≤ ahead)

/-- A write to ImgReqTail (02 R35, R36). Commands are taken from READY on (18 R472; log 1). -/
def doorbell (pair : Nat) (value : W32) (s : State) : State :=
  if 64 ≤ pair then s else
    let p := s.pair pair
    let v : W16 := value.setWidth 16
    if !p.bound then s.modPair pair fun p => { p with unboundWr := true }
    else if !tailOk p v then s.modPair pair fun p => { p with tailErr := true }
    else takeRing pair (2 ^ p.geom.reqLog2) (s.modPair pair fun p => { p with reqTail := v })

def execDoorbell (pair : Nat) (value : W32) (s : State) : Host.Outcome State Fault Refusal := live s (doorbell pair value s)

/-- The oldest command of a pair that FENCE holds starts once every earlier command has posted its final record (02 R45). -/
def fencedStart (pair : Nat) (s : State) : State :=
  match (s.pair pair).fenced with
  | [] => s
  | (t, c, r) :: rest =>
    if earlierDone s pair t then startCode c r t (s.modPair pair fun p => { p with fenced := rest }) else s

def execFencedCommandStart (pair : Nat) (s : State) : Host.Outcome State Fault Refusal := live s (fencedStart pair s)

/-! ### Registers of a slot page -/

/-- A write to a register of a slot page (02 R61). -/
def slotWrite (pair off : Nat) (value : W32) (s : State) : State :=
  if !s.released then s
  else if off = 0x000 then doorbell pair value s
  else if off = 0x004 then writeCplHead pair value s
  else slotRegWrite pair off value s

/-- A read of a register of a slot page: the word, and the latch that a read of LcCount's low word fills (02 R61, R63). -/
def slotRead (pair off : Nat) (s : State) : W32 × State :=
  (slotReg s pair off, if off = 0x810 then { s with lcLatch := halfWord s.lc true } else s)

/-- Words of a slot page read in ascending order. -/
def slotWords (pair : Nat) : Nat → Nat → State → List Byte × State
  | _, 0, s => ([], s)
  | off, n + 1, s =>
    let r := slotRead pair off s
    let q := slotWords pair (off + 4) n r.2
    (leBytes 4 r.1.toNat ++ q.1, q.2)

/-- Bytes of a slot page: the registers are 32 bits wide and naturally aligned (02 R61). A read of fewer than 4 bytes that touches
the word at 0x810 latches the high word as a whole read does: DESIGN CHOICE, R63 speaks of a 4-byte read (log 22). -/
def slotReadBytes (pair off n : Nat) (s : State) : List Byte × State :=
  let r := slotWords pair (off / 4 * 4) (cdiv (off % 4 + n) 4) s
  ((r.1.drop (off % 4)).take n, r.2)

/-- Whole words of a write, with their offsets; a write that is not naturally aligned to its words writes none (02 R61). -/
def wordsOf (off : Nat) (data : List Byte) : List (Nat × W32) :=
  if off % 4 = 0 then (List.range (data.length / 4)).map fun k => (off + 4 * k, w32 (fld data (4 * k) 4)) else []

/-- Words written to a slot page in ascending order. -/
def slotWriteBytes (pair off : Nat) (data : List Byte) (s : State) : State :=
  (wordsOf off data).foldl (fun s e => slotWrite pair e.1 e.2 s) s

/-- REGISTER_WRITE: a register without a row of its own (00 R9, R11); offsets are those of 02 R61 and 18 R477. -/
def registerWrite (space : RegSpace) (off : Nat) (value : W32) (s : State) : State :=
  match space with
  | .slot pair => slotWrite pair off value s
  | .page0 fn => page0Write fn off value s
  | .sideband => sbWrite off value s

def execRegisterWrite (space : RegSpace) (offset : Nat) (value : W32) (s : State) : Host.Outcome State Fault Refusal :=
  live s (registerWrite space offset value s)

end Sys2Proof.Machine
end

