-- ==== Sys2Proof/Machine/Arrive.lean ====
section
/-! DEFINITION. What a frame does at the module it is for (14 R371, R372, R380, R392 to R394): mailbox accesses, peer commands,
answers, messages, and host memory. -/

namespace Sys2Proof.Machine

/-! ### The bridge's answers to the host -/

/-- An error is recorded in a function's AER status (14 R395; log 99). -/
def setAer (s : State) (fn b : Nat) : State :=
  { s with bridge := { s.bridge with aer := setKey s.bridge.aer fn (lookupD s.bridge.aer fn 0 ||| w32 (2 ^ b)) } }

/-- Bits of the AER uncorrectable error status (14 R395; log 99): Completion Timeout, Completer Abort, Unsupported Request. -/
def aerTimeout : Nat := 14
def aerAbort : Nat := 15
def aerUnsupported : Nat := 20

/-- An access of a function found its target unreachable (02 R34), a relay error (14 R395). -/
def setUnreach (s0 : State) (fn : Nat) : State :=
  let s := setAer s0 fn aerAbort
  { s with bridge := { s.bridge with winErr := if s.bridge.winErr.contains fn then s.bridge.winErr else s.bridge.winErr ++ [fn] } }

/-- Bytes go back to the host for a read. -/
def readDone (s : State) (fn tag : Nat) (bs : List Byte) : State := { s with hostOut := s.hostOut ++ [.readDone fn tag bs] }

/-- A read whose target cannot be reached returns all ones (02 R34). -/
def readUnreach (s : State) (fn tag len : Nat) : State := readDone (setUnreach s fn) fn tag (List.replicate len 0xFF)

/-- A relayed read has ended without its answer, which is still to come: the tag stays taken (14 R396). -/
def endRelays (s : State) (f : Relay → Bool) : State :=
  { s with bridge := { s.bridge with relays := s.bridge.relays.map fun r => if f r then { r with dead := true } else r } }

/-- Take a relayed read off the list. -/
def dropRelay (s : State) (tag : Nat) : State :=
  { s with bridge := { s.bridge with relays := s.bridge.relays.filter fun r => r.tag != tag } }

/-! ### Fields of relay frames (log 21) -/

/-- Address of a relayed access: pair, 1 for a register of the slot page, and offset (14 R371; log 21). -/
def relayAddr (pair : Nat) (reg : Bool) (off : Nat) : W64 := w64 (pair * 2 ^ 56 + boolNat reg * 2 ^ 48 + off)

def addrPair (a : W64) : Nat := bitsOf a.toNat 63 56
def addrReg (a : W64) : Bool := bitsOf a.toNat 55 48 == 1
def addrOff (a : W64) : Nat := bitsOf a.toNat 26 0

/-- Tag of a relayed write: the function, so that an unreachable target can be reported (log 21). -/
def writeTag (fn : Nat) : W16 := w16 (0xC000 + fn)

/-- Bytes answering a read, in frames of flow RSP; a failed one has Length 0. Address bits 63:56 are 1 for host memory (log 21). -/
def sendReadData (s : State) (dest : W16) (host : Bool) (tag : W16) (bs : List Byte) : State :=
  (framePieces bs).foldl (fun s c => sendFrame s 0 (mkFrame .readData dest 0xFF 0xFF
    (w64 (boolNat host * 2 ^ 56 + c.1)) (w32 c.2.length) tag c.2)) s

/-! ### Mailbox accesses -/

/-- The bridge that relays to a pair (14 R393; log 33). -/
def noteVia (s : State) (pair : Nat) (b : W16) : State := s.modPair pair fun p => { p with via := some b }

/-- Does a host-facing pair take an access to its region (14 R372)? -/
def regionOpen (s : State) (pair : Nat) : Bool := decide (pair < 64) && (s.pair pair).bound

/-- MBOX_WRITE at its target (14 R371, 02 R28): bytes of the region, or a register of the slot page. -/
def mboxWriteAt (s : State) (f : Frame) : State :=
  let pair := addrPair f.address
  if 64 ≤ pair then sendReadData s f.src false f.tag []
  else if addrReg f.address then
    slotWriteBytes pair (addrOff f.address) f.data (noteVia s pair f.src)
  else if regionOpen s pair then
    let s1 := noteVia s pair f.src
    { s1 with landing := regionWrite s1.landing (s1.pair pair).segs (addrOff f.address) f.data }
  else sendReadData s f.src false f.tag []

/-- MBOX_READ at its target: answered by READ_DATA (14 R371). -/
def mboxReadAt (s : State) (f : Frame) : State :=
  let pair := addrPair f.address
  let n := f.length.toNat
  if 64 ≤ pair then sendReadData s f.src false f.tag []
  else if addrReg f.address then
    let r := slotReadBytes pair (addrOff f.address) n (noteVia s pair f.src)
    sendReadData r.2 f.src false f.tag r.1
  else if regionOpen s pair then
    let s1 := noteVia s pair f.src
    sendReadData s1 f.src false f.tag (regionRead s1.landing (s1.pair pair).segs (addrOff f.address) n)
  else sendReadData s f.src false f.tag []

/-- READ_DATA (14 R371, R392, R394): bytes of host memory for a fill, the answer to a relayed read, or the report that the
target of a relayed write took nothing. -/
def readDataAt (s : State) (f : Frame) : State :=
  if addrPair f.address = 1 then
    match s.fills.find? fun x => x.space == 2 && x.id % 1024 == f.tag.toNat % 1024 with
    | some x => if f.length = 0 then sourceFails s x .fault else fillGrows s x.id f.data
    | none => s
  else if 0xC000 ≤ f.tag.toNat then setUnreach s (f.tag.toNat - 0xC000)
  else match s.bridge.relays.find? fun r => r.tag == f.tag.toNat with
    | some r =>
      let s1 := dropRelay s r.tag
      if r.dead then s1
      else if f.length = 0 then readUnreach s1 r.fn r.tag r.len else readDone s1 r.fn r.tag (f.data.take r.len)
    | none => s

/-! ### Peer commands (14 R380) -/

/-- Payload length in a peer command's header. -/
def peerLen (x : PeerPartial) : Nat := fld x.slot 0xC 4

/-- Has every frame of the command arrived? -/
def peerWhole (x : PeerPartial) : Bool := decide (peerLen x ≤ 448) || decide (peerLen x ≤ x.data.length)

/-- Payload region ranges of commands that have not posted their final record. -/
def payInUse (s : State) (pair : Nat) : List (Nat × Nat) :=
  let p := s.pair pair
  (p.payHeld.filter fun h => (s.cmd? h.1).isSome || p.fenced.any fun f => f.1 == h.1).map fun h => h.2

/-- Offset for a command's further payload: none while the region has no room. A payload that the region could never hold
takes offset 0, and its form fails. -/
def payPlace (s : State) (pair : Nat) (x : PeerPartial) : Option Nat :=
  let n := peerLen x
  let room := (s.pair pair).geom.payUnits * 0x10000
  if n ≤ 448 ∨ room < n then some 0 else lowestFree 64 (payInUse s pair) room n

/-- The slot as it is placed: Seq the pair's expected number, and PayLoc and PayOffset of further payload. -/
def placedSlot (p : Pair) (x : PeerPartial) (off : Nat) : List Byte :=
  let l := bytesAt x.slot 0 reqSlotBytes
  let a := leBytes 4 p.expSeq.toNat ++ bytesAt l 4 6
  if peerLen x ≤ 448 then a ++ l.drop 10
  else a ++ [1] ++ bytesAt l 0xB 5 ++ leBytes 4 off ++ l.drop 0x14

/-- Place a whole command in the pair's next slot and advance the tail; it is taken at once. -/
def placePeer (s : State) (pair : Nat) (x : PeerPartial) (off : Nat) : State :=
  let p := s.pair pair
  let n := peerLen x
  let m1 := regionWrite s.landing p.segs (slotAt p p.reqTail) (placedSlot p x off)
  let m2 := if n ≤ 448 ∨ p.geom.payUnits * 0x10000 < n then m1 else regionWrite m1 p.segs (0x100000 + off) (x.data.take n)
  let s1 := { s with landing := m2 }
  let q := requestAt s1 pair p.reqTail
  let s2 := s1.modPair pair fun p => { p with
    reqTail := p.reqTail + 1, reqHead := p.reqHead + 1,
    payHeld := (p.payHeld.filter fun h => (s1.cmd? h.1).isSome || p.fenced.any fun f => f.1 == h.1) ++
      if n ≤ 448 then [] else [(s1.nextId, off, n)] }
  takeRequest q.1 { q.2 with src := x.src, tag := x.tag } s2

/-- Place whole commands in the order in which their last frames arrived, as far as there is room; at most `n`. -/
def placeArrived (pair : Nat) : Nat → State → State
  | 0, s => s
  | n + 1, s =>
    match (s.pair pair).arriving.find? peerWhole with
    | none => s
    | some x => match payPlace s pair x with
      | none => s
      | some off =>
        placeArrived pair n (placePeer (s.modPair pair fun p => { p with arriving := p.arriving.erase x }) pair x off)

/-- Run `placeArrived` over everything that waits. -/
def placeAll (pair : Nat) (s : State) : State := placeArrived pair (s.pair pair).arriving.length s

/-- Answer a peer command that no pair takes with ST_DENIED (14 R372): a record that no ring holds (log 20). -/
def denyPeer (s : State) (f : Frame) : State :=
  sendMessage s f.src f.srcPart f.dstPart msgReply 1 f.tag
    (recordBytes { mkRecord s 0 false none .denied 0 0 with partition := some f.dstPart.toNat } 0 3)

/-- Is the peer pair of the frame's partition there (02 R24)? -/
def peerOpen (s : State) (f : Frame) : Bool := decide (f.dstPart.toNat < 32) && (s.pair (64 + f.dstPart.toNat)).bound

/-- PEER_REQ at its target. -/
def peerReqAt (s : State) (f : Frame) : State :=
  let pair := 64 + f.dstPart.toNat
  if !peerOpen s f then denyPeer s f
  else placeAll pair (s.modPair pair fun p => { p with arriving := p.arriving ++ [⟨f.src, f.tag, f.data, []⟩] })

/-- PEER_DATA at its target. -/
def peerDataAt (s : State) (f : Frame) : State :=
  let pair := 64 + f.dstPart.toNat
  if !peerOpen s f then s
  else match (s.pair pair).arriving.find? fun x => x.src == f.src && x.tag == f.tag && !peerWhole x with
    | some x => placeAll pair (s.modPair pair fun p => { p with
        arriving := p.arriving.erase x ++ [{ x with data := x.data ++ f.data }] })
    | none => s

/-! ### Messages and host memory -/

/-- MESSAGE (14 R371, R380, R393): a peer's reply, or an interrupt relay. -/
def messageAt (s : State) (f : Frame) : State :=
  let kind := bitsOf f.address.toNat 63 56
  let sub := bitsOf f.address.toNat 55 32
  if kind = msgReply then replyArrives s f.src f.tag f.length.toNat f.data
  else if kind = msgIrq && s.ident.bridge then bridgeIrq s f.src.toNat (sub / 256) (sub % 256)
  else s

/-- HOST_WRITE at the bridge (14 R394): PCIe writes of the function that maps the pair. -/
def hostWriteAt (s : State) (f : Frame) : State :=
  match slotOf s f.src.toNat (f.tag.toNat / 1024) with
  | some e =>
    if s.ident.bridge && s.bridge.busMaster.contains e.fn && s.bridge.rate != 0 then
      bridgeWrite s e.fn f.address.toNat f.data
    else s
  | none => s

/-- HOST_READ at the bridge (14 R394): PCIe reads, or a failed answer. -/
def hostReadAt (s : State) (f : Frame) : State :=
  if !s.ident.bridge then sendReadData s f.src true f.tag [] else
    let r := bridgeRead s f.src (f.tag.toNat / 1024) f.address.toNat f.length.toNat f.tag none
    if r.2 then r.1 else sendReadData s f.src true f.tag []

/-- A frame for this module, in the order of its flow. -/
def deliverFrame (s : State) (f : Frame) : State :=
  match f.kind with
  | .mboxWrite => mboxWriteAt s f
  | .mboxRead => mboxReadAt s f
  | .readData => readDataAt s f
  | .peerReq => peerReqAt s f
  | .peerData => peerDataAt s f
  | .message => messageAt s f
  | .hostWrite => hostWriteAt s f
  | .hostRead => hostReadAt s f
  | .blaze => blazeArrive f s

/-! ### Flow order (14 R372) -/

/-- The flow a frame belongs to at its destination. -/
def flowKey (f : Frame) : W16 × Nat := (f.src, kindChannel f.kind)

/-- Frames held early are delivered as far as their flow's order allows; at most `n`. -/
def drainEarly (k : W16 × Nat) : Nat → State → State
  | 0, s => s
  | n + 1, s =>
    let exp := lookupD s.flowRx k 0
    match s.early.find? fun f => flowKey f == k && f.flowSeq == exp with
    | none => s
    | some f =>
      drainEarly k n (deliverFrame { s with early := s.early.erase f, flowRx := setKey s.flowRx k (exp + 1) } f)

/-- A frame has arrived at its destination: delivered in FlowSeq order, held while early, dropped when delivered before. -/
def flowArrive (s : State) (f : Frame) : State :=
  let k := flowKey f
  let exp := lookupD s.flowRx k 0
  if f.flowSeq = exp then
    let s1 := deliverFrame { s with flowRx := setKey s.flowRx k (exp + 1) } f
    drainEarly k s1.early.length s1
  else if (f.flowSeq - exp).toNat < 32768 && !(s.early.any fun e => flowKey e == k && e.flowSeq == f.flowSeq) then
    { s with early := s.early ++ [f] }
  else s

end Sys2Proof.Machine
end

