-- ==== Sys2Proof/Machine/Bridge.lean ====
section
/-! DEFINITION. The host bridge (02 R31 to R34; 14 R387 to R396): window accesses of the host and their relay, resets of
functions, configuration space, and completions of reads of host memory. -/

namespace Sys2Proof.Machine

/-! ### Accesses -/

/-- Sizes of the two windows (14 R390): BAR 0 and BAR 2. -/
def barSize (bar : Nat) : Nat := if bar = 0 then 0x400000 else if bar = 2 then 0x1000000000 else 0

/-- Bytes of a memory-window slot (02 R32, 14 R390). -/
def windowSlot : Nat := 0x8000000

/-- An access that reaches the endpoint: of an enabled function, inside a window and, as PCIe has it, inside one 4 KiB
page (14 R390; log 34). -/
def accessOk (s : State) (fn bar off n : Nat) : Bool :=
  s.ident.bridge && s.bridge.rate != 0 && decide (fn ≤ s.bridge.numVFs) && decide (1 ≤ n) && decide (off + n ≤ barSize bar) &&
    decide (off % 4096 + n ≤ 4096)

/-- The bridge relays only at 128, 64 or 32 GT/s (14 R389). -/
def relays (s : State) : Bool := s.bridge.rate == 128 || s.bridge.rate == 64 || s.bridge.rate == 32

/-- Bytes of a slot's mapped region as far as the bridge knows its geometry: that of pair 0 (13 R346), that of its own pairs,
and the largest there is for another module's (02 R28, 14 R390; log 34). -/
def mappedBytes (s : State) (e : Slot) : Nat :=
  if e.pair = 0 then 0x180000
  else if w16 e.module = s.myId ∧ (s.pair e.pair).bound then
    0x100000 + ((s.pair e.pair).geom.payUnits + (s.pair e.pair).geom.resUnits) * 0x10000
  else 0x7D00000

/-- What a window offset names (02 R32, 14 R390). -/
inductive WindowPlace where
  | page0 (off : Nat)
  | msixTable (off : Nat)
  | msixPba (off : Nat)
  | slotPage (e : Slot) (off : Nat)
  | region (e : Slot) (off : Nat)
  | nothing
  deriving DecidableEq, Repr

def slotNo (s : State) (fn k : Nat) : Option Slot := s.bridge.slots.find? fun e => e.fn == fn && e.slot == k

def windowPlace (s : State) (fn bar off : Nat) : WindowPlace :=
  if bar = 0 then
    if off < 0x1000 then .page0 off
    else if 0x300000 ≤ off ∧ off < 0x300400 then .msixTable (off - 0x300000)
    else if 0x301000 ≤ off ∧ off < 0x301008 then .msixPba (off - 0x301000)
    else match slotNo s fn (off / 0x1000 - 1) with
      | some e => .slotPage e (off % 0x1000)
      | none => .nothing
  else match slotNo s fn (off / windowSlot) with
    | some e => if off % windowSlot < mappedBytes s e then .region e (off % windowSlot) else .nothing
    | none => .nothing

/-! ### MSI-X (14 R390) -/

/-- Pending vectors of a function that are no longer held back are sent. -/
def flushMsix (s : State) (fn : Nat) : State :=
  let due := s.bridge.msixPending.filter fun e => e.1 == fn && !msixMasked s fn e.2
  if s.bridge.msixEnabled.contains fn && s.bridge.busMaster.contains fn then
    { s with
      bridge := { s.bridge with msixPending := s.bridge.msixPending.filter fun e => !due.contains e }
      hostOut := s.hostOut ++ due.map fun e => .msix e.1 e.2 }
  else s

/-- Words of a function's MSI-X table; a vector's control word is masked as PCIe leaves it. -/
def msixWord (s : State) (fn off : Nat) : W32 := lookupD s.bridge.msixTable (fn, off) (if off % 16 = 12 then 1 else 0)

def msixWrite (s : State) (fn : Nat) (off : Nat) (data : List Byte) : State :=
  flushMsix ((wordsOf off data).foldl (fun s e =>
    { s with bridge := { s.bridge with msixTable := setKey s.bridge.msixTable (fn, e.1) e.2 } }) s) fn

/-- Bytes of the MSI-X table. -/
def msixTableBytes (s : State) (fn off n : Nat) : List Byte :=
  bytesAt ((List.range (cdiv (off % 4 + n) 4)).flatMap fun k => leBytes 4 (msixWord s fn (off / 4 * 4 + 4 * k)).toNat) (off % 4) n

/-- Bytes of the pending-bit array. -/
def msixPbaBytes (s : State) (fn off n : Nat) : List Byte :=
  bytesAt (leBytes 8 (((s.bridge.msixPending.filter fun e => e.1 == fn).map fun e => 2 ^ e.2).sum)) off n

/-! ### Writes -/

/-- A write at a mapped slot (14 R392): on the bridge's own pair at once, to another module in frames of flow RELAY; dropped
with UNREACH, and counted, where the target cannot be reached (02 R34; 14 R379). -/
def relayWrite (s : State) (e : Slot) (reg : Bool) (off : Nat) (data : List Byte) : State :=
  if w16 e.module = s.myId then
    if reg then slotWriteBytes e.pair off data s
    else if regionOpen s e.pair then
      { s with landing := regionWrite s.landing (s.pair e.pair).segs off data }
    else setUnreach s e.fn
  else
    let s1 := (framePieces data).foldl (fun s c => sendFrame s 3 (mkFrame .mboxWrite (w16 e.module) 0xFF 0xFF
      (relayAddr e.pair reg (off + c.1)) (w32 c.2.length) (writeTag e.fn) c.2)) s
    if reachable s (w16 e.module) then s1 else setUnreach s1 e.fn

/-- HOST_WINDOW_WRITE. Below 32 GT/s the access is an Unsupported Request (14 R389). -/
def windowWrite (fn bar off : Nat) (data : List Byte) (s : State) : State :=
  if !accessOk s fn bar off data.length then s
  else if !relays s then setAer s fn aerUnsupported
  else match windowPlace s fn bar off with
    | .page0 o => (wordsOf o data).foldl (fun s e => page0Write fn e.1 e.2 s) s
    | .msixTable o => msixWrite s fn o data
    | .msixPba _ => s
    | .slotPage e o => relayWrite s e true o data
    | .region e o => relayWrite s e false o data
    | .nothing => s

def execHostWindowWrite (fn bar offset : Nat) (data : List Byte) (s : State) : Host.Outcome State Fault Refusal :=
  live s (windowWrite fn bar offset data s)

/-! ### Reads -/

/-- Lowest tag that no relayed read has, below those of relayed writes (log 21). -/
def freeRelayTag (s : State) : Nat :=
  (firstFrom (fun t => !s.bridge.relays.any fun r => r.tag == t) (s.bridge.relays.length + 1) 0 1).getD 0

/-- A read at a mapped slot (14 R392). -/
def relayRead (s : State) (e : Slot) (reg : Bool) (off n tag : Nat) : State :=
  if w16 e.module = s.myId then
    if reg then
      let r := slotReadBytes e.pair off n s
      readDone r.2 e.fn tag r.1
    else if regionOpen s e.pair then readDone s e.fn tag (regionRead s.landing (s.pair e.pair).segs off n)
    else readUnreach s e.fn tag n
  else
    let f := mkFrame .mboxRead (w16 e.module) 0xFF 0xFF (relayAddr e.pair reg off) (w32 n) (w16 tag) []
    if reachable s (w16 e.module) then
      sendFrame { s with bridge := { s.bridge with
        relays := s.bridge.relays ++ [{ tag, fn := e.fn, module := e.module, len := n, sent := s.now }] } } 3 f
    else readUnreach (sendFrame s 3 f) e.fn tag n

/-- HOST_WINDOW_READ. Below 32 GT/s the access completes as an Unsupported Request, without bytes (14 R389; log 34). -/
def windowRead (fn bar off n : Nat) (s : State) : State :=
  let tag := freeRelayTag s
  if !accessOk s fn bar off n then s
  else if !relays s then readDone (setAer s fn aerUnsupported) fn tag []
  else match windowPlace s fn bar off with
    | .page0 o =>
      readDone s fn tag (bytesAt ((List.range (cdiv (o % 4 + n) 4)).flatMap fun k =>
        leBytes 4 (page0Reg s fn (o / 4 * 4 + 4 * k)).toNat) (o % 4) n)
    | .msixTable o => readDone s fn tag (msixTableBytes s fn o n)
    | .msixPba o => readDone s fn tag (msixPbaBytes s fn o n)
    | .slotPage e o => relayRead s e true o n tag
    | .region e o => relayRead s e false o n tag
    | .nothing => readDone s fn tag (List.replicate n 0)

def execHostWindowRead (fn bar offset len : Nat) (s : State) : Host.Outcome State Fault Refusal :=
  live s (windowRead fn bar offset len s)

/-- Bound of a relayed read, in counts (14 R392): 2 ms. -/
def relayBound : Nat := 2000000

/-- RELAY_READ_TIMEOUT: a relayed read without answer for 2 ms found its target unreachable. -/
def relayTimeout (tag : Nat) (s : State) : State :=
  match s.bridge.relays.find? fun r => r.tag == tag with
  | some r =>
    if !r.dead && decide (r.sent + relayBound ≤ s.now) then
      bump (readUnreach (endRelays s fun x => x.tag == tag) r.fn tag r.len) .bridgeRelayTimeout 0 0 1
    else s
  | none => s

def execRelayReadTimeout (tag : Nat) (s : State) : Host.Outcome State Fault Refusal := live s (relayTimeout tag s)

/-! ### Resets of functions and of the link (14 R396) -/

/-- FUNCTION_LEVEL_RESET: the function's relayed reads end, its ImgWinErr clears, its MSI-X state is the PCIe default. -/
def functionReset (fn : Nat) (s : State) : State :=
  if !s.ident.bridge || decide (s.bridge.numVFs < fn) then s
  else
    let s := endRelays s fun r => r.fn == fn
    { s with bridge := { s.bridge with
        winErr := s.bridge.winErr.filter (· != fn)
        msixEnabled := s.bridge.msixEnabled.filter (· != fn)
        msixTable := s.bridge.msixTable.filter fun e => e.1.1 != fn
        msixPending := s.bridge.msixPending.filter fun e => e.1 != fn } }

def execFunctionLevelReset (fn : Nat) (s : State) : Host.Outcome State Fault Refusal := live s (functionReset fn s)

/-- PCIE_LINK_DOWN: a hot reset or link-down ends every relay in flight. -/
def linkDown (s : State) : State :=
  if s.ident.bridge then
    let s := endRelays s fun _ => true
    { s with bridge := { s.bridge with rate := 0 } }
  else s

def execPcieLinkDown (s : State) : Host.Outcome State Fault Refusal := live s (linkDown s)

/-- PCIE_LINK_UP: the endpoint trains at x16, x8 or x4 (14 R389), to one of the rates of PCIe 7.0. -/
def linkUp (gtps width : Nat) (s : State) : State :=
  if s.ident.bridge && (width == 16 || width == 8 || width == 4) && [2, 5, 8, 16, 32, 64, 128].contains gtps then
    issueReads 16384 { s with bridge := { s.bridge with rate := gtps } }
  else s

def execPcieLinkUp (gtps width : Nat) (s : State) : Host.Outcome State Fault Refusal := live s (linkUp gtps width s)

/-- A list with a function put in or taken out. -/
def withFn (l : List Nat) (fn : Nat) (on : Bool) : List Nat :=
  if on then if l.contains fn then l else l ++ [fn] else l.filter (· != fn)

/-- CONFIGURATION_SPACE_WRITE (14 R390, R395; log 34, log 99): up to 32 virtual functions, bus mastering, MSI-X, the sizes of
payloads and read requests, and AER status bits cleared by writing 1. -/
def configWrite (w : CfgWrite) (s : State) : State :=
  if !s.ident.bridge || s.bridge.rate == 0 then s
  else match w with
    | .numVFs n => if n ≤ totalVFs then { s with bridge := { s.bridge with numVFs := n } } else s
    | .busMaster fn on =>
      if fn ≤ s.bridge.numVFs then
        issueReads 16384 (flushMsix { s with bridge := { s.bridge with busMaster := withFn s.bridge.busMaster fn on } } fn)
      else s
    | .msixEnable fn on =>
      if fn ≤ s.bridge.numVFs then
        flushMsix { s with bridge := { s.bridge with msixEnabled := withFn s.bridge.msixEnabled fn on } } fn
      else s
    | .maxPayload n => if [128, 256, 512].contains n then { s with bridge := { s.bridge with maxPayload := n } } else s
    | .maxRead n =>
      if [128, 256, 512, 1024, 2048, 4096].contains n then { s with bridge := { s.bridge with maxRead := n } } else s
    | .aerClear fn mask =>
      if fn ≤ s.bridge.numVFs then
        { s with bridge := { s.bridge with aer := setKey s.bridge.aer fn (lookupD s.bridge.aer fn 0 &&& ~~~mask) } }
      else s

def execConfigurationSpaceWrite (w : CfgWrite) (s : State) : Host.Outcome State Fault Refusal := live s (configWrite w s)

/-! ### Reads of host memory (14 R394) -/

/-- Do two reads bring bytes for the same asker? -/
def sameAsker (m : W16) (tag : W16) (fill : Option Nat) (h : HostReadSt) : Bool :=
  h.module == m && h.frameTag == tag && h.fill == fill

/-- The oldest read of the same fill or the same asker is answered first, so that its bytes come in order (log 34). -/
def oldestRead (s : State) (h : HostReadSt) : Bool :=
  h.dead || (s.bridge.hostReads.find? fun x => sameAsker h.module h.frameTag h.fill x && !x.dead) == some h

/-- A read failed: what else was asked for the same asker is not read any more, or goes nowhere. -/
def asksEnd (s : State) (h : HostReadSt) : State :=
  { s with bridge := { s.bridge with
      readWait := s.bridge.readWait.filter fun a => !(a.module == h.module && a.frameTag == h.frameTag && a.fill == h.fill)
      hostReads := s.bridge.hostReads.map fun x => if sameAsker h.module h.frameTag h.fill x then { x with dead := true } else x } }

/-- What a completed read brings its asker: the bytes to the bridge's own fill, or as READ_DATA to the module that asked. -/
def readBrings (s : State) (h : HostReadSt) (ok : Bool) (data : List Byte) : State :=
  if h.module != s.myId then sendReadData s h.module true h.frameTag (if ok then data else [])
  else match h.fill with
    | none => s
    | some id =>
      if ok then fillGrows s id data
      else match s.fill? id with
        | some f => sourceFails s f .fault
        | none => s

/-- HOST_COMPLETION: the bytes go where they were asked for, and the tag is free for a read that waits; an error or a timeout fails
the fill (05 R136) and is a DMA error (14 R395). -/
def hostCompletion (tag : Nat) (ok : Bool) (data : List Byte) (s : State) : State :=
  match s.bridge.hostReads.find? fun h => h.tag == tag with
  | none => s
  | some h =>
    if !oldestRead s h || (ok && data.length != h.len) then s
    else
      let s1 := { s with bridge := { s.bridge with hostReads := s.bridge.hostReads.filter fun x => x.tag != tag } }
      let s2 := if ok then s1 else
        let b := if (Config.freeValue s1.freeIdx).toNat % 2 = 0 then aerTimeout else aerAbort
        asksEnd (setAer { s1 with freeIdx := s1.freeIdx + 1 } h.fn b) h
      issueReads 16384 (if h.dead then s2 else readBrings s2 h ok data)

def execHostCompletion (tag : Nat) (ok : Bool) (data : List Byte) (s : State) : Host.Outcome State Fault Refusal :=
  live s (hostCompletion tag ok data s)

end Sys2Proof.Machine
end

