-- ==== Sys2Proof/Machine/Links.lean ====
section
/-! DEFINITION. The link ports (14 R368 to R386): transmission with its picks and gates, replay, credits, the frames received,
routes, lanes. -/

namespace Sys2Proof.Machine

/-! ### Time gates at a count (14 R383, R384) -/

/-- Index and offset of the entry that holds position `pos` of the cycle. -/
def gateEntryAt : List W64 → Nat → Nat → Nat × Nat
  | [], _, k => (k, 0)
  | e :: r, pos, k => if pos < gateDuration e then (k, pos) else gateEntryAt r (pos - gateDuration e) (k + 1)

/-- Counts from the start of a list to its first entry in which the flow is closed. -/
def openFor (flow : Nat) : List W64 → Nat
  | [] => 0
  | e :: r => if gateOpen flow e then gateDuration e + openFor flow r else 0

/-- May a frame of the flow that occupies `occ` counts start at count `t`? -/
def gateFits (p : Port) (flow t occ : Nat) : Bool :=
  let es := activeList p
  let c := (es.map gateDuration).sum
  if !gatesHold p || es.all (gateOpen flow) then true
  else if c = 0 then false
  else
    let at_ := gateEntryAt es ((t - p.activeBase.toNat) % c) 0
    let turned := es.drop at_.1 ++ es.take at_.1
    decide (at_.2 + occ ≤ openFor flow turned)

/-! ### Transmission (14 R373, R375, R381, R382) -/

/-- Flits of a LINK_CTL message: 224 payload bytes each (14 R369; log 37). -/
def ctlFlits : LinkCtl → Nat
  | .vector v => max 1 (cdiv (4 * v.length) 224)
  | _ => 1

/-- Does the port hold credits for all flits of a frame (14 R373)? -/
def creditsHeld (p : Port) (f : Frame) : Bool :=
  decide (frameFlits f ≤ p.credits.getD (creditIdx (kindChannel f.kind) f.hops) 0)

/-- The replay buffer keeps 512 flits, none of which is lost before it is acknowledged (14 R372, R375; log 71). -/
def replayRoom (p : Port) (n : Nat) : Bool := decide (p.replay.length + n ≤ 512)

/-- Flits put into the replay buffer, numbered on from the port's LinkSeq (14 R375). -/
def numberFlits (p : Port) (what : SentWhat) (n : Nat) : Port :=
  { p with
    txSeq := p.txSeq + BitVec.ofNat 12 n
    replay := p.replay ++ (List.range n).map fun k =>
      { seq := p.txSeq + BitVec.ofNat 12 k, what, flit := k, last := k + 1 == n } }

/-- A frame leaves: its flits are numbered and kept, its credits used, and the port is occupied (14 R368, R373, R375). -/
def sendData (s : State) (i q : Nat) (f : Frame) : State :=
  let n := frameFlits f
  let ci := creditIdx (kindChannel f.kind) f.hops
  let s1 := s.modPort i fun p =>
    { numberFlits p (.data q f) n with
      credits := p.credits.set ci (p.credits.getD ci 0 - n)
      busyUntil := s.now + occupancy p n }
  if f.kind = .blaze then s1 else bump s1 .linkBytes 0 (36 * i + q) (framePayload f)

/-- The first LINK_CTL message leaves. A NAK goes in the AckSeq of any flit and takes no number (14 R369, R375). -/
def sendCtl (s : State) (i : Nat) : State :=
  s.modPort i fun p => match p.ctlQ with
    | [] => p
    | c :: rest =>
      let n := ctlFlits c
      let p1 := match c with
        | .nakMsg _ => p
        | c => numberFlits p (.ctl c) n
      { p1 with ctlQ := rest, busyUntil := s.now + occupancy p n }

/-- What waits after a NAK or a retraining is sent again, in order (14 R375, R377). -/
def sendAgain (s : State) (i : Nat) : State :=
  s.modPort i fun p => { p with resend := [], busyUntil := s.now + occupancy p p.resend.length }

/-- The head of a flow as `pick` sees it (14 R382): a tag more than 2^61 behind v is brought up to v; a frame that does not
fit its gate waits from now on (14 R384). -/
def viewHead (p : Port) (now q : Nat) (fl : Flow) : Flow :=
  match fl.queue with
  | [] => fl
  | x :: r =>
    let fin := x.finish.map fun t => if earlier t (p.v - 0x2000000000000000) then p.v else t
    let since := if gateFits p q now (occupancy p (frameFlits x.frame)) then x.gateSince else some (x.gateSince.getD now)
    { fl with queue := { x with finish := fin, gateSince := since } :: r }

/-- Flows as `pick` sees them. -/
def viewFlows (p : Port) (now : Nat) : List Flow := p.flows.mapIdx fun q fl => viewHead p now q fl

/-- Is a head frame eligible (14 R382)? -/
def portReady (p : Port) (now q : Nat) (f : Frame) : Bool :=
  creditsHeld p f && replayRoom p (frameFlits f) && gateFits p q now (occupancy p (frameFlits f))

/-- The eligible head with the earliest finish tag, the lower flow of equals (14 R382). -/
def pickFlow (p : Port) (now : Nat) (flows : List Flow) : Option (Nat × QFrame × W64) :=
  flows.zipIdx.foldl (fun best e =>
    match e.1.queue with
    | x :: _ => match x.finish with
      | some t =>
        if portReady p now e.2 x.frame && match best with
          | some b => earlier t b.2.2
          | none => true
        then some (e.2, x, t) else best
      | none => best
    | [] => best) none

/-- Channels in which a head frame lacks credits (14 R397). -/
def creditShort (p : Port) (c : Nat) : Bool :=
  let heads := p.blazeQ.take 1 ++ p.flows.filterMap fun fl => fl.queue.head?.map (·.frame)
  heads.any fun f => kindChannel f.kind == c && !creditsHeld p f

/-- LINK_CREDIT_WAIT (14 R397): counts in which a head frame of a channel waits for credits. -/
def noteCredits (s : State) (i : Nat) : State :=
  (List.range 3).foldl (fun s c =>
    let p := s.port i
    match creditShort p c, p.creditSince.getD c none with
    | true, none => s.modPort i fun p => { p with creditSince := p.creditSince.set c (some s.now) }
    | false, some t =>
      bump (s.modPort i fun p => { p with creditSince := p.creditSince.set c none }) .linkCreditWait 0 (3 * i + c) (s.now - t)
    | _, _ => s) s

/-- The frame of flow `q` with tag `t` is taken off: v follows it, idle flows follow v, and waiting frames join the tagged
part (14 R382). -/
def takeHead (s : State) (i q : Nat) (t : W64) (flows : List Flow) : State :=
  s.modPort i fun p =>
    let v := laterTag p.v t
    let p1 := { p with v }
    let fs := flows.map fun fl => if fl.queue.isEmpty && earlier fl.fLast v then { fl with fLast := v } else fl
    let fl := fs.getD q ⟨[], 0⟩
    { p1 with flows := fs.set q (Flow.tagUp p1 (flowWeight s q) { fl with queue := fl.queue.drop 1 }) }

/-- A BLAZE frame, or else the picked frame of the fair queues, is sent (14 R381). -/
def sendQueued (s0 : State) (i : Nat) : State :=
  let s := noteCredits s0 i
  let p := s.port i
  match p.blazeQ.head?.filter fun f => portReady p s.now 36 f with
  | some f => sendData (s.modPort i fun p => { p with blazeQ := p.blazeQ.drop 1 }) i 0 f
  | none =>
    let flows := viewFlows p s.now
    match pickFlow p s.now flows with
    | none => s.modPort i fun p => { p with flows }
    | some (q, x, t) =>
      let s1 := sendData (takeHead s i q t flows) i q x.frame
      match x.gateSince with
      | some g => bump s1 .linkGateWait 0 (36 * i + q) (s.now - g)
      | none => s1

/-- FRAME_TRANSMIT: an idle port sends what comes first: flits to be sent again, LINK_CTL, BLAZE, then the fair queues. A
retiring port sends LINK_CTL only (14 R377). -/
def frameTransmit (i : Nat) (s : State) : State :=
  let p := s.port i
  let up := p.state == .up
  if !(up || p.state == .retiring) || decide (s.now < p.busyUntil) then s
  else if up && !p.resend.isEmpty then sendAgain s i
  else match p.ctlQ with
    | .nakMsg _ :: _ => sendCtl s i
    | c :: _ => if replayRoom p (ctlFlits c) then sendCtl s i else s
    | [] => if up then sendQueued s i else s

def execFrameTransmit (port : Nat) (s : State) : Host.Outcome State Fault Refusal := live s (frameTransmit port s)

/-! ### Acknowledgement, replay and credits (14 R373, R375) -/

/-- The replay buffer cut after the flit that an AckSeq names: what is acknowledged, and the rest. None for a number that is
neither in the buffer nor the one before it. -/
def ackSplit (p : Port) (ack : BitVec 12) : Option (List Sent × List Sent) :=
  match p.replay.findIdx? fun x => x.seq == ack with
  | some k => some (p.replay.take (k + 1), p.replay.drop (k + 1))
  | none =>
    let first := match p.replay with
      | x :: _ => x.seq
      | [] => p.txSeq
    if ack + 1 = first then some ([], p.replay) else none

/-- The peer pair whose record a flit carries whole with it: the last flit of the last piece of a reply of this module (14 R380). -/
def ackedPair (s : State) (x : Sent) : Option Nat :=
  match x.what with
  | .data _ f =>
    let a : Nat := f.address.toNat
    if x.last && f.kind == .message && f.src == s.myId && bitsOf a 63 56 == msgReply && bitsOf a 55 32 == 0 &&
      (bitsOf a 31 0 + f.data.length == f.length.toNat) && decide (f.srcPart.toNat < 32)
    then some (64 + f.srcPart.toNat) else none
  | .ctl _ => none

/-- A peer pair's completion head advances past a record that has been acknowledged (14 R380): waiting records and commands
that waited for room go on. -/
def peerAcked (s : State) (pair : Nat) : State :=
  let p := s.pair pair
  if !p.bound || p.cplHead == p.cplTail then s
  else
    let s1 := s.modPair pair fun p => { p with cplHead := p.cplHead + 1 }
    placeAll pair (drainRecords pair (s1.pair pair).waiting.length s1)

/-- Flits up to an AckSeq are acknowledged and leave the replay buffer. -/
def takeAck (s : State) (i : Nat) (ack : BitVec 12) : State :=
  match ackSplit (s.port i) ack with
  | none => s
  | some (done, rest) =>
    let s1 := s.modPort i fun p => { p with replay := rest, resend := p.resend.filter fun x => rest.contains x }
    (done.filterMap (ackedPair s)).foldl peerAcked s1

/-- NAK: the flits after the last good one are sent again, in order; each replay is counted. -/
def nakTaken (i : Nat) (seq : BitVec 12) (s : State) : State :=
  let p := s.port i
  if p.state != .up || (ackSplit p seq).isNone then s
  else
    let s1 := takeAck s i seq
    if (s1.port i).replay.isEmpty then groupResetNow s1
    else groupResetNow (bump (s1.modPort i fun p => { p with resend := p.replay }) .linkReplay 0 i 1)

def execNak (port : Nat) (seq : BitVec 12) (s : State) : Host.Outcome State Fault Refusal := live s (nakTaken port seq s)

/-- CREDIT_RETURN: AckSeq and Credit of a flit. -/
def creditReturn (i : Nat) (ack : BitVec 12) (channel hop flits : Nat) (s : State) : State :=
  if (s.port i).state != .up then s
  else
    let s1 := takeAck s i ack
    groupResetNow (if channel < 3 ∧ hop < 8 ∧ flits < 2048 then
      let k := creditIdx channel hop
      s1.modPort i fun p => { p with credits := p.credits.set k (p.credits.getD k 0 + flits) }
    else s1)

def execCreditReturn (port : Nat) (ack : BitVec 12) (channel hopClass flits : Nat) (s : State) :
    Host.Outcome State Fault Refusal := live s (creditReturn port ack channel hopClass flits s)

/-! ### Receipt -/

/-- Active lanes of a port, ascending. -/
def activeLanes (p : Port) : List Nat := (List.range 4).filter (p.lanes.getLsbD ·)

/-- `n` flits have been received in order on a port (14 R375). -/
def received (s : State) (i n : Nat) : State :=
  s.modPort i fun p => { p with rxSeq := p.rxSeq + BitVec.ofNat 12 n, discarding := false }

/-- Is a numbered flit taken: while flits are being discarded only the awaited one (14 R375)? -/
def awaited (p : Port) (seq : BitVec 12) : Bool := !p.discarding || seq == p.rxSeq + 1

/-- A frame for another module goes on, one link further; none crosses more than 8 links (14 R369, R373, R379, R381). -/
def forward (s : State) (f : Frame) : State :=
  if 7 ≤ f.hops then bump s .linkUnroutable 0 0 1
  else routeFrame s (if kindChannel f.kind = 1 then 1 else 0) { f with hops := f.hops + 1 }

/-- A frame has come in whole on a port; while flits are being discarded only the awaited one is taken (14 R375). -/
def receive (kind : FrameKind) (i : Nat) (f : Frame) (s : State) : State :=
  let p := s.port i
  if p.state != .up || f.kind != kind || decide (20 < frameFlits f) || !awaited p f.linkSeq then s
  else
    let s1 := received s i (frameFlits f)
    if f.dest = s.myId then flowArrive s1 f else forward s1 f

def execMboxWrite (port : Nat) (f : Frame) (s : State) : Host.Outcome State Fault Refusal := live s (receive .mboxWrite port f s)
def execMboxRead (port : Nat) (f : Frame) (s : State) : Host.Outcome State Fault Refusal := live s (receive .mboxRead port f s)
def execReadData (port : Nat) (f : Frame) (s : State) : Host.Outcome State Fault Refusal := live s (receive .readData port f s)
def execPeerReq (port : Nat) (f : Frame) (s : State) : Host.Outcome State Fault Refusal := live s (receive .peerReq port f s)
def execPeerData (port : Nat) (f : Frame) (s : State) : Host.Outcome State Fault Refusal := live s (receive .peerData port f s)
def execMessage (port : Nat) (f : Frame) (s : State) : Host.Outcome State Fault Refusal := live s (receive .message port f s)
def execHostWrite (port : Nat) (f : Frame) (s : State) : Host.Outcome State Fault Refusal := live s (receive .hostWrite port f s)
def execHostRead (port : Nat) (f : Frame) (s : State) : Host.Outcome State Fault Refusal := live s (receive .hostRead port f s)

/-- A BLAZE frame whose token runs up (Dir 1) or down (Dir 2) the tree (12 R331). -/
def receiveBlaze (dir : Nat) (i : Nat) (f : Frame) (s : State) : State :=
  if fld f.data 0 1 = dir then receive .blaze i f s else s

def execBlazeUp (port : Nat) (f : Frame) (s : State) : Host.Outcome State Fault Refusal := live s (receiveBlaze 1 port f s)
def execBlazeDown (port : Nat) (f : Frame) (s : State) : Host.Outcome State Fault Refusal := live s (receiveBlaze 2 port f s)

/-! ### Routes (14 R378) -/

/-- HELLO: the neighbour's id is recorded; this module's own id holds the port DOWN. -/
def helloTaken (i : Nat) (neighbour : W16) (seq : BitVec 12) (s : State) : State :=
  if (s.port i).state != .up || !awaited (s.port i) seq then s
  else if neighbour = s.myId then routesChanged s (bump (portDown s i) .linkDupId 0 0 1)
  else routesChanged s ((received s i 1).modPort i fun p => { p with peerId := neighbour })

def execHello (link : CtlFrom) (neighbour : W16) (_theirPort _lanes : Nat) (s : State) :
    Host.Outcome State Fault Refusal := live s (helloTaken link.port neighbour link.linkSeq s)

/-- DISTANCE_VECTOR: the neighbour's link counts replace those it sent before. -/
def vectorTaken (i : Nat) (vec : List (W16 × Nat)) (seq : BitVec 12) (s : State) : State :=
  if (s.port i).state != .up || !awaited (s.port i) seq then s
  else
    let s1 := received s i (ctlFlits (.vector vec))
    routesChanged s { s1 with vectors := setKey s1.vectors i vec }

def execDistanceVector (link : CtlFrom) (vec : List (W16 × Nat)) (s : State) :
    Host.Outcome State Fault Refusal := live s (vectorTaken link.port vec link.linkSeq s)

/-- DISTANCE_VECTOR_SEND: each millisecond (log 28). A module that is to reset does so once no port in use holds its tokens. -/
def vectorSend (s : State) : State := groupResetNow (queueVectors s)

def execDistanceVectorSend (s : State) : Host.Outcome State Fault Refusal := live s (vectorSend s)

/-! ### Lanes (14 R376, R377) -/

/-- A lane of a port is retired: traffic stops and the port leaves every route set, and trains on its remaining lanes; without
one it is DOWN. The detecting end names the lane in a RETIRE. -/
def retireLane (i lane : Nat) (detecting : Bool) (s : State) : State :=
  let p := s.port i
  if !(p.state == .up || p.state == .retiring) || decide (4 ≤ lane) || !p.lanes.getLsbD lane then s
  else
    let m : BitVec 4 := BitVec.ofNat 4 (2 ^ lane)
    let s1 := degrade (setEvent (bump s .linkLaneRet 0 i 1) 2)
    let s2 := s1.modPort i fun p =>
      { p with retiredLanes := p.retiredLanes ||| m, lanes := p.lanes &&& ~~~m, state := .retiring }
    if (s2.port i).lanes = 0 then routesChanged s (portDown s2 i)
    else routesChanged s (reroutePort (if detecting then s2.modPort i fun p => { p with ctlQ := .retire lane :: p.ctlQ } else s2) i)

def execLaneRetire (port lane : Nat) (s : State) : Host.Outcome State Fault Refusal := live s (retireLane port lane true s)

/-- RETIRE: the far end names a lane. -/
def retireTaken (i lane : Nat) (seq : BitVec 12) (s : State) : State :=
  let p := s.port i
  if (p.state == .up || p.state == .retiring) && awaited p seq then retireLane i lane false (received s i 1) else s

def execRetire (link : CtlFrom) (lane : Nat) (s : State) : Host.Outcome State Fault Refusal :=
  live s (retireTaken link.port lane link.linkSeq s)

/-- An uncorrectable codeword on a lane is counted, and kept for a second (14 R374, R376). -/
def laneFails (s : State) (i k : Nat) : State :=
  (bump s .linkFecUncorr 0 (4 * i + k) 1).modPort i fun p =>
    { p with uncorr := (p.uncorr.filter fun e => decide (s.now < e.2 + 1000000000)) ++ [(k, s.now)] }

/-- FLIT_DISCARD (14 R370, R374, R375): NAK with the last good number, and later flits are discarded until the flit after it
comes again. Which lane an uncorrectable codeword lay on is a free value (log 72); a lane with more than 16 in a second is
retired (14 R376). -/
def flitDiscard (i : Nat) (uncorrectable : Bool) (s : State) : State :=
  let p := s.port i
  let nak := fun (s : State) => s.modPort i fun p => { p with discarding := true, ctlQ := p.ctlQ ++ [.nakMsg p.rxSeq] }
  if p.state != .up then s
  else if uncorrectable then
    let lanes := activeLanes p
    let k := lanes.getD ((Config.freeValue s.freeIdx).toNat % max 1 lanes.length) 0
    let s1 := nak (laneFails { s with freeIdx := s.freeIdx + 1 } i k)
    if 16 < (s1.port i).uncorr.countP (fun e => e.1 == k) then retireLane i k true s1 else s1
  else nak s

def execFlitDiscard (port : Nat) (uncorrectable : Bool) (s : State) : Host.Outcome State Fault Refusal :=
  live s (flitDiscard port uncorrectable s)

/-- The HELLO a port sends at link-up (14 R378). -/
def helloCtl (s : State) (i : Nat) (lanes : BitVec 4) : LinkCtl := .hello s.myId i (laneCount lanes)

/-- PORT_UP: a port that has trained comes UP with its lanes, fresh credits and a HELLO (14 R373, R378); one that has retrained
sends what is not acknowledged again and returns to its route sets (14 R377). -/
def portUp (i : Nat) (s : State) : State :=
  let p := s.port i
  if bit p.ctl.toNat 0 then s
  else match p.state with
    | .training =>
      let lanes := ~~~p.retiredLanes
      if lanes = 0 then s.modPort i fun p => { p with state := .down }
      else routesChanged s (s.modPort i fun p => { p with
        state := .up, lanes, credits := Port.linkUpCredits, txSeq := 0, rxSeq := 0xFFF, replay := [], resend := []
        discarding := false, peerId := 0xFFFF, ctlQ := [helloCtl s i lanes] })
    | .retiring => routesChanged s (s.modPort i fun p => { p with
        state := .up, resend := p.replay, discarding := true, ctlQ := p.ctlQ ++ [helloCtl s i p.lanes] })
    | _ => s

def execPortUp (port : Nat) (s : State) : Host.Outcome State Fault Refusal := live s (portUp port s)

end Sys2Proof.Machine
end

