-- ==== Sys2Proof/Machine/Dispatch.lean ====
section
/-! DEFINITION. One arm per row of the opcode table: the command's effect on everything but the queue. -/

namespace Sys2Proof.Machine

def exec (i : Instr) (s : State) : Host.Outcome State Fault Refusal :=
  match i with
  | .powerOn straps => Sys2Proof.Machine.execPowerOn straps s
  | .powerLoss => Sys2Proof.Machine.execPowerLoss s
  | .resetInput lowNs => Sys2Proof.Machine.execResetInput lowNs s
  | .resetRelease selfTestsPass => Sys2Proof.Machine.execResetRelease selfTestsPass s
  | .pcieDetectEnd found => Sys2Proof.Machine.execPcieDetectEnd found s
  | .moduleReady => Sys2Proof.Machine.execModuleReady s
  | .firmwareWatchdog => Sys2Proof.Machine.execFirmwareWatchdog s
  | .coreRetire core ctxs tickets => Sys2Proof.Machine.execCoreRetire core ctxs tickets s
  | .lifecycleReset => Sys2Proof.Machine.execLifecycleReset s
  | .doorbell pair value => Sys2Proof.Machine.execDoorbell pair value s
  | .fencedCommandStart pair => Sys2Proof.Machine.execFencedCommandStart pair s
  | .imgCplHeadWrite pair value => Sys2Proof.Machine.execImgCplHeadWrite pair value s
  | .pendingRecordPost pair => Sys2Proof.Machine.execPendingRecordPost pair s
  | .resultRoomWaitEnd ticket => Sys2Proof.Machine.execResultRoomWaitEnd ticket s
  | .lcCountRead high => Sys2Proof.Machine.execLcCountRead high s
  | .sbLcCountRead high nbytes => Sys2Proof.Machine.execSbLcCountRead high nbytes s
  | .pwrMeasRead nbytes => Sys2Proof.Machine.execPwrMeasRead nbytes s
  | .pwrLimitWrite value => Sys2Proof.Machine.execPwrLimitWrite value s
  | .sbModuleIdWrite value => Sys2Proof.Machine.execSbModuleIdWrite value s
  | .gateSwitchArm port value => Sys2Proof.Machine.execGateSwitchArm port value s
  | .gateSwitchCancel port value => Sys2Proof.Machine.execGateSwitchCancel port value s
  | .gateBankSwitch port => Sys2Proof.Machine.execGateBankSwitch port s
  | .flashRead => Sys2Proof.Machine.execFlashRead s
  | .flashProgram => Sys2Proof.Machine.execFlashProgram s
  | .flashErase => Sys2Proof.Machine.execFlashErase s
  | .flashOpDone deviceOk => Sys2Proof.Machine.execFlashOpDone deviceOk s
  | .registerWrite space offset value => Sys2Proof.Machine.execRegisterWrite space offset value s
  | .nop r => Sys2Proof.Machine.execNop r s
  | .resultRelease r => Sys2Proof.Machine.execResultRelease r s
  | .moduleQuery r => Sys2Proof.Machine.execModuleQuery r s
  | .healthRead r => Sys2Proof.Machine.execHealthRead r s
  | .powerSet r => Sys2Proof.Machine.execPowerSet r s
  | .partitionBind r => Sys2Proof.Machine.execPartitionBind r s
  | .partitionUnbind r => Sys2Proof.Machine.execPartitionUnbind r s
  | .partitionRebind r => Sys2Proof.Machine.execPartitionRebind r s
  | .lifecycleAdvance r readBackOk => Sys2Proof.Machine.execLifecycleAdvance r readBackOk s
  | .attestGet r => Sys2Proof.Machine.execAttestGet r s
  | .configExport r => Sys2Proof.Machine.execConfigExport r s
  | .configImport r => Sys2Proof.Machine.execConfigImport r s
  | .bridgeMap r => Sys2Proof.Machine.execBridgeMap r s
  | .serveStart r => Sys2Proof.Machine.execServeStart r s
  | .warmupEnd part => Sys2Proof.Machine.execWarmupEnd part s
  | .serveStop r => Sys2Proof.Machine.execServeStop r s
  | .partitionStatus r => Sys2Proof.Machine.execPartitionStatus r s
  | .digestRead r => Sys2Proof.Machine.execDigestRead r s
  | .partitionRecover r => Sys2Proof.Machine.execPartitionRecover r s
  | .modelSwapIn r => Sys2Proof.Machine.execModelSwapIn r s
  | .modelSwapOut r => Sys2Proof.Machine.execModelSwapOut r s
  | .indexLoad r => Sys2Proof.Machine.execIndexLoad r s
  | .indexUnload r => Sys2Proof.Machine.execIndexUnload r s
  | .tableLoad r => Sys2Proof.Machine.execTableLoad r s
  | .tokenizerLoad r => Sys2Proof.Machine.execTokenizerLoad r s
  | .grammarLoad r => Sys2Proof.Machine.execGrammarLoad r s
  | .contentUnload r => Sys2Proof.Machine.execContentUnload r s
  | .querySubmit r => Sys2Proof.Machine.execQuerySubmit r s
  | .generateSubmit r => Sys2Proof.Machine.execGenerateSubmit r s
  | .requestCancel r => Sys2Proof.Machine.execRequestCancel r s
  | .requestPause r => Sys2Proof.Machine.execRequestPause r s
  | .requestResume r => Sys2Proof.Machine.execRequestResume r s
  | .searchSubmit r => Sys2Proof.Machine.execSearchSubmit r s
  | .gatherSubmit r => Sys2Proof.Machine.execGatherSubmit r s
  | .updateSubmit r => Sys2Proof.Machine.execUpdateSubmit r s
  | .tallySubmit r => Sys2Proof.Machine.execTallySubmit r s
  | .tokenizeSubmit r => Sys2Proof.Machine.execTokenizeSubmit r s
  | .detokenizeSubmit r => Sys2Proof.Machine.execDetokenizeSubmit r s
  | .searchInsert r => Sys2Proof.Machine.execSearchInsert r s
  | .searchDelete r => Sys2Proof.Machine.execSearchDelete r s
  | .plantStart r => Sys2Proof.Machine.execPlantStart r s
  | .plantingDone part index => Sys2Proof.Machine.execPlantingDone part index s
  | .barrierJoin r => Sys2Proof.Machine.execBarrierJoin r s
  | .broadcastSend r => Sys2Proof.Machine.execBroadcastSend r s
  | .snapshotTake r => Sys2Proof.Machine.execSnapshotTake r s
  | .groupReset r => Sys2Proof.Machine.execGroupReset r s
  | .globalDeferredStart part domain => Sys2Proof.Machine.execGlobalDeferredStart part domain s
  | .loopbackSet r => Sys2Proof.Machine.execLoopbackSet r s
  | .selftestRun r => Sys2Proof.Machine.execSelftestRun r s
  | .peerSearch r => Sys2Proof.Machine.execPeerSearch r s
  | .peerFetch r => Sys2Proof.Machine.execPeerFetch r s
  | .peerGather r => Sys2Proof.Machine.execPeerGather r s
  | .peerUpdate r => Sys2Proof.Machine.execPeerUpdate r s
  | .stepForm part => Sys2Proof.Machine.execStepForm part s
  | .stepBoundary part => Sys2Proof.Machine.execStepBoundary part s
  | .changeBoundary part => Sys2Proof.Machine.execChangeBoundary part s
  | .launchFire launch => Sys2Proof.Machine.execLaunchFire launch s
  | .standTaskComplete stand => Sys2Proof.Machine.execStandTaskComplete stand s
  | .arrayResidueFault stand => Sys2Proof.Machine.execArrayResidueFault stand s
  | .taskWatchdog stand => Sys2Proof.Machine.execTaskWatchdog stand s
  | .engineSliceEnd unit finished => Sys2Proof.Machine.execEngineSliceEnd unit finished s
  | .sliceWatchdog unit => Sys2Proof.Machine.execSliceWatchdog unit s
  | .engineFault unit => Sys2Proof.Machine.execEngineFault unit s
  | .tallyFault pipe => Sys2Proof.Machine.execTallyFault pipe s
  | .sapwoodBudgetExpiry job => Sys2Proof.Machine.execSapwoodBudgetExpiry job s
  | .unitSelftestDone unit pass => Sys2Proof.Machine.execUnitSelftestDone unit pass s
  | .spareSelftestDone pass => Sys2Proof.Machine.execSpareSelftestDone pass s
  | .moveDescriptorStart launch => Sys2Proof.Machine.execMoveDescriptorStart launch s
  | .fillComplete fill data => Sys2Proof.Machine.execFillComplete fill data s
  | .fillFailed fill cause => Sys2Proof.Machine.execFillFailed fill cause s
  | .t2FillTimeout fill => Sys2Proof.Machine.execT2FillTimeout fill s
  | .landingUe segment ticket inputsSurvive => Sys2Proof.Machine.execLandingUe segment ticket inputsSurvive s
  | .segmentZeroed segment => Sys2Proof.Machine.execSegmentZeroed segment s
  | .patrolScrub page found => Sys2Proof.Machine.execPatrolScrub page found s
  | .channelRetire channel dead => Sys2Proof.Machine.execChannelRetire channel dead s
  | .channelCopyComplete channel => Sys2Proof.Machine.execChannelCopyComplete channel s
  | .cacheCountHalve part => Sys2Proof.Machine.execCacheCountHalve part s
  | .cutMainRound => Sys2Proof.Machine.execCutMainRound s
  | .cutLateRound => Sys2Proof.Machine.execCutLateRound s
  | .epochBoundary => Sys2Proof.Machine.execEpochBoundary s
  | .budgetUpdate pavg peak => Sys2Proof.Machine.execBudgetUpdate pavg peak s
  | .thermalSample temps milliVolts milliAmps coreMilliVolts => Sys2Proof.Machine.execThermalSample temps milliVolts milliAmps coreMilliVolts s
  | .hostWindowWrite fn bar offset data => Sys2Proof.Machine.execHostWindowWrite fn bar offset data s
  | .hostWindowRead fn bar offset len => Sys2Proof.Machine.execHostWindowRead fn bar offset len s
  | .relayReadTimeout tag => Sys2Proof.Machine.execRelayReadTimeout tag s
  | .functionLevelReset fn => Sys2Proof.Machine.execFunctionLevelReset fn s
  | .pcieLinkDown => Sys2Proof.Machine.execPcieLinkDown s
  | .mboxWrite port f => Sys2Proof.Machine.execMboxWrite port f s
  | .mboxRead port f => Sys2Proof.Machine.execMboxRead port f s
  | .readData port f => Sys2Proof.Machine.execReadData port f s
  | .peerReq port f => Sys2Proof.Machine.execPeerReq port f s
  | .peerData port f => Sys2Proof.Machine.execPeerData port f s
  | .message port f => Sys2Proof.Machine.execMessage port f s
  | .hostWrite port f => Sys2Proof.Machine.execHostWrite port f s
  | .hostRead port f => Sys2Proof.Machine.execHostRead port f s
  | .blazeUp port f => Sys2Proof.Machine.execBlazeUp port f s
  | .blazeDown port f => Sys2Proof.Machine.execBlazeDown port f s
  | .blazeChildTimeout part domain => Sys2Proof.Machine.execBlazeChildTimeout part domain s
  | .blazeDownTimeout part domain => Sys2Proof.Machine.execBlazeDownTimeout part domain s
  | .frameTransmit port => Sys2Proof.Machine.execFrameTransmit port s
  | .nak port seq => Sys2Proof.Machine.execNak port seq s
  | .hello link neighbour theirPort lanes => Sys2Proof.Machine.execHello link neighbour theirPort lanes s
  | .distanceVector link vec => Sys2Proof.Machine.execDistanceVector link vec s
  | .distanceVectorSend => Sys2Proof.Machine.execDistanceVectorSend s
  | .laneRetire port lane => Sys2Proof.Machine.execLaneRetire port lane s
  | .retire link lane => Sys2Proof.Machine.execRetire link lane s
  | .portUp port => Sys2Proof.Machine.execPortUp port s
  | .peerLost peer => Sys2Proof.Machine.execPeerLost peer s
  | .peerReinstated peer => Sys2Proof.Machine.execPeerReinstated peer s
  | .flitDiscard port uncorrectable => Sys2Proof.Machine.execFlitDiscard port uncorrectable s
  | .creditReturn port ack channel hopClass flits => Sys2Proof.Machine.execCreditReturn port ack channel hopClass flits s
  | .loopbackTestEnd part results => Sys2Proof.Machine.execLoopbackTestEnd part results s
  | .selftestRunEnd part failed => Sys2Proof.Machine.execSelftestRunEnd part failed s
  | .configurationSpaceWrite w => Sys2Proof.Machine.execConfigurationSpaceWrite w s
  | .pcieLinkUp gtps width => Sys2Proof.Machine.execPcieLinkUp gtps width s
  | .hostCompletion tag ok data => Sys2Proof.Machine.execHostCompletion tag ok data s
  | .setdasa addr => Sys2Proof.Machine.execSetdasa addr s

end Sys2Proof.Machine
end

