-- ==== Sys2Proof/Machine/Step.lean ====
section
/-! DEFINITION. One step of the block: the command at the front of the queue, or a count of the Launch Counter. -/

namespace Sys2Proof.Machine

/-- One step: take the front command off the queue and run it on the state with the queue's rest; on an empty queue one
count of the Launch Counter passes (12 R321; log 2). -/
def step (s : State) : Host.Outcome State Fault Refusal :=
  match s.pending with
  | [] => .next (tick s)
  | c :: rest => exec c { s with pending := rest }

/-- No row of the opcode table has bits, so a word spells no command and the state stays as it is (log 3). -/
def State.withFetchWord (s : State) (nbits w : Nat) : State :=
  match decodeTableWord nbits w with
  | some c => { s with pending := c :: s.pending }
  | none => s

end Sys2Proof.Machine
end

