-- ==== Sys2Proof/Safety.lean ====
section
/-! DEFINITION. The terms that statements about the model use: when a command is taken and accepted and what that alone
changes, the canonical form of the memories, the shape of the state, and what fuses may do. -/

namespace Sys2Proof.Machine

/-- A core mask without one core (15 R421). -/
def withoutCore (m : BitVec 8) (core : Nat) : BitVec 8 := m &&& ~~~(BitVec.ofNat 8 (2 ^ core))

/-! ### Commands of the Imger -/

/-- The command and the request that a row of the opcode table submits; none for the rows that are events. -/
def commandOf : Instr → Option (Code × Req)
  | .nop r => some (.nop, r)
  | .resultRelease r => some (.resultRelease, r)
  | .moduleQuery r => some (.moduleQuery, r)
  | .healthRead r => some (.healthRead, r)
  | .powerSet r => some (.powerSet, r)
  | .partitionBind r => some (.partitionBind, r)
  | .partitionUnbind r => some (.partitionUnbind, r)
  | .partitionRebind r => some (.partitionRebind, r)
  | .lifecycleAdvance r _ => some (.lifecycleAdvance, r)
  | .attestGet r => some (.attestGet, r)
  | .configExport r => some (.configExport, r)
  | .configImport r => some (.configImport, r)
  | .bridgeMap r => some (.bridgeMap, r)
  | .serveStart r => some (.serveStart, r)
  | .serveStop r => some (.serveStop, r)
  | .partitionStatus r => some (.partitionStatus, r)
  | .digestRead r => some (.digestRead, r)
  | .partitionRecover r => some (.partitionRecover, r)
  | .modelSwapIn r => some (.modelSwapIn, r)
  | .modelSwapOut r => some (.modelSwapOut, r)
  | .indexLoad r => some (.indexLoad, r)
  | .indexUnload r => some (.indexUnload, r)
  | .tableLoad r => some (.tableLoad, r)
  | .tokenizerLoad r => some (.tokenizerLoad, r)
  | .grammarLoad r => some (.grammarLoad, r)
  | .contentUnload r => some (.contentUnload, r)
  | .querySubmit r => some (.querySubmit, r)
  | .generateSubmit r => some (.generateSubmit, r)
  | .requestCancel r => some (.requestCancel, r)
  | .requestPause r => some (.requestPause, r)
  | .requestResume r => some (.requestResume, r)
  | .searchSubmit r => some (.searchSubmit, r)
  | .gatherSubmit r => some (.gatherSubmit, r)
  | .updateSubmit r => some (.updateSubmit, r)
  | .tallySubmit r => some (.tallySubmit, r)
  | .tokenizeSubmit r => some (.tokenizeSubmit, r)
  | .detokenizeSubmit r => some (.detokenizeSubmit, r)
  | .searchInsert r => some (.searchInsert, r)
  | .searchDelete r => some (.searchDelete, r)
  | .plantStart r => some (.plantStart, r)
  | .barrierJoin r => some (.barrierJoin, r)
  | .broadcastSend r => some (.broadcastSend, r)
  | .snapshotTake r => some (.snapshotTake, r)
  | .groupReset r => some (.groupReset, r)
  | .loopbackSet r => some (.loopbackSet, r)
  | .selftestRun r => some (.selftestRun, r)
  | .peerSearch r => some (.peerSearch, r)
  | .peerFetch r => some (.peerFetch, r)
  | .peerGather r => some (.peerGather, r)
  | .peerUpdate r => some (.peerUpdate, r)
  | _ => none

/-- The partition a command's records show (02 R40): none for commands that name none, the one its payload names for those
that bind, else the pair's. -/
def commandPart (s : State) (c : Code) (r : Req) : Option Nat :=
  match c with
  | .moduleQuery | .healthRead | .powerSet | .bridgeMap | .attestGet | .lifecycleAdvance | .configExport | .configImport => none
  | .partitionBind | .partitionUnbind | .partitionRebind => namedPart r.pay
  | _ => pairPart s r

/-- The kind, port and frame of a row by which a frame comes in on a port (14 R371); BLAZE frames are told apart by the
direction of their token. -/
def frameOf : Instr → Option (FrameKind × Nat × Frame)
  | .mboxWrite p f => some (.mboxWrite, p, f)
  | .mboxRead p f => some (.mboxRead, p, f)
  | .readData p f => some (.readData, p, f)
  | .peerReq p f => some (.peerReq, p, f)
  | .peerData p f => some (.peerData, p, f)
  | .message p f => some (.message, p, f)
  | .hostWrite p f => some (.hostWrite, p, f)
  | .hostRead p f => some (.hostRead, p, f)
  | .blazeUp p f => if fld f.data 0 1 = 1 then some (.blaze, p, f) else none
  | .blazeDown p f => if fld f.data 0 1 = 2 then some (.blaze, p, f) else none
  | _ => none

/-- A ready module takes the request: its pair is bound (02 R24; 18 R472). -/
abbrev Taken (r : Req) (s : State) : Prop :=
  s.power.railTripped = false ∧ s.isReady = true ∧ r.pair < 96 ∧ (s.pair r.pair).bound = true ∧ s.cmd? s.nextId = none

/-- It is the next of its pair (02 R38), and no fence holds it (02 R45). -/
abbrev InTurn (r : Req) (s : State) : Prop :=
  Taken r s ∧ r.hdr.seq = (s.pair r.pair).expSeq ∧
    (bit r.hdr.flags.toNat 1 = false ∨ earlierDone s r.pair s.nextId = true)

/-- It also passes the checks that all commands share: permission, header form, digest (02 R37, R51); and no re-bind of its
partition that it must wait for is pending (13 R362). -/
abbrev Accepted (c : Code) (r : Req) (s : State) : Prop :=
  InTurn r s ∧ permitted s c r = true ∧ headerForm s c r = true ∧ digestOk s r = true ∧
    (startsAfterSwitch c = false ∨ switchPending s (commandPart s c r) s.nextId = false)

/-- What taking a command changes by itself: the next ticket, the sequence number its pair expects (02 R38), and the list of
commands in progress. -/
def came (c : Code) (r : Req) (s : State) : State :=
  { s with nextId := s.nextId + 1
           pairs := s.pairs.set r.pair { s.pair r.pair with expSeq := (s.pair r.pair).expSeq + 1 }
           cmds := s.cmds ++ [mkCmd c (commandPart s c r) r s.nextId] }

/-! ### Invariants -/

/-- Every memory is in its canonical form: the Landing, T1 and SbFlashBuf read 0 where nothing is listed, flash 0xFF. -/
def MemOk (s : State) : Prop :=
  Mem.wf 0 s.landing = true ∧ Mem.wf 0 s.t1.mem = true ∧ Mem.wf 0xFF s.flash.mem = true ∧ Mem.wf 0 s.flash.buf = true

/-- As many pairs (02 R24), partitions (13), ports (14) and stands (04) as the module has. -/
def ShapeOk (s : State) : Prop :=
  s.pairs.length = 96 ∧ s.parts.length = 32 ∧ s.ports.length = 16 ∧ s.stands.length = 68

/-- Fuses only ever change from 0 to 1 (16 R431): what is blown stays blown, and the fuses that no step blows stay. -/
def FusesGain (f g : Fuses) : Prop :=
  f.uds &&& g.uds = f.uds ∧ f.rootRevoke &&& g.rootRevoke = f.rootRevoke ∧ f.secVersion ≤ g.secVersion ∧
    f.lifeCount ≤ g.lifeCount ∧
    g = { f with uds := g.uds, rootRevoke := g.rootRevoke, secVersion := g.secVersion, lifeCount := g.lifeCount }

end Sys2Proof.Machine
end

