-- ==== Sys2Proof/Certificates/Slice0/Obligations.lean ====
section
/-! DEFINITION. The statements of this model, for the provers. -/

open Sys2Proof Sys2Proof.Machine

/-! ### The queue and the step -/

/-- A step takes the command at the front of the queue and runs it on the state with the queue's rest. -/
def Obligations.StepRunsFrontCommand : Prop :=
  ∀ (c : Instr) (rest : List Instr) (s : State), s.pending = c :: rest → step s = exec c { s with pending := rest }

/-- An idle step is one count of the Launch Counter (12 R321): the launches due at the count fire first (01 R18); then the
counter, which wraps at 2 to the 64th, advances by 1, every regulator gains (13 R353), and what waits is counted; a module reset
that waited for its record (12 R342) follows. Without such a reset and with no launch nothing changes but the counter, the
regulators, counters and the model's free values. In reset or without power nothing changes at all. That an idle step is one count
is the model's choice (log 2). -/
def Obligations.IdleStepIsOneCount : Prop :=
  ∀ s : State, s.pending = [] →
    ∃ t, step s = .next t ∧
      ((s.boot.phase = .off ∨ s.boot.phase = .held ∨ s.power.railTripped = true) → t = s) ∧
      (¬(s.boot.phase = .off ∨ s.boot.phase = .held ∨ s.power.railTripped = true) →
        t = groupResetNow (countPasses (fireDue s)) ∧
        (countPasses (fireDue s)).lc = (fireDue s).lc + 1 ∧
        (s.boot.resetDue = false → s.launches = [] →
          t.lc = s.lc + 1 ∧
          t.parts = s.parts.map (fun p => { p with regs := p.regs.map Regulator.gain }) ∧
          t = { s with lc := t.lc, parts := t.parts, ctr := t.ctr, freeIdx := t.freeIdx }))

/-- Without that trip no command stops: exec answers a next state for every command in every state.

Once the core rail has been turned off by heat (15 R400) every command but the two of the supply stops with the one fault
of the model (log 8). -/
def Obligations.CommandsComplete : Prop :=
  (∀ (i : Instr) (s : State), s.power.railTripped = false → ∃ t, exec i s = .next t) ∧
  (∀ (i : Instr) (s : State), s.power.railTripped = true → (∀ straps, i ≠ .powerOn straps) → i ≠ .powerLoss →
     exec i s = .fault .nothingPromised)

/-- Registers after reset (02 R61; 18 R477; 15 R410; 14 R386): the values the spec gives. -/
def Obligations.ResetRegisters : Prop :=
  (∀ i off, 1 ≤ i → i < 96 → off ∈ [0x000, 0x004, 0x008, 0x00C, 0x010, 0x014] → slotReg State.reset i off = 0) ∧
  slotReg State.reset 0 0x010 = 0x80FF0000 ∧
  slotReg State.reset 0 0x808 = 0 ∧
  (∀ fn, page0Reg State.reset fn 0x004 = 0) ∧
  State.reset.sb.moduleId = 0xFFFF ∧ State.reset.lc = 0 ∧
  State.reset.cut.ps = 1000 ∧ State.reset.cut.b = 256 ∧ State.reset.cut.therm = .normal ∧
  (∀ p, p < 16 → (State.reset.port p).state = .down ∧ (State.reset.port p).ctl = 0) ∧
  (∀ i, i < 32 → (State.reset.part i).state = .unbound) ∧
  State.reset.pending = []

/-! ### Supply, reset and boot -/

/-- POWER_ON (18 R468, R470): everything at its reset value but fuses, flash and the model's own fields; SB_RESET_N is still
where it was, the straps are sampled, and there is no I3C address. With the input already up nothing changes.

POWER_LOSS (18 R469, R471): SB_PWRGD falls, every volatile store and register is lost, fuses and flash stay. A program or
erase operation cut off leaves the bytes of its unit free and every other byte of the flash as it was. -/
def Obligations.SupplyOnAndOff : Prop :=
  (∀ (straps : BitVec 3) (s : State),
     (s.power.inputOn = true → exec (.powerOn straps) s = .next s) ∧
     (s.power.inputOn = false → exec (.powerOn straps) s = .next
       { State.reset with
         power := { inputOn := true, pwrgd := true, railTripped := false, resetHigh := s.power.resetHigh, straps,
                    dynAddr := none }
         fuses := s.fuses
         flash := { State.reset.flash with mem := s.flash.mem }
         stands := Stand.assign s.fuses.active s.fuses.passed
         readOut := s.readOut, hostOut := s.hostOut, nextId := s.nextId, freeIdx := s.freeIdx, pending := s.pending })) ∧
  (∀ s : State,
     (s.power.inputOn = false → exec .powerLoss s = .next s) ∧
     (s.power.inputOn = true → ∃ t, exec .powerLoss s = .next t ∧
       t = { State.reset with
         power := { s.power with inputOn := false, pwrgd := false, railTripped := false, dynAddr := none }
         boot := { Boot.reset .powerOn with phase := .off }
         fuses := s.fuses
         flash := { State.reset.flash with mem := t.flash.mem }
         stands := Stand.assign s.fuses.active s.fuses.passed
         readOut := s.readOut, hostOut := s.hostOut, nextId := s.nextId, freeIdx := t.freeIdx, pending := s.pending } ∧
       ((∀ a, s.flash.op ≠ some (.program, a) ∧ s.flash.op ≠ some (.erase, a)) →
         t.flash.mem = s.flash.mem ∧ t.freeIdx = s.freeIdx) ∧
       ∀ op a n, s.flash.op = some (op, a) → (op = .program ∧ n = 4096 ∨ op = .erase ∧ n = 65536) →
         ∀ x, x < a ∨ a + n ≤ x → Mem.read 0xFF t.flash.mem x = Mem.read 0xFF s.flash.mem x))

/-- What a reset leaves (18 R470, R471, R473): every register and store at its reset value; the supply, the pins, the fuses,
the flash with its buffer and a running operation, SbModuleId and the model's own fields stay; LastReset names the cause.

The rows that reset the module: RESET_INPUT of at least 10 microseconds (18 R470), FIRMWARE_WATCHDOG while the Ranger cores
run (15 R422), LIFECYCLE_RESET 10 ms after the final record of the transition (16 R454), CORE_RETIRE when fewer than 5 cores
remain (15 R421). Shorter pulses are ignored. -/
def Obligations.Resets : Prop :=
  (∀ (s : State) (c : ResetCause), resetTo s c =
     { State.reset with
       power := s.power
       boot := Boot.reset c
       fuses := s.fuses
       flash := { s.flash with addr := 0, err := false, code := 0 }
       sb := { State.reset.sb with moduleId := s.sb.moduleId }
       stands := Stand.assign s.fuses.active s.fuses.passed
       readOut := s.readOut, hostOut := s.hostOut, nextId := s.nextId, freeIdx := s.freeIdx, pending := s.pending }) ∧
  (∀ s : State, s.power.railTripped = false →
     (∀ n, s.power.inputOn = true → s.power.pwrgd = true → 10000 ≤ n →
       exec (.resetInput n) s = .next { resetTo s .resetInput with power := { s.power with resetHigh := false } }) ∧
     (∀ n, n < 10000 → exec (.resetInput n) s = .next s) ∧
     (s.released = true → exec .firmwareWatchdog s = .next (resetTo s .watchdog)) ∧
     (∀ at_, s.sec.transition = some (some at_) → at_ + 10000000 ≤ s.now →
       exec .lifecycleReset s = .next (resetTo s .resetInput)) ∧
     ∀ core ctxs tickets, core < 8 → s.released = true → s.boot.coreMask.getLsbD core = true →
       (List.range 8).countP ((withoutCore s.boot.coreMask core).getLsbD ·) < 5 →
       exec (.coreRetire core ctxs tickets) s = .next (resetTo s .watchdog))

/-- CORE_RETIRE with at least 5 cores left (15 R421): the core leaves the mask and is counted; the requests it was updating are
replayed and the other commands it had taken end. With no request and no command in its hands nothing else changes. -/
def Obligations.CoreRetired : Prop :=
  ∀ (core : Nat) (ctxs tickets : List Nat) (s : State), s.power.railTripped = false → core < 8 → s.released = true →
    s.boot.coreMask.getLsbD core = true →
    5 ≤ (List.range 8).countP ((withoutCore s.boot.coreMask core).getLsbD ·) →
    (withoutCore s.boot.coreMask core).getLsbD core = false ∧
    (∀ k, k ≠ core → (withoutCore s.boot.coreMask core).getLsbD k = s.boot.coreMask.getLsbD k) ∧
    exec (.coreRetire core ctxs tickets) s = .next (tickets.foldl abortCommand (ctxs.foldl replayRequest
      { s with boot := { s.boot with coreMask := withoutCore s.boot.coreMask core }
               ctr := setKey s.ctr ⟨.coreRetired, 0, 0⟩ (lookupD s.ctr ⟨.coreRetired, 0, 0⟩ 0 + 1) }))

/-- RESET_RELEASE (16 R435, R437, R438; 18 R471, R472): a failed self-test keeps the module out of service; a running flash
operation is waited for; else both slots are checked: with no valid image the module is in recovery and the flash is as it
was; with one, that image runs, and firmware waits for an id or goes on to wipe. No mailbox, store or partition changes. -/
def Obligations.ResetRelease : Prop :=
  ∀ s : State, s.power.railTripped = false → s.power.inputOn = true → s.power.pwrgd = true → s.boot.phase = .held →
    exec (.resetRelease false) s = .next
      { s with power := { s.power with resetHigh := true }, boot := { s.boot with phase := .katFailed } } ∧
    (s.flash.busy = true → exec (.resetRelease true) s = .next
      { s with power := { s.power with resetHigh := true }, boot := { s.boot with phase := .booting } }) ∧
    (s.flash.busy = false → ∃ t, exec (.resetRelease true) s = .next t ∧
      t = { s with power := { s.power with resetHigh := true }, boot := t.boot, fuses := t.fuses, flash := t.flash,
                   sec := t.sec, ident := t.ident, ports := t.ports, freeIdx := t.freeIdx } ∧
      t.fuses = { s.fuses with uds := t.fuses.uds } ∧ (s.life ≠ 4 → t.fuses = s.fuses) ∧
      t.boot.checked = true ∧ t.boot.recovery = (slotCheck s false != 0 && slotCheck s true != 0) ∧
      (t.boot.recovery = true → t.boot.phase = .recovery ∧ t.flash = s.flash) ∧
      (t.boot.recovery = false →
        t.boot.imageB = (chooseSlot (slotCheck s false == 0) (slotCheck s true == 0) (failCount s false) (failCount s true)
          (slotHeader s false) (slotHeader s true)).getD false ∧
        (t.boot.phase = .waitId ∨ t.boot.phase = .wiping ∧ t.ident.moduleId ≠ 0xFFFF)))

/-- PCIE_DETECT_END (14 R387, R391): with a link the module is a bridge, ports 0 to 3 carry PCIe, and slot 0 of function 0 maps
its own pair 0; without one those ports train, but one that DISABLE holds DOWN (14 R386).

MODULE_READY (16 R436, R455; 18 R472; 05 R130): the wipe is over, the module is READY and the fail count of the image that
runs is 0. Without a configuration record the Landing and T1 are all zeros and nothing else changes but the flash and fuses. -/
def Obligations.DetectionAndReady : Prop :=
  (∀ s : State, s.power.railTripped = false → s.boot.phase = .wiping → s.boot.pcieDone = false →
     exec (.pcieDetectEnd true) s = .next { s with
       boot := { s.boot with pcieDone := true }
       ident := { s.ident with bridge := true }
       ports := s.ports.mapIdx fun i p => if i < 4 then { p with state := .pcie } else p
       bridge := { s.bridge with slots := [⟨0, 0, s.ident.moduleId.toNat, 0⟩] } } ∧
     exec (.pcieDetectEnd false) s = .next { s with
       boot := { s.boot with pcieDone := true }
       ports := s.ports.mapIdx fun i p => if i < 4 then (if p.ctl.getLsbD 0 then p else { p with state := .training }) else p }) ∧
  (∀ s : State, s.power.railTripped = false → s.boot.phase = .wiping → s.boot.pcieDone = true →
     ∃ t, exec .moduleReady s = .next t ∧ t.boot.phase = .ready ∧ failCount t t.boot.imageB = 0 ∧
       (s.sec.record = none →
         t = { s with landing := [], t1 := T1.wiped, boot := { s.boot with phase := .ready }, flash := t.flash,
                      fuses := { s.fuses with secVersion := t.fuses.secVersion, rootRevoke := t.fuses.rootRevoke } } ∧
         (∀ a, a ≠ failAddr s.boot.imageB → Mem.read 0xFF t.flash.mem a = Mem.read 0xFF s.flash.mem a) ∧
         s.fuses.secVersion ≤ t.fuses.secVersion ∧ s.fuses.rootRevoke &&& t.fuses.rootRevoke = s.fuses.rootRevoke))

/-- SB_MODULE_ID_WRITE (18 R473, R477): the id is kept; a boot that waits for one, on a module without a record, takes any id
but 0xFFFF and goes on: its ports 4 to 15 train, but for those that DISABLE holds DOWN (14 R386).

PWR_LIMIT_WRITE (15 R410): a limit of 600 to 1,200 W is taken, another value ignored, by a module whose cores run.

SETDASA (18 R474) assigns the dynamic address while the bus answers. -/
def Obligations.ModuleIdentityWrites : Prop :=
  (∀ (v : W32) (s : State), s.power.railTripped = false → s.power.inputOn = true →
     (s.boot.phase ≠ .waitId ∨ v.toNat % 2 ^ 16 = 0xFFFF →
       exec (.sbModuleIdWrite v) s = .next { s with sb := { s.sb with moduleId := w32 (v.toNat % 2 ^ 16) } }) ∧
     (s.boot.phase = .waitId → v.toNat % 2 ^ 16 ≠ 0xFFFF → storedRecord s = none →
       exec (.sbModuleIdWrite v) s = .next { s with
         sb := { s.sb with moduleId := w32 (v.toNat % 2 ^ 16) }
         sec := { s.sec with record := none }
         boot := { s.boot with phase := .wiping }
         ident := { s.ident with moduleId := w16 (v.toNat % 2 ^ 16) }
         ports := s.ports.mapIdx fun i p =>
           if 4 ≤ i then (if p.ctl.getLsbD 0 then p else { p with state := .training }) else p })) ∧
  (∀ (v : W32) (s : State), s.power.railTripped = false → s.power.inputOn = true → s.released = true →
     (600 ≤ v.toNat % 2 ^ 11 → v.toNat % 2 ^ 11 ≤ 1200 →
       exec (.pwrLimitWrite v) s = .next { s with cut := { s.cut with ps := v.toNat % 2 ^ 11 } }) ∧
     (v.toNat % 2 ^ 11 < 600 ∨ 1200 < v.toNat % 2 ^ 11 → exec (.pwrLimitWrite v) s = .next s)) ∧
  (∀ (addr : BitVec 7) (s : State), s.power.railTripped = false → s.power.inputOn = true →
     exec (.setdasa addr) s = .next { s with power := { s.power with dynAddr := some addr } })

/-! ### Registers -/

/-- Reads of LcCount (02 R63): the low word is returned and the high word latched; the high offset returns the latched word. -/
def Obligations.LcCountReads : Prop :=
  ∀ s : State, s.power.railTripped = false →
    exec (.lcCountRead false) s =
      .next { s with readOut := leBytes 4 (s.lc.toNat % 2 ^ 32), lcLatch := BitVec.ofNat 32 (s.lc.toNat / 2 ^ 32) } ∧
    exec (.lcCountRead true) s = .next { s with readOut := leBytes 4 s.lcLatch.toNat }

/-- Side-band reads with an effect (15 R410; 18 R476, R478): PEAK_W clears, and SbLcCount latches, only when all four bytes
of the word were read; outside the management domain registers read 0 until the Ranger cores run. -/
def Obligations.SideBandReads : Prop :=
  ∀ (s : State) (n : Nat), s.power.railTripped = false →
    (s.power.inputOn = true → s.released = true →
      (∀ m, 4 ≤ m → exec (.pwrMeasRead m) s = .next
        { s with readOut := leBytes 4 (pwrMeas s).toNat, cut := { s.cut with peak := 0 } }) ∧
      (n < 4 → exec (.pwrMeasRead n) s = .next { s with readOut := (leBytes 4 (pwrMeas s).toNat).take n }) ∧
      (∀ m, 4 ≤ m → exec (.sbLcCountRead false m) s = .next
        { s with readOut := leBytes 4 (s.lc.toNat % 2 ^ 32)
                 sb := { s.sb with lcLatch := BitVec.ofNat 32 (s.lc.toNat / 2 ^ 32) } }) ∧
      (n < 4 → exec (.sbLcCountRead false n) s = .next { s with readOut := (leBytes 4 (s.lc.toNat % 2 ^ 32)).take n }) ∧
      exec (.sbLcCountRead true n) s = .next { s with readOut := (leBytes 4 s.sb.lcLatch.toNat).take n }) ∧
    (s.released = false → n ≤ 4 →
      exec (.pwrMeasRead n) s = .next { s with readOut := List.replicate n 0 } ∧
      ∀ h, exec (.sbLcCountRead h n) s = .next { s with readOut := List.replicate n 0 })

/-- The gate switch (14 R385, R386): PENDING = 1 arms it, or clears PENDING and sets ERR when LinkGateBase lies less than 1,000
counts ahead, an entry has no duration or a window is too short; PENDING = 0 cancels; at LinkGateBase, after a frame in
transmission, the pending bank becomes the active one. Only the port changes. -/
def Obligations.GateSwitch : Prop :=
  ∀ (i : Nat) (v : W32) (s : State), s.power.railTripped = false → s.power.inputOn = true → s.released = true → i < 16 →
    (s.ident.bridge = false ∨ 4 ≤ i) →
    (let p := { s.port i with pendCount := BitVec.ofNat 6 (bitsOf v.toNat 13 8)
                              gateErr := (s.port i).gateErr && !bit v.toNat 29 }
     exec (.gateSwitchCancel i v) s = .next { s with ports := s.ports.set i { p with pending := false } } ∧
     (switchOk s p = true → exec (.gateSwitchArm i v) s = .next { s with ports := s.ports.set i { p with pending := true } }) ∧
     (switchOk s p = false → exec (.gateSwitchArm i v) s =
        .next { s with ports := s.ports.set i { p with pending := false, gateErr := true } }) ∧
     (p.gateBase.toNat < s.now + 1000 → switchOk s p = false)) ∧
    ((s.port i).pending = true → (s.port i).gateBase.toNat ≤ s.now → (s.port i).busyUntil ≤ s.now →
      exec (.gateBankSwitch i) s = .next { s with ports := (s.ports.set i
        { s.port i with pending := false, activeBank := !(s.port i).activeBank, actCount := (s.port i).pendCount
                        activeBase := (s.port i).gateBase, gated := true }) }) ∧
    ((s.port i).pending = false → exec (.gateBankSwitch i) s = .next s)

/-- FLASH_READ, FLASH_PROGRAM and FLASH_ERASE (18 R479): the operation starts and BUSY is set, or the lowest error code that
applies is shown: 1 for a write to the protected area, 2 while busy, 3 for a misaligned address.

FLASH_OP_DONE (18 R477, R479): a read fills SbFlashBuf; a program clears bits of its 4 KiB and an erase sets those of its
64 KiB, and every other byte stays; a failed operation shows code 4. BUSY clears. Of a failed or disturbed write the bytes of the
unit are free. -/
def Obligations.FlashOperations : Prop :=
  (∀ s : State, s.power.railTripped = false → s.power.inputOn = true →
     (let start := fun (op : FlashOp) => Host.Outcome.next (φ := Fault) (ρ := Refusal)
         { s with flash := { s.flash with busy := true, op := some (op, s.flash.addr.toNat), tainted := false } }
      let error := fun (n : BitVec 4) => Host.Outcome.next (φ := Fault) (ρ := Refusal)
         { s with flash := { s.flash with err := true, code := n } }
      let a := s.flash.addr.toNat
      (s.flash.busy = false → a % 4096 = 0 → exec .flashRead s = start .read) ∧
      (s.flash.busy = false → a % 4096 = 0 → a < 0x0F000000 → exec .flashProgram s = start .program) ∧
      (s.flash.busy = false → a % 65536 = 0 → a < 0x0F000000 → exec .flashErase s = start .erase) ∧
      (0x0F000000 ≤ a → exec .flashProgram s = error 1 ∧ exec .flashErase s = error 1) ∧
      (s.flash.busy = true → exec .flashRead s = error 2) ∧
      (s.flash.busy = true → a < 0x0F000000 → exec .flashProgram s = error 2 ∧ exec .flashErase s = error 2) ∧
      (s.flash.busy = false → a % 4096 ≠ 0 → exec .flashRead s = error 3) ∧
      (s.flash.busy = false → a < 0x0F000000 → a % 4096 ≠ 0 → exec .flashProgram s = error 3) ∧
      (s.flash.busy = false → a < 0x0F000000 → a % 65536 ≠ 0 → exec .flashErase s = error 3))) ∧
  (∀ (s : State) (op : FlashOp) (a : Nat) (ok : Bool), s.power.railTripped = false → s.flash.op = some (op, a) →
     s.boot.phase ≠ .booting → Mem.wf 0xFF s.flash.mem = true → Mem.wf 0 s.flash.buf = true →
     ∃ t, exec (.flashOpDone ok) s = .next t ∧
       t = { s with flash := { s.flash with
               mem := t.flash.mem, buf := t.flash.buf, busy := false, op := none, tainted := false
               err := s.flash.err || !ok, code := if ok then 0 else 4 }
                    freeIdx := t.freeIdx } ∧
       (op ≠ .read ∨ ok = false → t.flash.buf = s.flash.buf) ∧
       (op = .read → t.flash.mem = s.flash.mem) ∧
       (op = .read → ok = true → ∀ k, k < 4096 → Mem.read 0 t.flash.buf k = Mem.read 0xFF s.flash.mem (a + k)) ∧
       (∀ x, x < a ∨ a + (if op = .erase then 65536 else 4096) ≤ x → Mem.read 0xFF t.flash.mem x = Mem.read 0xFF s.flash.mem x) ∧
       (op = .program → ok = true → s.flash.tainted = false → ∀ k, k < 4096 →
         Mem.read 0xFF t.flash.mem (a + k) = Mem.read 0xFF s.flash.mem (a + k) &&& Mem.read 0 s.flash.buf k) ∧
       (op = .erase → ok = true → ∀ k, k < 65536 → Mem.read 0xFF t.flash.mem (a + k) = 0xFF))

/-- REGISTER_WRITE (02 R61; 14 R386; 18 R476, R477): write-1-to-clear bits clear, read-write fields take their value, the low
word of a 64-bit register is held until the high word is written, and any other offset changes nothing. -/
def Obligations.RegisterWrites : Prop :=
  ∀ (s : State) (v : W32), s.power.railTripped = false → s.power.inputOn = true →
    (s.released = true →
      (∀ pair, exec (.registerWrite (.slot pair) 0x808 v) s =
        .next { s with ident := { s.ident with events := s.ident.events &&& ~~~(v.setWidth 4) } }) ∧
      (∀ pair, exec (.registerWrite (.slot pair) 0x010 v) s = .next { s with pairs := (s.pairs.set pair
        { s.pair pair with unboundWr := (s.pair pair).unboundWr && !bit v.toNat 0
                           tailErr := (s.pair pair).tailErr && !bit v.toNat 1
                           headErr := (s.pair pair).headErr && !bit v.toNat 2 }) }) ∧
      (∀ pair off, off ∈ [0x008, 0x00C, 0x014, 0x018, 0x800, 0x804, 0x810, 0x814] →
        exec (.registerWrite (.slot pair) off v) s = .next s) ∧
      (∀ pair, exec (.registerWrite (.slot pair) 0x000 v) s = exec (.doorbell pair v) s ∧
        exec (.registerWrite (.slot pair) 0x004 v) s = exec (.imgCplHeadWrite pair v) s) ∧
      (∀ p, p < 16 → (s.ident.bridge = false ∨ 4 ≤ p) →
        exec (.registerWrite .sideband (0x410 + 0x20 * p) v) s = .next
          { s with sb := { s.sb with heldLow := setKey s.sb.heldLow (0x410 + 0x20 * p) v } } ∧
        exec (.registerWrite .sideband (0x414 + 0x20 * p) v) s = .next
          { s with ports := s.ports.set p { s.port p with gateBase := v ++ lookupD s.sb.heldLow (0x410 + 0x20 * p) 0 } })) ∧
    (∀ fn, exec (.registerWrite (.page0 fn) 0x004 v) s = .next (if bit v.toNat 0
      then { s with bridge := { s.bridge with winErr := s.bridge.winErr.filter (· != fn) } } else s)) ∧
    exec (.registerWrite .sideband 0x0104 v) s = .next { s with flash := { s.flash with addr := w32 (v.toNat % 2 ^ 28) } } ∧
    exec (.registerWrite .sideband 0x0108 v) s = .next { s with flash := { s.flash with err := s.flash.err && !bit v.toNat 30 } } ∧
    exec (.registerWrite .sideband 0x0008 v) s = exec (.sbModuleIdWrite v) s ∧
    exec (.registerWrite .sideband 0x0100 1) s = exec .flashRead s ∧
    exec (.registerWrite .sideband 0x0000 v) s = .next s

/-! ### Rings and records -/

/-- Writes to ImgReqTail and ImgCplHead that are ignored (02 R36, R62): a tail more than a ring ahead of ImgReqHead or behind
the previous tail sets TAIL_ERR, a head that would pass ImgCplTail sets HEAD_ERR, and on a pair that is not bound either write
sets UNBOUND_WR alone. Nothing else changes. -/
def Obligations.IgnoredIndexWrites : Prop :=
  ∀ (i : Nat) (v : W32) (s : State), s.power.railTripped = false → i < 64 →
    ((s.pair i).bound = false →
      exec (.doorbell i v) s = .next { s with pairs := s.pairs.set i { s.pair i with unboundWr := true } } ∧
      exec (.imgCplHeadWrite i v) s = .next { s with pairs := s.pairs.set i { s.pair i with unboundWr := true } }) ∧
    ((s.pair i).bound = true →
      (2 ^ (s.pair i).geom.reqLog2 < ((v.setWidth 16 : W16) - (s.pair i).reqHead).toNat ∨
          ((v.setWidth 16 : W16) - (s.pair i).reqHead).toNat < ((s.pair i).reqTail - (s.pair i).reqHead).toNat →
        exec (.doorbell i v) s = .next { s with pairs := s.pairs.set i { s.pair i with tailErr := true } }) ∧
      (((s.pair i).cplTail - (s.pair i).cplHead).toNat < ((v.setWidth 16 : W16) - (s.pair i).cplHead).toNat →
        exec (.imgCplHeadWrite i v) s = .next { s with pairs := s.pairs.set i { s.pair i with headErr := true } }))

/-- A doorbell and a completion head that are taken (02 R35, R43, R62): the head frees the slots it passes and changes nothing
else; the tail is kept, and the requests up to it are taken in index order, from READY on. -/
def Obligations.IndexWritesTaken : Prop :=
  ∀ (i : Nat) (v : W32) (s : State), s.power.railTripped = false → i < 64 → (s.pair i).bound = true →
    (((v.setWidth 16 : W16) - (s.pair i).cplHead).toNat ≤ ((s.pair i).cplTail - (s.pair i).cplHead).toNat →
      exec (.imgCplHeadWrite i v) s = .next { s with pairs := s.pairs.set i { s.pair i with cplHead := v.setWidth 16 } }) ∧
    (((v.setWidth 16 : W16) - (s.pair i).reqHead).toNat ≤ 2 ^ (s.pair i).geom.reqLog2 →
      ((s.pair i).reqTail - (s.pair i).reqHead).toNat ≤ ((v.setWidth 16 : W16) - (s.pair i).reqHead).toNat →
      (let s1 := { s with pairs := s.pairs.set i { s.pair i with reqTail := v.setWidth 16 } }
       exec (.doorbell i v) s = .next (takeRing i (2 ^ (s.pair i).geom.reqLog2) s1) ∧
       (s.isReady = false → exec (.doorbell i v) s = .next s1))) ∧
    ∀ n, takeRing i (n + 1) s =
      if s.isReady = true ∧ (s.pair i).reqHead ≠ (s.pair i).reqTail then
        takeRing i n (takeRequest (requestAt s i (s.pair i).reqHead).1 (requestAt s i (s.pair i).reqHead).2
          { s with pairs := s.pairs.set i { s.pair i with reqHead := (s.pair i).reqHead + 1 } })
      else s

/-- A completion record has the layout of 02 R40 and the phase of R41.

Posting a record (02 R41, R42, R46): with room in the ring and none waiting, its 32 bytes are written in the slot of
ImgCplTail, which advances; with a full ring it is kept behind the others; on a pair that is not bound nothing happens. Shown
for a record of a command that moves no result, no request and no interrupt. Its bytes count as CTRL accesses (01 R16). -/
def Obligations.RecordsPosted : Prop :=
  (∀ (r : Record) (idx : W16) (g : Nat),
     (recordBytes r idx g).length = 32 ∧
     fld (recordBytes r idx g) 0 4 = r.seq.toNat ∧
     fld (recordBytes r idx g) 4 2 = r.status.code ∧
     fld (recordBytes r idx g) 6 1 = r.reason.code ∧
     fld (recordBytes r idx g) 7 1 = boolNat r.more + 2 * boolNat r.handle.isSome ∧
     fld (recordBytes r idx g) 8 2 = (r.context.getD 0xFFFF) % 65536 ∧
     fld (recordBytes r idx g) 0x0A 1 = r.partState.code ∧
     fld (recordBytes r idx g) 0x0B 1 = (partByte r.partition).toNat ∧
     fld (recordBytes r idx g) 0x0C 4 = (r.handle.getD 0).toNat ∧
     fld (recordBytes r idx g) 0x10 4 = r.resOffset % 2 ^ 32 ∧
     fld (recordBytes r idx g) 0x14 4 = r.resLength % 2 ^ 32 ∧
     fld (recordBytes r idx g) 0x18 4 = r.detail.toNat ∧
     fld (recordBytes r idx g) 0x1C 4 = (if idx.toNat / 2 ^ g % 2 = 0 then 2 ^ 31 else 0) + idx.toNat) ∧
  (∀ (s : State) (i : Nat) (r : Record), r.handle = none → r.owner = none → r.irq = false → r.dest = none →
     ((s.pair i).bound = false → post s i r = s) ∧
     ((s.pair i).bound = true → ((s.pair i).waiting ≠ [] ∨ cplFull (s.pair i) = true) →
       post s i r = { s with pairs := s.pairs.set i { s.pair i with waiting := (s.pair i).waiting ++ [r] } }) ∧
     ((s.pair i).bound = true → (s.pair i).waiting = [] → cplFull (s.pair i) = false →
       post s i r = { s with
         landing := regionWrite s.landing (s.pair i).segs (0x20000 + 32 * ((s.pair i).cplTail.toNat % 2 ^ (s.pair i).geom.cplLog2))
           (recordBytes r (s.pair i).cplTail (s.pair i).geom.cplLog2)
         pairs := s.pairs.set i { s.pair i with cplTail := (s.pair i).cplTail + 1 }
         ctr := match (s.pair i).part with
           | some k => (bump s .landingBytes k 0 32).ctr
           | none => s.ctr }))

/-- The events of the rings (02 R45 to R47): a waiting record is written once the ring has room, one still without room stays;
the oldest command held by FENCE starts once every earlier command of its pair has posted its final record; the oldest command
that waits for result room posts its payload once the region has room. -/
def Obligations.RingEvents : Prop :=
  ∀ (i : Nat) (s : State), s.power.railTripped = false →
    (∀ r, (s.pair i).waiting = [r] → cplFull (s.pair i) = false →
      exec (.pendingRecordPost i) s =
        .next (writeRecord { s with pairs := s.pairs.set i { s.pair i with waiting := [] } } i r)) ∧
    ((s.pair i).waiting = [] ∨ cplFull (s.pair i) = true → exec (.pendingRecordPost i) s = .next s) ∧
    (∀ t c r rest, (s.pair i).fenced = (t, c, r) :: rest →
      exec (.fencedCommandStart i) s = .next (if earlierDone s i t = true
        then startCode c r t { s with pairs := s.pairs.set i { s.pair i with fenced := rest } } else s)) ∧
    (∀ t c st d bs h off s1, s.cmd? t = some c → c.pair < 64 → c.roomWait = some (st, d, bs) →
      (roomWaiters s c.pair).head?.map (·.ticket) = some t →
      allocResult s c.pair bs.length true = some (h, off, s1) → bs.length ≤ resBytes (s.pair c.pair) →
      exec (.resultRoomWaitEnd t) s = .next ((post (writeResult s1 c.pair off bs) c.pair
        { mkRecord s c.seq c.irq c.part st (c.detail st d) t with
          context := c.ctx, handle := some h, resOffset := off, resLength := bs.length }).endCmd c st))

/-! ### Commands: what all of them share -/

/-- How a command is taken (02 R24, R38, R45): one with the wrong sequence number is answered with ST_SEQUENCE and the number
that was expected, which stays; before READY and on a pair that is not bound nothing is taken; FENCE holds a command while an
earlier one of its pair has no final record. -/
def Obligations.CommandsTaken : Prop :=
  ∀ (i : Instr) (c : Code) (r : Req) (s : State), commandOf i = some (c, r) → s.power.railTripped = false →
    ((s.isReady = false ∨ (s.pair r.pair).bound = false ∨ 96 ≤ r.pair) → exec i s = .next s) ∧
    (Taken r s → r.hdr.seq ≠ (s.pair r.pair).expSeq →
      exec i s = .next ((post { s with nextId := s.nextId + 1 } r.pair
        { mkRecord s r.hdr.seq (bit r.hdr.flags.toNat 0) (s.pair r.pair).part .sequence (s.pair r.pair).expSeq s.nextId with
          dest := if 64 ≤ r.pair then some (r.src, r.tag) else none }).countGlobal c (s.pair r.pair).part .sequence)) ∧
    (Taken r s → r.hdr.seq = (s.pair r.pair).expSeq → bit r.hdr.flags.toNat 1 = true →
      earlierDone s r.pair s.nextId = false →
      exec i s = .next { s with
        nextId := s.nextId + 1
        pairs := s.pairs.set r.pair { s.pair r.pair with
          expSeq := (s.pair r.pair).expSeq + 1
          fenced := (s.pair r.pair).fenced ++ [(s.nextId, c, r)] } })

/-- The first checks of 02 R51 on every command: one that is not permitted ends with ST_DENIED, one whose header or payload
place is malformed with ST_INVALID; both have Detail 0, or a global command's Epoch (12 R333), and no other effect.

Checks in the order of 02 R51: the first that fails gives the status, and with it the command has no effect but its final
record; a command that passes all runs, or waits behind a re-bind that was taken before it (13 R362). -/
def Obligations.ChecksInOrder : Prop :=
  (∀ (i : Instr) (c : Code) (r : Req) (s : State), commandOf i = some (c, r) → InTurn r s →
     (permitted s c r = false → exec i s = .next (finishPlain (came c r s) s.nextId .denied 0)) ∧
     (permitted s c r = true → headerForm s c r = false → exec i s = .next (finishPlain (came c r s) s.nextId .invalid 0))) ∧
  (∀ (c : Code) (part : Option Nat) (n : Need) (eff : Nat → State → State) (r : Req) (t : Nat) (s : State), s.cmd? t = none →
     let s1 := { s with cmds := s.cmds ++ [mkCmd c part r t] }
     let run := runCmd c part n eff r t s
     (permitted s c r = false → run = finishPlain s1 t .denied 0) ∧
     (permitted s c r = true →
       ((headerForm s c r = false ∨ n.form = false) → run = finishPlain s1 t .invalid 0) ∧
       (headerForm s c r = true → n.form = true →
         (∀ p, digestOk s r = false → (s.pair r.pair).part = some p →
           run = finishPlain s1 t .digestMismatch ((s.part p).digest.toNat % 2 ^ 32)) ∧
         (digestOk s r = true →
           (n.state = false → run = finishPlain s1 t .wrongState n.stateDetail) ∧
           (n.state = true → n.found = false → run = finishPlain s1 t .notFound 0) ∧
           (n.state = true → n.found = true →
             (∀ st, n.room = some st → run = finishPlain s1 t st n.detail) ∧
             (n.room = none → run = if startsAfterSwitch c && switchPending s part t then s1 else eff t s1))))))

/-- The final record of a command (02 R40, R44, R47, R50): with the sequence number, context and partition state of the
command, its status and Detail; a result lies in a payload of the pair's result region, or goes with the record on a peer
pair; one that cannot fit the region at all is ST_NO_SPACE, and one that has no room now waits. The command is then over.

A result payload (02 R47): it lies on a multiple of 64 bytes inside the result region, clear of every live payload, and its
handle is none that a live payload has. Which free place and handle is the model's choice (log 18). -/
def Obligations.FinalRecords : Prop :=
  (∀ (s : State) (t : Nat) (st : Status) (d : W32) (c : Cmd), s.cmd? t = some c →
     let r := { mkRecord s c.seq c.irq c.part st (c.detail st d) t with context := c.ctx }
     (c.pair < 64 → finish s t st d none = (post s c.pair r).endCmd c st) ∧
     (64 ≤ c.pair → finish s t st d none = (post s c.pair { r with dest := some (c.src, c.tag) }).endCmd c st ∧
       ∀ bs, finish s t st d (some bs) =
         (post (s.replied c bs) c.pair
           { r with dest := some (c.src, c.tag), data := bs, resLength := bs.length }).endCmd c st) ∧
     ∀ bs, c.pair < 64 →
       (resBytes (s.pair c.pair) < bs.length →
         finish s t st d (some bs) =
           (post s c.pair { r with status := .noSpace, detail := c.detail .noSpace 0 }).endCmd c .noSpace) ∧
       (bs.length ≤ resBytes (s.pair c.pair) →
         (∀ h off s1, allocResult s c.pair bs.length true = some (h, off, s1) →
           finish s t st d (some bs) = (post (writeResult s1 c.pair off bs) c.pair
             { r with handle := some h, resOffset := off, resLength := bs.length }).endCmd c st) ∧
         (allocResult s c.pair bs.length true = none →
           finish s t st d (some bs) = s.modCmd t fun c => { c with roomWait := some (st, d, bs) }))) ∧
  (∀ (s s1 : State) (i len off : Nat) (final : Bool) (h : W32), allocResult s i len final = some (h, off, s1) →
     off % 64 = 0 ∧ off + len ≤ resBytes (s.pair i) ∧
     (∀ x ∈ (s.pair i).results, x.off + x.len ≤ off ∨ off + max len 1 ≤ x.off ∨ x.len = 0) ∧
     ((s.pair i).results.length < 65536 → ∀ x ∈ (s.pair i).results, x.handle ≠ h) ∧
     ∃ gens, s1 = { s with pairs := s.pairs.set i { s.pair i with
       results := (s.pair i).results ++ [⟨h, off, max len 1, final⟩], gens } })

/-! ### Commands: mailbox, module, security -/

/-- NOP and RESULT_RELEASE (02 R48, R49, R57): NOP only completes; the release frees the named payloads, all or, when a handle
names none, not one of them, and Detail is their number.

MODULE_QUERY, HEALTH_READ, PARTITION_STATUS and DIGEST_READ (13 R363, R364; 15 R411, R412) answer with their blocks and
change nothing, but HEALTH_READ starts PowerPeakW again. That the Detail of HEALTH_READ reads 0 is the model's choice (log 51). -/
def Obligations.MailboxAndQueries : Prop :=
  (∀ (r : Req) (s : State),
     (Accepted .nop r s → r.pay = [] → pairUsable s r = true →
       exec (.nop r) s = .next (finishPlain (came .nop r s) s.nextId .ok 0)) ∧
     (Accepted .resultRelease r s → releaseForm r = true → pairUsable s r = true →
       noneUnfinished (releaseHandles r) (s.pair r.pair).results = true →
       (allLive (releaseHandles r) (s.pair r.pair).results = true →
         exec (.resultRelease r) s = .next (finishPlain
           { came .resultRelease r s with pairs := s.pairs.set r.pair { s.pair r.pair with
               expSeq := (s.pair r.pair).expSeq + 1
               results := (s.pair r.pair).results.filter fun x => !(releaseHandles r).contains x.handle } }
           s.nextId .ok (releaseHandles r).length)) ∧
       (allLive (releaseHandles r) (s.pair r.pair).results = false →
         exec (.resultRelease r) s = .next (finishPlain (came .resultRelease r s) s.nextId .notFound 0)))) ∧
  (∀ (r : Req) (s : State),
     (Accepted .moduleQuery r s → r.pay = [] → exec (.moduleQuery r) s = .next
       (finish (came .moduleQuery r s) s.nextId .ok (w32 (activeStands s)) (some (moduleQueryBytes s)))) ∧
     (Accepted .healthRead r s → 8 ≤ r.pay.length → zeroAt r.pay 1 7 = true → (fld r.pay 0 1 < 32 ∨ fld r.pay 0 1 = 0xFF) →
       exec (.healthRead r) s = .next (finish { came .healthRead r s with cut := { s.cut with peakHr := 0 } } s.nextId .ok 0
         (some (healthBytes s (fld r.pay 0 1))))) ∧
     (Accepted .partitionStatus r s → r.pay = [] → (reqPart s r).state ≠ .unbound → exec (.partitionStatus r) s = .next
       (finish (came .partitionStatus r s) s.nextId .ok ((reqPart s r).digest.setWidth 32) (some (statusBytes s (reqPid s r))))) ∧
     (Accepted .digestRead r s → r.pay = [] → (reqPart s r).state ≠ .unbound → exec (.digestRead r) s = .next
       (finish (came .digestRead r s) s.nextId .ok ((reqPart s r).digest.setWidth 32)
         (some (leBytes 8 (reqPart s r).digest.toNat)))))

/-- POWER_SET and BRIDGE_MAP (14 R391; 15 R409): the sustained limit is set, the caps only where SET_CAPS asks; the entries are
applied in order and give the mapping and RELAY_WEIGHT; more than 512 slots are ST_NO_SPACE and change nothing.

ATTEST_GET, CONFIG_EXPORT and CONFIG_IMPORT (16 R444 to R449, R458 to R460): a report or an export takes one alias leaf,
is refused without an alias record (ST_AUTH) or a leaf (ST_NO_SPACE), and changes nothing else; a chain changes nothing; an
(log 10). -/
def Obligations.SettingsAndSecurity : Prop :=
  (∀ (r : Req) (s : State),
     (Accepted .powerSet r s → powerSetForm r.pay = true → exec (.powerSet r) s = .next (finishPlain
       { came .powerSet r s with cut := { s.cut with
           ps := fld r.pay 0 2, caps := if bit (fld r.pay 2 2) 0 = true then capsAt r.pay 8 else s.cut.caps } }
       s.nextId .ok s.cut.b)) ∧
     (Accepted .bridgeMap r s → bridgeMapForm s r.pay = true →
       (let m := applyMap s.bridge.slots (mapEntries r.pay)
        (m.length ≤ 512 → exec (.bridgeMap r) s = .next (finishPlain
           { came .bridgeMap r s with bridge := { s.bridge with slots := m, relayWeight := fld r.pay 2 2 } }
           s.nextId .ok m.length)) ∧
        (512 < m.length → exec (.bridgeMap r) s = .next (finishPlain (came .bridgeMap r s) s.nextId .noSpace 0))))) ∧
  (∀ (r : Req) (s : State),
     (Accepted .attestGet r s → attestForm r.pay = true →
       (∀ q, s.sec.leaf = some q → fld r.pay 0 1 = 2 → exec (.attestGet r) s = .next
         (finish (came .attestGet r s) s.nextId .ok (w32 (chainBytes s q).length) (some (chainBytes s q)))) ∧
       (s.sec.leaf.isSome = true → fld r.pay 0 1 = 1 → s.sec.aliasLeaf < 32768 →
         let bs := aliasSigned s (reportHead s r.pay)
         exec (.attestGet r) s = .next (finish
           { came .attestGet r s with sec := { s.sec with aliasLeaf := s.sec.aliasLeaf + 1 } } s.nextId .ok (w32 bs.length) (some bs))) ∧
       (s.sec.leaf.isSome = true → fld r.pay 0 1 = 1 → 32768 ≤ s.sec.aliasLeaf →
         exec (.attestGet r) s = .next (finishPlain (came .attestGet r s) s.nextId .noSpace 0)) ∧
       (s.sec.leaf = none → fld r.pay 0 1 ≠ 0 →
         exec (.attestGet r) s = .next (finishPlain (came .attestGet r s) s.nextId .auth 0)) ∧
       (fld r.pay 0 1 = 0 → s.sec.aliasLeaf < 32768 → ∃ bs st used, exec (.attestGet r) s = .next (finish
         { came .attestGet r s with sec := { s.sec with
             spdm := setKey s.sec.spdm r.pair st, aliasLeaf := s.sec.aliasLeaf + boolNat used } }
         s.nextId .ok (w32 bs.length) (some bs)))) ∧
     (Accepted .configExport r s → 48 ≤ r.pay.length → allUnbound s = true → ∀ rec_, storedRecord s = some rec_ →
       (∀ q, s.sec.leaf = some q → s.sec.aliasLeaf < 32768 → exec (.configExport r) s = .next (finish
         { came .configExport r s with sec := { s.sec with aliasLeaf := s.sec.aliasLeaf + 1 } } s.nextId .ok 0
         (some (exportBytes s rec_ (bytesAt r.pay 0 48) q)))) ∧
       (s.sec.leaf = none → exec (.configExport r) s = .next (finishPlain (came .configExport r s) s.nextId .auth 0))) ∧
     (Accepted .configImport r s → allUnbound s = true → 16 ≤ r.pay.length → zeroAt r.pay 1 3 = true →
       fld r.pay 8 4 % 8 = 0 → zeroAt r.pay 12 4 = true → fld r.pay 8 4 + fld r.pay 4 4 ≤ r.pay.length →
       let l := r.pay
       (fld l 0 1 = 0 → recordForm (importData l) = true → exec (.configImport r) s = .next
         (finishPlain (storeRecord (came .configImport r s) (importData l)) s.nextId .ok (importData l).length)) ∧
       (fld l 0 1 = 1 → packageForm (importData l) = true → exec (.configImport r) s = .next
         (if packageHolds s (importData l) = true then
           finishPlain (storeRecord (came .configImport r s) (packageRecord (importData l))) s.nextId .ok
             (packageRecord (importData l)).length
         else finishPlain (came .configImport r s) s.nextId .auth 0))))

/-- LIFECYCLE_ADVANCE (16 R451 to R454): a transition that its authority permits raises the count, to 16 for SCRAP, which also
blows every bit of the device secret; the reset is due from then on. A vendor's transition without a token that holds is
ST_AUTH and changes nothing. When the fuses do not read back the count lies between the old and the new value (log 49) and the
module takes no further commands but resets. -/
def Obligations.LifecycleTransition : Prop :=
  ∀ (r : Req) (s : State) (vendor : Bool), Accepted .lifecycleAdvance r s →
    let target := fld r.pay 0 1
    let tk := bytesAt r.pay 8 (fld r.pay 4 4)
    8 ≤ r.pay.length → target < 5 → zeroAt r.pay 1 3 = true → 8 + fld r.pay 4 4 ≤ r.pay.length → allUnbound s = true →
    transitionOf s.life s.fuses.lifeCount target = some vendor →
    (if vendor = true then tokenForm s.life tk = true else fld r.pay 4 4 = 0) →
    let u := transitionRecords (came .lifecycleAdvance r s) target tk
    u = { came .lifecycleAdvance r s with flash := { s.flash with mem := u.flash.mem } } ∧
    (vendor = true ∧ tokenHolds s target tk = false → ∀ ok,
      exec (.lifecycleAdvance r ok) s = .next (finishPlain (came .lifecycleAdvance r s) s.nextId .auth 0)) ∧
    ((vendor = true → tokenHolds s target tk = true) →
      exec (.lifecycleAdvance r true) s = .next (finishPlain
        { u with
          fuses := { s.fuses with lifeCount := newCount s target
                                  uds := if target = 4 then BitVec.allOnes 384 else s.fuses.uds }
          sec := { s.sec with transition := some (some s.now) } } s.nextId .ok target) ∧
      (s.fuses.lifeCount ≤ 16 → ∃ k, s.fuses.lifeCount ≤ k ∧ k ≤ newCount s target ∧ exec (.lifecycleAdvance r false) s = .next
        (finishPlain
          { u with
            fuses := { s.fuses with lifeCount := k }
            freeIdx := s.freeIdx + 1
            sec := { s.sec with transition := some none } } s.nextId .fault 0)))

/-! ### Commands: partitions and service -/

/-- PARTITION_BIND (13 R346 to R351; 05 R129): the partition takes the lowest free stands, and for each of its segments and
frames one that is free, with the same residue modulo 6 and 8, and the digest is formed; while a segment is still being zeroed
nothing more happens and the record waits. Then its named pairs and its peer pair are bound to it, the other pairs as they were;
Detail is the number of stands.

PARTITION_UNBIND (13 R356; 05 R129): the partition is UNBOUND and nothing of it is left: its other commands and its requests
are abandoned without records, its pairs are not bound, its stands are free, its segments read zero and are being zeroed. Other
partitions and pairs are as they were. -/
def Obligations.BindAndUnbind : Prop :=
  (∀ (r : Req) (s : State), Accepted .partitionBind r s → bindForm r.pay false = true →
     (s.part (bindParse r.pay).part).state = .unbound → bindRoom s (bindParse r.pay) = (none, 0) → s.parts.length = 32 →
     let b := bindParse r.pay
     let u := bindEffect r.pay (came .partitionBind r s)
     let v := bindPairs r.pay u
     let q := u.part b.part
     exec (.partitionBind r) s = .next
       (if q.segs.any (fun g => s.zeroing.contains g) = true then u else finishPlain v s.nextId .ok (partStands u b.part).length) ∧
     q.state = .bound ∧ q.runs = b.runs ∧ q.pairs = b.pairs.map (·.1) ∧ q.regs = mkRegs b.regs ∧ q.peers = b.peers ∧
     q.linkWeight = b.linkWeight ∧ q.kvCompress = b.kvCompress ∧ q.config = bytesAt r.pay b.configStart b.configLen ∧
     q.digest = digestOfPart q ∧ q.models = [] ∧ q.segs.length = b.segs ∧ q.frames.length = b.frames ∧
     (∀ k g, q.segs[k]? = some g → g % 6 = k % 6 ∧ g < bindableSegs ∧ g ∉ takenSegs s) ∧
     (∀ k f, q.frames[k]? = some f → f.1 % 8 = k % 8 ∧ f.1 < bindableFrames ∧ f.1 ∉ takenFrames s) ∧
     (∀ k, k ≠ b.part → u.part k = s.part k) ∧
     u.stands = (bindStands s b.part ((freeStands s).take b.stands)).stands ∧
     u = { came .partitionBind r s with parts := u.parts, stands := u.stands, t1 := { s.t1 with gen := u.t1.gen } } ∧
     v = { u with pairs := v.pairs, landing := v.landing } ∧
     (∀ k, k ∉ (withPeer b.part b.pairs).map (·.1) → v.pair k = u.pair k) ∧
     (∀ k ∈ (withPeer b.part b.pairs).map (·.1), k < s.pairs.length →
       (v.pair k).bound = true ∧ (v.pair k).part = some b.part ∧ (v.pair k).reqTail = 0 ∧ (v.pair k).cplTail = 0 ∧
       (v.pair k).expSeq = 0 ∧ (v.pair k).results = [])) ∧
  (∀ (r : Req) (s : State), Accepted .partitionUnbind r s → partitionForm r.pay = true →
     let i := fld r.pay 0 1
     ((s.part i).state = .bound ∨ (s.part i).state = .loaded ∨ (s.part i).state = .faulted) →
     let v := came .partitionUnbind r s
     let u := unbindEffect i s.nextId v
     exec (.partitionUnbind r) s = .next (finishPlain u s.nextId .ok 0) ∧
     u.part i = Partition.unbound ∧ (∀ k, k ≠ i → u.part k = { s.part k with work := (u.part k).work }) ∧
     (∀ k ∈ (s.part i).pairs ++ [64 + i], (u.pair k).bound = false) ∧
     (∀ k, k ∉ (s.part i).pairs ++ [64 + i] → u.pair k = v.pair k) ∧
     (∀ c ∈ u.ctxs, c.part ≠ i) ∧ (∀ j ∈ u.jobs, j.part ≠ i) ∧ (∀ f ∈ u.fills, f.part ≠ i) ∧ (∀ l ∈ u.launches, l.part ≠ i) ∧
     (∀ c ∈ u.cmds, c.part ≠ some i ∨ c.ticket = s.nextId) ∧
     partStands u i = [] ∧
     u.landing = Mem.zeroSegs s.landing (s.part i).segs ∧ (∀ g ∈ (s.part i).segs, g ∈ u.zeroing) ∧ u.t1 = s.t1)

/-- PARTITION_REBIND when it is taken (13 R358, R360): the new segments, frames and stands are chosen at once. While a step of the
partition runs it waits for the boundary of the last step formed, and the partition is unchanged but for the pending re-bind. Else
it takes effect at once, and switches unless slices of the partition are in progress, for which the switch waits. -/
def Obligations.PartitionRebind : Prop :=
  ∀ (r : Req) (s : State), Accepted .partitionRebind r s → bindForm r.pay true = true →
    let b := bindParse r.pay
    let p := s.part b.part
    rebindPairs s b = true → rebindState s b = true → rebindRoom s b = (none, 0) →
    ∃ segs frames, newSegsFor s p b = some segs ∧ newFramesFor s p b = some frames ∧
      let rb := fun (at_ : Option Nat) => ({
        ticket := s.nextId, pay := r.pay, atStep := p.stepsFormed, newSegs := segs, newFrames := frames
        newStands := (freeStands s).take (b.stands - (partStands s b.part).length), effectAt := at_
        switched := false, fresh := [] } : Rebind)
      let u := fun (at_ : Option Nat) =>
        { came .partitionRebind r s with parts := s.parts.set b.part { p with rebind := some (rb at_) } }
      exec (.partitionRebind r) s = .next
        (if p.state = .serving ∧ p.stepsDone < p.stepsFormed then u none
         else if slicesRunning s b.part = true then u (some s.now)
         else rebindDone b.part (rebindSwitch b.part (rb (some s.now)) (u (some s.now))))

/-- Service (11 R291, R303; 02 R54): SERVE_START makes a LOADED partition SERVING with the step limits of its payload, in
start-up while WarmupMs lasts; WARMUP_END ends that; SERVE_STOP leaves SERVING, to DRAINING while requests are in flight, else
to LOADED, or BOUND without content. -/
def Obligations.Service : Prop :=
  ∀ (r : Req) (s : State) (i : Nat), s.power.railTripped = false →
    (Accepted .serveStart r s → serveForm r.pay = true → (reqPart s r).state = .loaded →
      exec (.serveStart r) s = .next (finishPlain { came .serveStart r s with
        parts := s.parts.set (reqPid s r) { s.part (reqPid s r) with
          state := .serving, warm := decide (0 < fld r.pay 2 2)
          serve := some { test := fld r.pay 0 1 == 1, warmupMs := fld r.pay 2 2, stepTokens := fld r.pay 4 4,
                          chunkMax := fld r.pay 8 2, decodeMax := fld r.pay 0xA 2, yarrowShare := fld r.pay 0xC 2,
                          since := s.now } } } s.nextId .ok 0)) ∧
    (∀ v, (s.part i).serve = some v → v.since + v.warmupMs * 1000000 ≤ s.now →
      exec (.warmupEnd i) s = .next { s with parts := s.parts.set i { s.part i with warm := false } }) ∧
    (∀ v, (s.part i).serve = some v → s.now < v.since + v.warmupMs * 1000000 → exec (.warmupEnd i) s = .next s) ∧
    (Accepted .serveStop r s → r.pay = [] → (reqPart s r).state = .serving →
      (∀ g ∈ (reqPart s r).globals, g.released = none) →
      let n := s.ctxs.countP fun c => c.part == reqPid s r
      exec (.serveStop r) s = .next (finishPlain { came .serveStop r s with
        parts := s.parts.set (reqPid s r) { s.part (reqPid s r) with
          state := if n = 0 then loadedOr (s.part (reqPid s r)) else .draining } } s.nextId .ok n))

/-- PARTITION_RECOVER (15 R425): a FAULTED partition is BOUND again with its binding, and nothing else: its segments read
zero, its frames have a new generation, its pairs have restarted, and content, requests and engine work are gone. -/
def Obligations.PartitionRecover : Prop :=
  ∀ (r : Req) (s : State), Accepted .partitionRecover r s → partitionForm r.pay = true →
    namedPart r.pay = pairPart s r → (reqPart s r).state = .faulted →
    let i := reqPid s r
    let p := s.part i
    ∃ u : State, exec (.partitionRecover r) s = .next
        (finishPlain { u with cmds := u.cmds ++ [mkCmd .partitionRecover (pairPart s r) r s.nextId] } s.nextId .ok 0) ∧
      u.part i = { Partition.unbound with
        state := .bound, segs := p.segs, runs := p.runs, frames := (u.part i).frames, pairs := p.pairs, kvCompress := p.kvCompress,
        regs := p.regs, linkWeight := p.linkWeight, peers := p.peers, config := p.config, generation := (u.part i).generation,
        lastRebindUs := p.lastRebindUs, digest := (u.part i).digest } ∧
      (u.part i).frames.map (·.1) = p.frames.map (·.1) ∧
      (∀ f ∈ (u.part i).frames, f.2 = (s.t1.gen + 1) % 2 ^ 48) ∧
      (∀ k, k ≠ i → u.part k = { s.part k with work := (u.part k).work }) ∧
      u.landing = Mem.zeroSegs s.landing p.segs ∧
      (∀ k ∈ p.pairs ++ [64 + i], (u.pair k).bound = (s.pair k).bound ∧ (u.pair k).segs = (s.pair k).segs ∧
        (u.pair k).results = [] ∧ (u.pair k).cplTail = 0 ∧ (u.pair k).expSeq = 0) ∧
      (∀ c ∈ u.ctxs, c.part ≠ i) ∧ (∀ c ∈ u.cmds, c.part ≠ some i) ∧ (∀ j ∈ u.jobs, j.part ≠ i)

/-! ### Commands: content -/

/-- Loads (05 R144; 11 R309, R311; 09 R255, R264; 08 R220; 07 R194, R207): the frames of the object are reserved and its fill
starts, a bitmap also takes its place among the changes of its shard; a source outside the partition's T1 share is a
protection violation; one that cannot be reached ends the command with ST_FAULT and leaves nothing behind.

Removals (02 R54 to R56; 09 R265; 11 R311): the object is gone, a model or index also from the digest, and a LOADED
partition whose last object it was is BOUND; a bitmap goes as a change of its shard. Detail is the id. -/
def Obligations.ContentLoadedAndRemoved : Prop :=
  (∀ (i : Instr) (c : Code) (r : Req) (s : State), commandOf i = some (c, r) →
     c ∈ [Code.modelSwapIn, .indexLoad, .tableLoad, .tokenizerLoad, .grammarLoad] → Accepted c r s →
     loadForm c r.pay = true → loadState (reqPart s r).state = true → replaceOk s (reqPid s r) c r.pay = true →
     loadFound s (reqPid s r) c r.pay = true → (loadNeed s c r).room = none →
     let k := reqPid s r
     let x := loadSrc c r.pay
     let stored := if x.chipper = true then 8 * (x.len / 4096) else x.len
     ∃ frame n, t1PlaceObject s k (loadRoom c r.pay) = some (frame, n) ∧ n = cdiv (loadRoom c r.pay) frameBytes ∧
       frame + n ≤ (s.part k).frames.length ∧
       let res : Residence := ⟨x.space, x.peer, x.addr, frame, n, x.len, x.chipper, false⟩
       let s1 := { came c r s with
         parts := s.parts.set k { s.part k with
           reserved := (s.part k).reserved ++ [(s.nextId, frame, n)]
           changes := (s.part k).changes ++ if c = .indexLoad ∧ fld r.pay 1 1 = 1
             then [⟨s.nextId, x.id, .bitmapLoad (fld r.pay 3 1) x.chipper res none, (s.part k).stepsFormed, false⟩] else [] } }
       let f := startFill s1 k x.space x.peer x.addr stored (.load s.nextId)
       (x.space = 1 → t1Ok (s.part k).frames x.addr stored = false → exec i s = .next (protection (came c r s) k)) ∧
       ((x.space = 1 → t1Ok (s.part k).frames x.addr stored = true) →
         (f.2 = true → exec i s = .next f.1) ∧
         (f.2 = false → exec i s = .next (finishPlain { f.1 with parts := f.1.parts.set k { f.1.part k with
             reserved := (f.1.part k).reserved.filter fun e => e.1 != s.nextId
             changes := (f.1.part k).changes.filter fun e => e.ticket != s.nextId } } s.nextId .fault 0)))) ∧
  (∀ (r : Req) (s : State) (i : Nat), pairPart s r = some i →
     let p := s.part i
     let id := fld r.pay 0 1
     let place := fun (c : Code) (q : Partition) => { came c r s with parts := s.parts.set i q }
     let lastOut := fun (q : Partition) => { q with state := if q.state = .loaded then loadedOr q else q.state }
     (Accepted .modelSwapOut r s → 8 ≤ r.pay.length → id ≤ 15 → zeroAt r.pay 2 6 = true → unloadState p.state = true →
       (fld r.pay 1 1 = 0 → (findModel s i id).isSome = true → (∀ c ∈ inFlight s i, ctxUsesModel c id = false) →
         let q := { p with models := p.models.filter fun m => m.id != id }
         exec (.modelSwapOut r) s = .next
           (finishPlain (place .modelSwapOut (lastOut { q with digest := digestOfPart q })) s.nextId .ok id)) ∧
       (fld r.pay 1 1 = 1 → (findStore s i id).isSome = true → (∀ c ∈ inFlight s i, ctxUsesIndex c id = false) →
         let q := { p with stores := p.stores.filter fun m => m.id != id }
         exec (.modelSwapOut r) s = .next
           (finishPlain (place .modelSwapOut (lastOut { q with digest := digestOfPart q })) s.nextId .ok id))) ∧
     (Accepted .indexUnload r s → 8 ≤ r.pay.length → id ≤ 15 → fld r.pay 2 1 ≤ 63 → zeroAt r.pay 3 5 = true →
       unloadState p.state = true →
       ∀ x, findIndex s i id = some x →
       (fld r.pay 1 1 = 0 → fld r.pay 2 1 = 0 → indexBusy s i id = false →
         let q := { p with indexes := p.indexes.filter fun x => x.id != id }
         exec (.indexUnload r) s = .next
           (finishPlain (place .indexUnload (lastOut { q with digest := digestOfPart q })) s.nextId .ok id)) ∧
       (fld r.pay 1 1 = 1 → x.bitmaps.any (fun e => e.1 == fld r.pay 2 1) = true →
         exec (.indexUnload r) s = .next (place .indexUnload
           { p with changes := p.changes ++ [⟨s.nextId, id, .bitmapUnload (fld r.pay 2 1), p.stepsFormed, false⟩] }))) ∧
     (Accepted .contentUnload r s → 8 ≤ r.pay.length → zeroAt r.pay 2 6 = true → unloadState p.state = true →
       let n := fld r.pay 1 1
       unloadBusy s i id n = false →
       (id = 0 → n ≤ 7 → (findTokenizer s i n).isSome = true → exec (.contentUnload r) s = .next (finishPlain
         (place .contentUnload (lastOut { p with tokenizers := p.tokenizers.filter fun x => x.id != n })) s.nextId .ok n)) ∧
       (id = 1 → (findGrammar s i n).isSome = true → exec (.contentUnload r) s = .next (finishPlain
         (place .contentUnload (lastOut { p with grammars := p.grammars.filter fun x => x.id != n })) s.nextId .ok n)) ∧
       (id = 2 → n ≤ 63 → (findTable s i n).isSome = true → exec (.contentUnload r) s = .next (finishPlain
         (place .contentUnload (lastOut (flushCache { p with tables := p.tables.filter fun x => x.id != n } n)))
         s.nextId .ok n))))

/-! ### Commands: requests -/

/-- QUERY_SUBMIT and GENERATE_SUBMIT (11 R286, R313, R314, R319; 02 R44): the request takes the lowest free context, QUEUED
with its payload, class and sampling fields, and its acceptance record is posted; with every context taken it is ST_BUSY;
one that names a damaged object is ST_FAULT. With no step running it is admitted at once (log 68).

REQUEST_CANCEL, REQUEST_PAUSE and REQUEST_RESUME (11 R299 to R301, R489): the control is kept for the boundary of the last
step formed; without a step running it acts at once (log 68). A context that no request of the partition holds is
ST_NOT_FOUND. -/
def Obligations.RequestsAndControls : Prop :=
  (∀ (r : Req) (s : State), (reqPart s r).state = .serving →
     let i := reqPid s r
     let l := r.pay
     let models := [fld l 1 1, fld l 3 1] ++ (qReranker l).toList
     let accepted := fun (c : Code) (isQuery : Bool) (t : State) => ∃ id x s1, freeCtxId s = some id ∧ id < 4096 ∧
       (∀ y ∈ s.ctxs, y.id ≠ id) ∧
       x.id = id ∧ x.ticket = s.nextId ∧ x.pair = r.pair ∧ x.seq = r.hdr.seq ∧ x.part = i ∧ x.state = .queued ∧ x.stage = .none ∧
       x.isQuery = isQuery ∧ x.pay = l ∧ x.yarrow = (r.hdr.prio == 1) ∧ x.isOver = false ∧ x.output = [] ∧ x.kvPages = [] ∧
       x.sampling.seed = w64 (fld l 0x18 8) ∧
       s1 = { came c r s with
         ctxs := s.ctxs ++ [x]
         cmds := s.cmds.map (fun y => if y.ticket = s.nextId then { y with ctx := some id } else y) ++
           [{ mkCmd c (commandPart s c r) r s.nextId with ctx := some id }] } ∧
       t = actIdle i (post s1 r.pair (ctxRecord s1 x .ok .none true 0))
     (Accepted .querySubmit r s → queryForm l = true → queryFits s i l = true → queryFound s i l = true →
       (∀ id, freeCtxId s = some id →
         (namesDamaged s i models (some (fld l 4 1)) (optionsParse (l.drop (fld l 0x30 4))).grammar = false →
           ∃ t, exec (.querySubmit r) s = .next t ∧ accepted .querySubmit true t) ∧
         (namesDamaged s i models (some (fld l 4 1)) (optionsParse (l.drop (fld l 0x30 4))).grammar = true →
           exec (.querySubmit r) s = .next (finishPlain (came .querySubmit r s) s.nextId .fault 0))) ∧
       (freeCtxId s = none → exec (.querySubmit r) s = .next (finishPlain (came .querySubmit r s) s.nextId .busy 0))) ∧
     (Accepted .generateSubmit r s → generateForm l = true → generateFits s i l = true → generateFound s i l = true →
       (∀ id, freeCtxId s = some id →
         (namesDamaged s i [fld l 0 1] none (generateOptions l).grammar = false →
           ∃ t, exec (.generateSubmit r) s = .next t ∧ accepted .generateSubmit false t) ∧
         (namesDamaged s i [fld l 0 1] none (generateOptions l).grammar = true →
           exec (.generateSubmit r) s = .next (finishPlain (came .generateSubmit r s) s.nextId .fault 0))) ∧
       (freeCtxId s = none →
         exec (.generateSubmit r) s = .next (finishPlain (came .generateSubmit r s) s.nextId .busy 0)))) ∧
  (∀ (r : Req) (s : State), controlState (reqPart s r).state = true →
     let act := fun (k : Code) (c : Ctx) (spill : Option (Nat × Nat × Nat)) (u : State) =>
       actIdle c.part { u with
         parts := s.parts.set c.part { s.part c.part with
           controls := (s.part c.part).controls ++ [⟨s.nextId, c.ticket, (s.part c.part).stepsFormed, k, spill⟩] } }
     (∀ c, namedCtx s r = some c →
       (Accepted .requestCancel r s → r.pay = [] → c.cancelTaken = false →
         exec (.requestCancel r) s = .next (act .requestCancel c none { came .requestCancel r s with
           ctxs := s.ctxs.map fun x => if x.id = c.id then { x with cancelTaken := true } else x })) ∧
       (Accepted .requestPause r s → pauseForm r.pay = true → c.yarrow = true → c.state ≠ .paused → c.cancelTaken = false →
         c.pauseHeld = none → controlPending s c .requestPause = false →
         exec (.requestPause r) s = .next (act .requestPause c
           (if fld r.pay 0 1 = 0 then none else some (fld r.pay 1 1, fld r.pay 8 8, fld r.pay 0x10 8)) (came .requestPause r s))) ∧
       (Accepted .requestResume r s → r.pay = [] → c.state = .paused → controlPending s c .requestResume = false →
         refilling s c.id = false →
         exec (.requestResume r) s = .next (act .requestResume c none (came .requestResume r s)))) ∧
     (namedCtx s r = none →
       (Accepted .requestCancel r s → r.pay = [] →
         exec (.requestCancel r) s = .next (finishPlain (came .requestCancel r s) s.nextId .notFound 0)) ∧
       (Accepted .requestPause r s → pauseForm r.pay = true →
         exec (.requestPause r) s = .next (finishPlain (came .requestPause r s) s.nextId .notFound 0)) ∧
       (Accepted .requestResume r s → r.pay = [] →
         exec (.requestResume r) s = .next (finishPlain (came .requestResume r s) s.nextId .notFound 0))))

/-! ### Commands: engines -/

/-- Work put in line (13 R345; 15 R401, R402; 08 R225): a new piece of work with the command's ticket stands at the end of the line,
and free units take work; where a unit that takes one needs current, a launch is formed for its turn that asks for 6 A for a
traversal engine or the Yarder and 2 A for a Tally pipeline, 512 counts before its target. Units that are busy or out of service
stay as they are, and nothing else changes but the lines of WORK that work holds.

TOKENIZE_SUBMIT, DETOKENIZE_SUBMIT, TALLY_SUBMIT and PEER_GATHER (07 R195, R213; 08 R221; 10 R282): the command's work is
put in line, a TALLY_SUBMIT's if the pair's result region can hold its result (02 R51; 10 R284); one that names a damaged
tokenizer or grammar ends with ST_FAULT (15 R417). -/
def Obligations.EngineCommands : Prop :=
  (∀ (s : State) (part t : Nat) (ctx : Option Nat) (k : JobKind),
     let u := queueJob s part t ctx k
     u = { s with nextId := u.nextId, jobs := u.jobs, units := u.units, launches := u.launches, parts := u.parts
                  cut := { s.cut with requests := u.cut.requests } } ∧
     (∀ n, u.part n = { s.part n with work := (u.part n).work }) ∧
     s.nextId < u.nextId ∧
     (∃ turns, u.launches = s.launches ++ turns ∧
       u.cut.requests = s.cut.requests ++ turns.map (fun l =>
         ⟨l.id, l.part, l.amps, l.target, l.target - 512, 0, none⟩) ∧
       ∀ l ∈ turns, l.posted = true ∧ l.fired = none ∧ l.granted = none ∧ s.nextId < l.id ∧ l.id < u.nextId ∧
         l.target % 256 = 0 ∧ s.now + 512 ≤ l.target ∧ l.target < s.now + 768 ∧
         ∃ j ∈ u.jobs, l.kind = .engine j.id ∧ l.part = j.part ∧
           ((∃ n, j.unit = some (.traversal n) ∧ l.amps = 6) ∨ (∃ n, j.unit = some (.tally n) ∧ l.amps = 2) ∨
             (j.unit = some .yarder ∧ l.amps = 6))) ∧
     u.jobs.map (fun j => (j.id, j.part, j.ticket, j.ctx, j.kind, j.reruns, j.room)) =
       s.jobs.map (fun j => (j.id, j.part, j.ticket, j.ctx, j.kind, j.reruns, j.room)) ++
         [(s.nextId, part, t, ctx, k, 0, 0)] ∧
     u.units.map (fun x => (x.unit, x.status)) = s.units.map (fun x => (x.unit, x.status)) ∧
     ((s.units.map (·.unit)).Nodup → ∀ (n : Nat) (x y : EngineSt), s.units[n]? = some x → u.units[n]? = some y →
       x.job.isSome = true ∨ x.status ≠ .inService → y = x)) ∧
  (∀ (r : Req) (s : State), engineState s r = true →
     let i := reqPid s r
     let l := r.pay
     (Accepted .tallySubmit r s → tallyForm l = true → tallySize l ≤ resBytes (s.pair r.pair) →
       exec (.tallySubmit r) s = .next (queueJob (came .tallySubmit r s) i s.nextId none .tally)) ∧
     (∀ tk, Accepted .tokenizeSubmit r s → tokForm l = true → findTokenizer s i (fld l 0 1) = some tk →
       exec (.tokenizeSubmit r) s = .next (if tk.res.damaged = true
         then finishPlain (came .tokenizeSubmit r s) s.nextId .fault 0
         else queueJob (came .tokenizeSubmit r s) i s.nextId none .tokenize)) ∧
     (∀ tk, Accepted .detokenizeSubmit r s → detokForm l = true → detokFits s i l = true →
       findTokenizer s i (fld l 0 1) = some tk → (detokOptions l).grammar = none →
       exec (.detokenizeSubmit r) s = .next (if tk.res.damaged = true
         then finishPlain (came .detokenizeSubmit r s) s.nextId .fault 0
         else queueJob (came .detokenizeSubmit r s) i s.nextId none .detokenize)) ∧
     (∀ tk n g, Accepted .detokenizeSubmit r s → detokForm l = true → detokFits s i l = true →
       findTokenizer s i (fld l 0 1) = some tk → (detokOptions l).grammar = some n → findGrammar s i n = some g →
       exec (.detokenizeSubmit r) s = .next (if tk.res.damaged = true ∨ g.res.damaged = true
         then finishPlain (came .detokenizeSubmit r s) s.nextId .fault 0
         else queueJob (came .detokenizeSubmit r s) i s.nextId none .detokenize)) ∧
     (∀ tb, Accepted .peerGather r s → 16 ≤ l.length → zeroAt l 2 2 = true → zeroAt l 12 4 = true →
       16 + 8 * fld l 8 4 ≤ l.length → findTable s i (fld l 0 1) = some tb →
       (∀ x ∈ peerItems l, x.2.1 < tb.shards.length ∧ (tableShard tb x.2.1).heldBy s.myId.toNat = true ∧
         (tableShard tb x.2.1).comp = x.1 ∧ (tableShard tb x.2.1).rowFirst ≤ x.2.2 ∧
         x.2.2 < (tableShard tb x.2.1).rowFirst + (tableShard tb x.2.1).rowCount) →
       exec (.peerGather r) s = .next (queueJob (came .peerGather r s) i s.nextId none .gather)))

/-- GATHER_SUBMIT and UPDATE_SUBMIT (08 R221, R222, R225, R227, R231, R235): a gather asks the owners of the rows it does not
hold, and ends with ST_TIMEOUT when one has no module that can be asked, with ST_NO_SPACE when it cannot be divided to fit; an
update's contributions are counted and kept or sent; of a module outside the source list that holds a shard itself it is
ST_DENIED at once, and nothing is changed. -/
def Obligations.TableCommands : Prop :=
  ∀ (r : Req) (s : State) (tb : Table), engineState s r = true →
    let i := reqPid s r
    let l := r.pay
    findTable s i (fld l 0 1) = some tb →
    (Accepted .gatherSubmit r s → gatherForm l = true → (gatherIdx l).all (indexOkFor tb) = true →
      (∀ parts, submitParts (reqPart s r) tb l = some parts →
        let g := gatherBegin (came .gatherSubmit r s) i s.nextId tb (fld l 0xC 4) (slotFmt l) parts
        exec (.gatherSubmit r) s = .next (if g.2 = true then g.1 else finishPlain g.1 s.nextId .timeout 0) ∧
        (g.2 = false → ∀ j ∈ g.1.jobs, j.id ≠ s.nextId + 1) ∧
        ((∀ x ∈ gatherItems tb parts.flatten, (localShard s tb x.2.1).isSome = true) → g.2 = true ∧ g.1.calls = s.calls)) ∧
      (submitParts (reqPart s r) tb l = none →
        exec (.gatherSubmit r) s = .next (finishPlain (came .gatherSubmit r s) s.nextId .noSpace 0))) ∧
    (Accepted .updateSubmit r s → updForm l = true → (tableComps tb).all (fun c => (tb.component c).updatable) = true →
      (updOcc l = 0 ∨ fld l 0x14 4 + 4 * tableDim tb * updOcc l ≤ l.length) →
      (fldList l (fld l 0x10 4) 8 (updOcc l)).all (indexOkFor tb) = true →
      appliedHere s tb < updEpoch l → updEpoch l ∉ tb.sentEnds →
      exec (.updateSubmit r) s = .next (updateBegin (came .updateSubmit r s) i s.nextId tb l) ∧
      (s.myId.toNat ∉ tb.sources → holdsShard tb s.myId.toNat = true → updEnd l = true →
        exec (.updateSubmit r) s = .next (finishPlain (came .updateSubmit r s) s.nextId .denied 0)))

/-- SEARCH_SUBMIT and PEER_SEARCH (09 R246, R262, R263): a search begins at its home, which asks for every shard the block
selects but its own; a home without a shard of its own to search has no part in line; a peer searches its own shard, and
answers ST_FAULT when that is damaged. -/
def Obligations.SearchCommands : Prop :=
  ∀ (r : Req) (s : State) (x : Index), engineState s r = true →
    let i := reqPid s r
    let l := r.pay
    let b := blockParse l 8
    findIndex s i (fld l 0 1) = some x →
    (Accepted .searchSubmit r s → searchForm l = true → searchFits l x = true → homeTerms x b = true →
      exec (.searchSubmit r) s = .next (searchBegin (came .searchSubmit r s) i (.command s.nextId) x b
        (queriesAt l (fld l 4 4) (fld l 2 2) x.dim)) ∧
      (ownShard x = some x.shardIndex → shardsWanted x b = [x.shardIndex] → x.res.damaged = false →
        ∃ y u, exec (.searchSubmit r) s = .next u ∧ u.searches = s.searches ++ [y] ∧ y.id = s.nextId + 1 ∧
          y.owner = .command s.nextId ∧ y.wanted = [x.shardIndex] ∧ y.missing = [] ∧
          y.queries.length = fld l 2 2 ∧ u.calls = s.calls)) ∧
    (Accepted .peerSearch r s → 0x28 ≤ l.length → 1 ≤ fld l 2 2 → fld l 2 2 ≤ 64 → zeroAt l 4 4 = true → blockForm l 8 = true →
      0x28 + 2 * x.dim * fld l 2 2 ≤ l.length →
      (queriesAt l 0x28 (fld l 2 2) x.dim).all (fun q => q.all finite16) = true →
      ownShard x = some (fld l 1 1) → termsLoaded x b = true →
      exec (.peerSearch r) s = .next (if x.res.damaged = true then finishPlain (came .peerSearch r s) s.nextId .fault 0
        else peerSearchBegin (came .peerSearch r s) i s.nextId x b (queriesAt l 0x28 (fld l 2 2) x.dim)))

/-- SEARCH_INSERT, SEARCH_DELETE and PLANT_START (09 R255 to R260): each becomes the last pending change of its shard, and
PLANTING_DONE makes the switch one; a damaged shard takes none (15 R417). -/
def Obligations.ShardChanges : Prop :=
  ∀ (r : Req) (s : State) (x : Index), changeState s r = true →
    let i := reqPid s r
    let l := r.pay
    let change := fun (c : Code) (k : ChangeKind) =>
      if x.res.damaged = true then finishPlain (came c r s) s.nextId .fault 0
      else { came c r s with parts := s.parts.set i { s.part i with changes := (s.part i).changes ++ [⟨s.nextId, x.id, k,
        (s.part i).stepsFormed, false⟩] } }
    findIndex s i (fld l 0 1) = some x → x.isMap = false →
    (Accepted .searchInsert r s → insertForm l = true → insertFits l x = true →
      exec (.searchInsert r) s = .next (change .searchInsert (.insert (insertEntries l x)))) ∧
    (Accepted .searchDelete r s → 8 ≤ l.length → fld l 0 1 ≤ 15 → zeroAt l 1 3 = true → 1 ≤ fld l 4 4 → fld l 4 4 ≤ 1048576 →
      8 + 8 * fld l 4 4 ≤ l.length → (∀ n ∈ deleteIds l, n ≤ noItem) →
      exec (.searchDelete r) s = .next (change .searchDelete (.delete (deleteIds l)))) ∧
    (Accepted .plantStart r s → 8 ≤ l.length → fld l 0 1 ≤ 15 → zeroAt l 1 1 = true → zeroAt l 4 4 = true →
      fld l 2 2 ≤ 4096 → x.degree ≤ fld l 2 2 → plantingOn s i x = false →
      exec (.plantStart r) s = .next (change .plantStart (.plantStart (fld l 2 2)))) ∧
    (∀ (k n : Nat) (y : Index) (pl : Planting), partIndex (s.part k) n = some y → y.planting = some pl →
      s.power.railTripped = false →
      (pl.done = true → ((s.part k).changes.any fun c => c.index == n && c.kind == .plantSwitch) = false →
        exec (.plantingDone k n) s = .next { s with parts := s.parts.set k { s.part k with
          changes := (s.part k).changes ++ [⟨pl.ticket, n, .plantSwitch, (s.part k).stepsFormed, false⟩] } }) ∧
      (pl.done = false → exec (.plantingDone k n) s = .next s))

/-- PEER_FETCH and PEER_UPDATE (05 R156; 06 R161; 08 R231, R235): T1 bytes, and an item's tag and passage, are answered with the
record where no page of them is poisoned, and count as FILL accesses (01 R16); contributions from a source of the table are kept
with its EPOCH_END; a module outside the source list is ST_DENIED; both answers report the applied epoch. -/
def Obligations.PeerCommands : Prop :=
  ∀ (r : Req) (s : State), engineState s r = true →
    let i := reqPid s r
    let l := r.pay
    (Accepted .peerFetch r s → peerFetchForm s i l = true → fld l 0 1 ≠ 1 →
      let g := peerRange s i l
      (∀ pg ∈ rangePages g.1 g.2, pagePoisoned s i pg = false) →
      exec (.peerFetch r) s = .next
        (finish (charge (came .peerFetch r s) i .fill g.2) s.nextId .ok 0 (some (s.t1Bytes i g.1 g.2)))) ∧
    (∀ st y, Accepted .peerFetch r s → peerFetchForm s i l = true → fld l 0 1 = 1 → findStore s i (fld l 1 1) = some st →
      storeItem s i st (fld l 8 8) = some y →
      (st.res.damaged = true → exec (.peerFetch r) s = .next (finishPlain (came .peerFetch r s) s.nextId .fault 0)) ∧
      (st.res.damaged = false → (∀ pg ∈ itemPages s i st (fld l 8 8), pagePoisoned s i pg = false) →
        exec (.peerFetch r) s = .next (finish (charge (came .peerFetch r s) i .fill (y.1.length + y.2.length)) s.nextId .ok 0
          (some (passageReply y))))) ∧
    (∀ tb cs, Accepted .peerUpdate r s →
      16 ≤ l.length → fld l 1 1 < 2 → zeroAt l 12 4 = true → fld l 2 2 = r.src.toNat →
      peerContribs l (fld l 2 2) (fld l 4 4) (fld l 8 4) 16 = some cs →
      findTable s i (fld l 0 1) = some tb → holdsShard tb s.myId.toNat = true →
      (fld l 2 2 ∉ tb.sources → exec (.peerUpdate r) s = .next (finish (came .peerUpdate r s) s.nextId .denied 0
        (some (leBytes 4 tb.applied ++ leBytes 4 0)))) ∧
      (fld l 2 2 ∈ tb.sources → exec (.peerUpdate r) s = .next (finish
        { came .peerUpdate r s with
          parts := s.parts.set i { s.part i with tables := (s.part i).tables.map fun t => if t.id = tb.id then { t with
            contribs := t.contribs ++ cs
            ends := if bit (fld l 1 1) 0 = true then t.ends ++ [(fld l 2 2, fld l 4 4)] else t.ends } else t } }
        s.nextId .ok (w32 cs.length) (some (leBytes 4 tb.applied ++ leBytes 4 0)))))

/-! ### Commands: global operations and tests -/

/-- Global commands (12 R333, R335): each of the four is kept with its epoch, which becomes the last of its domain; behind an
operation of the domain that is not complete it waits, else the partition joins; an epoch that is not newer is
ST_WRONG_STATE, a 17th operation ST_NO_SPACE. A deferred command joins once its domain is free. A GROUP_RESET of Scope MODULE
that completes with it resets the module (log 84). -/
def Obligations.GlobalCommands : Prop :=
  (∀ (i : Instr) (c : Code) (r : Req) (s : State), commandOf i = some (c, r) →
    c ∈ [Code.barrierJoin, .broadcastSend, .snapshotTake, .groupReset] → Accepted c r s →
    let k := reqPid s r
    let p := s.part k
    let g := globalOp c r.pay s.nextId
    globalForm s k c r.pay = true → globalState (reqPart s r).state = true →
    let s1 := { came c r s with parts := s.parts.set k { p with
      globals := p.globals ++ [g], lastEpochs := setKey p.lastEpochs g.domain g.epoch } }
    (lookupD p.lastEpochs g.domain 0 < g.epoch → p.globals.countP (·.open_) < 16 →
      exec i s = .next (if p.globals.any (fun x => x.open_ && x.domain == g.domain) = true then s1
        else groupResetNow (joinOp s1 k g))) ∧
    (g.epoch ≤ lookupD p.lastEpochs g.domain 0 → exec i s = .next (finishPlain (came c r s) s.nextId .wrongState 0)) ∧
    (lookupD p.lastEpochs g.domain 0 < g.epoch → 16 ≤ p.globals.countP (·.open_) →
      exec i s = .next (finishPlain (came c r s) s.nextId .noSpace 0))) ∧
  ∀ (s : State) (k d : Nat), s.power.railTripped = false →
    (domainBusy (s.part k) d = true → exec (.globalDeferredStart k d) s = .next s) ∧
    (∀ g, domainBusy (s.part k) d = false →
      (s.part k).globals.find? (fun g => g.open_ && g.joinedAt.isNone && g.domain == d) = some g →
      exec (.globalDeferredStart k d) s = .next (groupResetNow (joinOp s k g)))

/-- The tests (15 R427, R428; 17 X19): LOOPBACK_SET starts a test of its ports for the time given, or ends those tests whose every
port it names; at its end, with a result for each port, and at the end of a commanded self-test, the oldest test's command
completes with the results. A self-test of stands asks for 24 A for each, and does not end before it has been given them. -/
def Obligations.TestCommands : Prop :=
  ∀ (r : Req) (s : State),
    let i := reqPid s r
    let l := r.pay
    let ports := maskPorts (fld l 0 2)
    (Accepted .loopbackSet r s → 8 ≤ l.length → fld l 2 1 ≤ 2 → zeroAt l 3 1 = true → 1 ≤ fld l 4 4 → fld l 4 4 ≤ 10000000 →
      testState s r = true → ports.all (portLoops s) = true →
      (fld l 2 1 ≠ 0 → exec (.loopbackSet r) s = .next { came .loopbackSet r s with parts := s.parts.set i { s.part i with
        loopbacks := (s.part i).loopbacks ++ [(s.nextId, ports, s.now + 1000 * fld l 4 4)] } }) ∧
      (fld l 2 1 = 0 → exec (.loopbackSet r) s = .next (finish { came .loopbackSet r s with
        parts := s.parts.map fun p =>
          { p with loopbacks := p.loopbacks.map fun x => if (x.2.1.all ports.contains) then (x.1, x.2.1, min x.2.2 s.now) else x } }
        s.nextId .ok 0 (some (loopResult ports (ports.map fun _ => (0, 0))))))) ∧
    (Accepted .selftestRun r s → 8 ≤ l.length → fld l 0 1 ≤ 3 → zeroAt l 1 7 = true → testState s r = true →
      (fld l 0 1 < 2 ∨ (reqPart s r).state = .bound) →
      let s1 := { came .selftestRun r s with parts := s.parts.set i { s.part i with
        selftests := (s.part i).selftests ++ [(s.nextId, fld l 0 1)] } }
      exec (.selftestRun r) s = .next (if fld l 0 1 = 0 ∧ (s.part i).selftests = []
        then (testedStands s i).foldl (fun s k => standTest s k i) s1 else s1)) ∧
    (∀ (k i : Nat), standTest s k i = { s with
      nextId := s.nextId + 1
      launches := s.launches ++ [ownLaunch s i (.standTest k) 24]
      cut := { s.cut with requests := s.cut.requests ++
        [⟨s.nextId, i, 24, alignUp 256 (s.now + 512), alignUp 256 (s.now + 512) - 512, 0, none⟩] } }) ∧
    (∀ (k t : Nat) (ps : List Nat) (at_ : Nat) (results : List (W64 × W64)) (rest : List (Nat × List Nat × Nat)),
      s.power.railTripped = false → (s.part k).loopbacks = (t, ps, at_) :: rest → at_ ≤ s.now → results.length = ps.length →
      exec (.loopbackTestEnd k results) s = .next (finish { s with parts := s.parts.set k { s.part k with
        loopbacks := ((t, ps, at_) :: rest).filter fun y => y.1 != t } } t .ok 0 (some (loopResult ps results)))) ∧
    (∀ (k t target : Nat) (failed : List Nat) (rest : List (Nat × Nat)), s.power.railTripped = false →
      (s.part k).selftests = (t, target) :: rest →
      let s0 := if target = 0 then dropTests s (testedStands s k) else s
      let s1 := { s0 with parts := s0.parts.set k { s0.part k with selftests := rest } }
      let own := selftestOwn s k target failed
      (testsFired s k = false → exec (.selftestRunEnd k failed) s = .next s) ∧
      (testsFired s k = true → ∃ mask first, exec (.selftestRunEnd k failed) s = .next (testStands
        (finish (selftestEffect s1 k target own) t .ok 0 (some (selftestResult target own.length mask first))) k)))

/-! ### Steps, launches and tasks -/

/-- Steps (11 R289, R290, R292, R293; 13 R360): none is formed without service, while a re-bind is pending or two ahead of the
one that runs; one is formed for batches, or for slices that can ride in it; it takes the next number, is bound to a release it is
formed under, and fires at once when none runs. At a boundary, the last launch of the step being complete, the step is over, it is
counted, and what is due acts. A boundary of a partition without steps serves changes and epochs alone. Both rows first end the
launches whose units have all completed, and STEP_FORM lets the switches go on that waited for slices; with no launch and no re-bind
pending that is nothing. -/
def Obligations.StepsAndBoundaries : Prop :=
  ∀ (i : Nat) (s : State), s.power.railTripped = false →
    (let w := settle s
     let p := w.part i
     (s.launches = [] → (∀ k, k < 32 → (s.part k).rebind = none) → w = s) ∧
     ((p.serve = none ∨ serves p = false ∨ p.rebind.isSome = true ∨ p.stepsDone + 1 < p.stepsFormed) →
       exec (.stepForm i) s = .next w) ∧
     ∀ v, p.serve = some v → serves p = true → p.rebind = none → p.stepsFormed ≤ p.stepsDone + 1 →
       let f := formBatches (actIdle i w) i v
       (f.1 = [] → ridersOf f.2 i = [] → exec (.stepForm i) s = .next f.2) ∧
       ((f.1 ≠ [] ∨ ridersOf f.2 i ≠ []) →
         let q := f.2.part i
         let s1 := { f.2 with parts := f.2.parts.set i { q with
           stepsFormed := q.stepsFormed + 1, steps := q.steps ++ [⟨q.stepsFormed + 1, f.1, false, [], nextAligned f.2 i⟩] } }
         exec (.stepForm i) s = .next (if (s1.part i).stepsDone = q.stepsFormed then postStep i s1 else s1))) ∧
    (let e := endLaunches s
     let p := e.part i
     (s.launches = [] → e = s) ∧
     (stepOver e i = false → exec (.stepBoundary i) s = .next e) ∧
     (stepOver e i = true → exec (.stepBoundary i) s = .next (boundaryActs i (p.stepsDone + 1)
       { e with
         parts := e.parts.set i { p with
           stepsDone := p.stepsDone + 1, steps := p.steps.filter fun x => x.no != p.stepsDone + 1 }
         ctr := setKey e.ctr ⟨.serveSteps, i, 0⟩ (lookupD e.ctr ⟨.serveSteps, i, 0⟩ 0 + 1) }))) ∧
    let p := s.part i
    ((p.state ≠ .loaded ∧ p.state ≠ .serving ∨ p.stepsDone ≠ p.stepsFormed) → exec (.changeBoundary i) s = .next s) ∧
    ((p.state = .loaded ∨ p.state = .serving) → p.stepsDone = p.stepsFormed →
      exec (.changeBoundary i) s = .next (boundaryEpochs i (boundaryChanges i s)))

/-- A GENERATOR's batch (11 R292) has at most StepTokens rows and at most RowLimit, of which at most DecodeMax decode, whatever
lines of the KV area the step's other batches use. -/
def Obligations.BatchWithinLimits : Prop :=
  ∀ (s : State) (i : Nat) (m : Model) (v : Serving) (used : Nat),
    let b := (genBatch s i m v used).1
    b.rows0.length + b.rows1.length ≤ v.stepTokens ∧ b.rows0.length + b.rows1.length ≤ rowLimit s i m ∧
    b.rows1.length ≤ v.decodeMax

/-- A launch fires (01 R18; 12 R325; 15 R401, R402, R405) once it is posted, its target has come, every operand is there and its
credits are granted for the epoch of now. From then on it holds them: each of its tasks its own and the slices that ride in it the
rest; a launch of a unit's turn or of a stand's self-test (17 X19) all it asked for. What it holds adds up to what it asked for. With
it the turn and the slices begin. Else nothing happens.

Tasks end (04 R96, R104 to R106, R116; 15 R405, R414): a complete task has stored its results, its stand is free and its
credits return at the next boundary, once the accesses pass their regulator (13 R353); a faulted one has stored what it had run, the
first of its operations, how many is free; its stand leaves service for its self-test, which asks for 24 A in the name of its
partition (17 X19), and the task is to run again once, on another stand; a second fault ends the step. The watchdog is a fault once
its time is over. -/
def Obligations.LaunchesAndTasks : Prop :=
  (∀ (n : Nat) (s : State), s.power.railTripped = false →
     (s.launch? n = none → exec (.launchFire n) s = .next s) ∧
     ∀ l, s.launch? n = some l →
       ((l.posted = false ∨ l.fired.isSome = true ∨ s.now < l.target ∨ operandsReady l = false ∨ l.granted = none ∨
           (∃ e, l.granted = some e ∧ (s.now < e ∨ e + 256 ≤ s.now))) →
         exec (.launchFire n) s = .next s) ∧
       ((∀ h ∈ launchHolds l, h.launch = n ∧ h.part = l.part ∧ h.done = false) ∧
         ((l.tasks.map (·.credit)).sum ≤ l.amps → ((launchHolds l).map (·.amps)).sum = l.amps) ∧
         ((∀ k, l.kind ≠ .engine k) → (∀ k, l.kind ≠ .standTest k) → ∀ k x, l.tasks[k]? = some x →
           ⟨l.part, n, k, x.credit, false⟩ ∈ launchHolds l)) ∧
       ∀ e, l.posted = true → l.fired = none → l.target ≤ s.now → operandsReady l = true → l.granted = some e → e ≤ s.now →
         s.now < e + 256 →
         ∃ ctr,
           lookupD ctr ⟨.launchFired, l.part, 0⟩ 0 = lookupD s.ctr ⟨.launchFired, l.part, 0⟩ 0 + 1 ∧
           let ids := match l.kind with
             | .engine k => k :: l.slices
             | _ => l.slices
           let t := { s with
             launches := s.launches.map fun x => if x.id = n then { x with fired := some s.now } else x
             cut := { s.cut with held := s.cut.held ++ launchHolds l }
             jobs := s.jobs.map fun j => if j.id ∈ ids then { j with started := some (j.started.getD s.now) } else j
             ctr := ctr }
           (l.release = none → exec (.launchFire n) s = .next t) ∧
           ∀ g, l.release = some g → exec (.launchFire n) s = .next (alignFired t l.part g)) ∧
  (∀ (n : Nat) (s : State), s.power.railTripped = false →
     (runningTask s n = none → exec (.standTaskComplete n) s = .next s ∧ exec (.arrayResidueFault n) s = .next s ∧
       exec (.taskWatchdog n) s = .next s) ∧
     ∀ k l ti t x, runningTask s n = some (k, l, ti, t) → s.stands[k]? = some x →
       (flowHolds s l.part .stand = true → exec (.standTaskComplete n) s = .next (s.modReg l.part .stand fun r =>
         { r with waiting := true })) ∧
       (∀ ops, ∃ ctr, (∀ q, q.name ≠ .standDepStall → lookupD ctr q 0 = lookupD s.ctr q 0) ∧
         runBody s k l (.record ops) = charge { s with
           landing := runTask (s.part l.part).view l.bases ops s.landing
           stands := s.stands.set k { x with corrected := x.corrected + (Config.freeValue s.freeIdx).toNat }
           freeIdx := s.freeIdx + 2
           ctr := ctr } l.part .stand (taskTraffic ops)) ∧
       (flowHolds s l.part .stand = false → (∃ j y, j ≠ ti ∧ l.tasks[j]? = some y ∧ y.done = false) →
         (∀ o j, l.kind ≠ .rerun o j) →
         let b := runBody s k l t.body
         exec (.standTaskComplete n) s = .next (postReady { b with
           stands := match b.stands[k]? with
             | some y => b.stands.set k { y with task := none }
             | none => b.stands
           cut := { b.cut with held := b.cut.held.map fun h =>
             if h.launch = l.id ∧ h.task = ti then { h with done := true } else h }
           launches := b.launches.map fun y => if y.id = l.id then { y with
             tasks := match y.tasks[ti]? with
               | some t => y.tasks.set ti { t with done := true }
               | none => y.tasks } else y } l.part)) ∧
       (let v := (Config.freeValue s.freeIdx).toNat
        let s0 := runBody { s with freeIdx := s.freeIdx + 1 } k l (match t.body with
          | .record ops => .record (ops.take (v % (ops.length + 1)))
          | .sample rows => .sample (rows.take (v % (rows.length + 1))))
        let r := releaseHold (standFault s0 k) l.id ti
        ((∀ o j, l.kind ≠ .rerun o j) → exec (.arrayResidueFault n) s = .next (postReady { r with
           nextId := r.nextId + 1
           launches := (r.launches.map fun y => if y.id = l.id then
               { y with tasks := y.tasks.set ti { t with stand := some k, reruns := t.reruns + 1 } } else y) ++
             [{ l with id := r.nextId, kind := .rerun l.id ti, cont := true, posted := false, target := 0, release := none
                       tasks := [{ t with stand := none }], after := [], gather := none, moves := [], awaits := [], slices := []
                       lists := [], room := 0, amps := 0, granted := none, fired := none, stallLate := 0, stallCredit := 0 }] }
           l.part)) ∧
        (∀ o j y, l.kind = .rerun o j → r.launch? o = some y → exec (.arrayResidueFault n) s = .next
          (postReady (failStep (dropLaunch r l.id) y) l.part)) ∧
        ∀ y, s0.stands[k]? = some y → ∃ ctr,
          lookupD ctr ⟨.unitFault, 0, 0⟩ 0 = lookupD s0.ctr ⟨.unitFault, 0, 0⟩ 0 + 1 ∧
          let test := match y.part with
            | some i => [ownLaunch s0 i (.standTest k) 24]
            | none => []
          standFault s0 k = { s0 with
            stands := s0.stands.set k { y with
              status := .testing, task := none, faults := recent s0 dayCounts y.faults ++ [s0.now] }
            ctr := ctr, nextId := s0.nextId + test.length, launches := s0.launches ++ test
            cut := { s0.cut with requests := s0.cut.requests ++ test.map fun z =>
              ⟨z.id, z.part, 24, z.target, z.target - 512, 0, none⟩ } }) ∧
       (l.fired.getD 0 + watchdogCounts t.watchdog ≤ s.now →
         exec (.taskWatchdog n) s = exec (.arrayResidueFault n) s) ∧
       (s.now < l.fired.getD 0 + watchdogCounts t.watchdog → exec (.taskWatchdog n) s = .next s))

/-! ### Moves and fills -/

/-- MOVE_DESCRIPTOR_START (06 R166, R170, R171; 13 R345, R353): the front descriptor of a posted launch starts once everything before
it is complete, its class's regulator lets it pass and the Skidder's turn is its partition's; a footprint outside the partition's
Landing or T1 is a protection violation, one outside its host ranges also puts it in FAULTED, and is counted as HOST_PROT; from the
Landing its bytes move at once; from T1 a fill starts, which the launch awaits; from a peer that cannot be asked the batch ends with
ST_TIMEOUT.

Fills (05 R131, R135, R136, R141, R144; 13 R353; 15 R417, R491): one completes with the bytes of T1, once its class's regulator
lets it pass and no page of them is poisoned or being fetched again, till when what is intact lands, or with those that have come from
outside; a range that leaves the T1 share is a protection violation. It fails with its source, with a word that stays uncorrectable,
which poisons the page, or after 100 ms when it comes from outside. -/
def Obligations.MovesAndFills : Prop :=
  (∀ (n : Nat) (s : State), s.power.railTripped = false →
     (s.launch? n = none → exec (.moveDescriptorStart n) s = .next s) ∧
     ∀ l, s.launch? n = some l →
       (l.moves = [] → exec (.moveDescriptorStart n) s = .next s) ∧
       ∀ raw rest, l.moves = raw :: rest →
         let d := descParse raw
         (flowHolds s l.part d.flow = true → exec (.moveDescriptorStart n) s = .next (s.modReg l.part d.flow fun r =>
           { r with waiting := true })) ∧
         (flowHolds s l.part d.flow = false →
           (l.posted = false ∨ l.gather.isSome = true ∨ l.awaits ≠ [] ∨ skidderTurn s ≠ some l.part) →
           exec (.moveDescriptorStart n) s = .next s) ∧
         (flowHolds s l.part d.flow = false → l.posted = true → l.gather = none → l.awaits = [] → skidderTurn s = some l.part →
           let u := { s with units := s.units.map fun x => if x.unit = .skidder then { x with last := some l.part } else x }
           let found := d.check (u.part l.part) [] (u.landBytes l.part)
           let counted := { u with ctr := setKey u.ctr ⟨.hostProt, l.part, 0⟩ (lookupD u.ctr ⟨.hostProt, l.part, 0⟩ 0 + 1) }
           (found = .landing → exec (.moveDescriptorStart n) s = .next (protection u l.part)) ∧
           (found = .host → exec (.moveDescriptorStart n) s = .next (enterFaulted counted l.part)) ∧
           (found = .both → exec (.moveDescriptorStart n) s = .next (protection counted l.part)) ∧
           (found = .ok →
             (d.srcSpace = 0 →
               (chipDstFits u l.part d (d.source (u.landBytes l.part)) = false →
                 exec (.moveDescriptorStart n) s = .next (protection u l.part)) ∧
               (chipDstFits u l.part d (d.source (u.landBytes l.part)) = true →
                 (∀ w, runDesc u l.part d (d.source (u.landBytes l.part)) = some w → exec (.moveDescriptorStart n) s = .next
                   { w with launches := w.launches.map fun x => if x.id = n then { x with moves := x.moves.drop 1 } else x }) ∧
                 (runDesc u l.part d (d.source (u.landBytes l.part)) = none →
                   exec (.moveDescriptorStart n) s = .next (failBatch u l .fault)))) ∧
             (d.srcSpace = 1 → exec (.moveDescriptorStart n) s = .next { u with
               nextId := u.nextId + 1
               fills := u.fills ++ [{ id := u.nextId, part := l.part, space := 1, peer := 0, addr := d.srcSpan.1.toNat
                                      len := (d.srcSpan.2 - d.srcSpan.1).toNat, forWhat := .move l.id raw, issued := u.now
                                      got := [] }]
               launches := u.launches.map fun x => if x.id = l.id then { x with awaits := x.awaits ++ [u.nextId] } else x }) ∧
             (d.srcSpace ≠ 0 → d.srcSpace ≠ 1 → peerUp u (w16 d.peer) = false →
               exec (.moveDescriptorStart n) s = .next (failBatch u l .timeout))))) ∧
  (∀ (n : Nat) (s : State), s.power.railTripped = false →
     (s.fill? n = none → ∀ d c, exec (.fillComplete n d) s = .next s ∧ exec (.fillFailed n c) s = .next s) ∧
     ∀ f, s.fill? n = some f →
       (flowHolds s f.part (fillFlow f) = true → ∀ d, exec (.fillComplete n d) s = .next (s.modReg f.part (fillFlow f) fun r =>
         { r with waiting := true })) ∧
       (let r := fillRange s f (fillT1 s f)
        flowHolds s f.part (fillFlow f) = false → f.space = 1 → (∀ c t, f.forWhat ≠ .spill c t) → ∀ d,
         (t1Ok (s.part f.part).frames r.1 r.2 = false → exec (.fillComplete n d) s = .next (protection s f.part)) ∧
         (t1Ok (s.part f.part).frames r.1 r.2 = true →
           ((∃ pg ∈ fillPages s f, pagePoisoned s f.part pg = true ∨ repairOf s f.part pg = true) →
             exec (.fillComplete n d) s = .next (fillPartial s f (intactT1 s f))) ∧
           ((∀ pg ∈ fillPages s f, pagePoisoned s f.part pg = false ∧ repairOf s f.part pg = false) →
             exec (.fillComplete n d) s = .next (fillArrived (readCorrects s f.part (fillPages s f)) f (fillT1 s f))))) ∧
       (flowHolds s f.part (fillFlow f) = false → f.space ≠ 1 → (∀ c t, f.forWhat ≠ .spill c t) → ∀ d, f.len ≤ f.got.length →
         (fillRange s f (fillGot f f.got)).2 ≤ f.got.length →
         exec (.fillComplete n d) s = .next (fillArrived (dropAsked s n) f (fillGot f f.got))) ∧
       (flowHolds s f.part (fillFlow f) = false → f.space ≠ 1 → (∀ c t, f.forWhat ≠ .spill c t) → ∀ d, f.got.length < f.len →
         d.length < f.len → exec (.fillComplete n d) s = .next s) ∧
       (f.space ≠ 1 → exec (.fillFailed n .t2Source) s = .next (sourceFails s f .fault)) ∧
       (f.space = 1 → exec (.fillFailed n .t2Source) s = .next s) ∧
       (∀ page pg, pageHome s page = some (f.part, pg) → pg ∈ fillPages s f → page ∉ s.t1.poison →
         ∃ u, exec (.fillFailed n (.uncorrectable page)) s = .next (pageLost (fillPartial u f (intactT1 u f)) f.part pg) ∧
           u.t1.poison = page :: s.t1.poison ∧
           u = { s with t1 := { s.t1 with poison := u.t1.poison, poisonAt := u.t1.poisonAt }, ctr := u.ctr }) ∧
       (∀ t, f.forWhat = .load t → (fillObject s f).any (·.2) = true →
         exec (.fillFailed n .chipper) s = .next (loadEnds ((dropAsked s n).dropFill n) t .invalid)) ∧
       (f.space ≠ 1 → f.issued + 100000000 ≤ s.now → exec (.t2FillTimeout n) s = .next (sourceFails s f .timeout)) ∧
       ((f.space = 1 ∨ s.now < f.issued + 100000000) → exec (.t2FillTimeout n) s = .next s))

/-! ### Shared units and faults -/

/-- Slices and faults of shared units (09 R251; 10 R280, R281; 13 R345, R353; 15 R405, R413, R414): a unit that ends a slice lets go of
its work, which goes back in line or leaves its result once its class's regulator lets its accesses pass, and the credits of its turn
return at the next boundary; a Tally task keeps its pipeline until it has finished. A fault in service is counted, takes a unit with
siblings out of service for its self-test, and its work is run again from its start, a Tally task only once. A Sapwood part stops at
its budget. What waited for slices goes on after each. -/
def Obligations.UnitsAndFaults : Prop :=
  ∀ (u : EngineUnit) (s : State), s.power.railTripped = false →
    let freed := fun (u : EngineUnit) (s : State) =>
      let ids := (s.jobs.filter fun j => j.unit == some u).map (·.id)
      unride (dropTurns s ids) ids
    (unitJob s u = none → ∀ d, exec (.engineSliceEnd u d) s = .next (settle s) ∧ exec (.sliceWatchdog u) s = .next s) ∧
    (∀ j, unitJob s u = some j →
      (∀ k, u = .tally k → exec (.engineSliceEnd u false) s = .next (settle s)) ∧
      ((∀ k, u ≠ .tally k) → ∃ t, exec (.engineSliceEnd u false) s = .next (settle t) ∧
        t = { s with jobs := t.jobs, units := t.units, launches := t.launches, nextId := t.nextId, parts := t.parts
                     cut := { s.cut with requests := t.cut.requests, held := (freed u s).cut.held } } ∧
        t.jobs.map (fun j => (j.id, j.part, j.ticket, j.ctx, j.kind, j.reruns)) =
          s.jobs.map fun j => (j.id, j.part, j.ticket, j.ctx, j.kind, j.reruns)) ∧
      (flowHolds s j.part (unitFlow u) = false → exec (.engineSliceEnd u true) s =
        .next (settle (feedUnits (feedUnit (jobDone j (freeUnit (tallyCorrects s u) u)) u)))) ∧
      (flowHolds s j.part (unitFlow u) = true → exec (.engineSliceEnd u true) s =
        .next (settle (s.modReg j.part (unitFlow u) fun r => { r with waiting := true })))) ∧
    (∀ x, s.unit? u = some x →
      (x.status ≠ .inService → exec (.engineFault u) s = .next (settle s)) ∧
      (x.status = .inService →
        (unitJob s u = none → exec (.engineFault u) s = .next (settle (feedUnits (unitFaulted s u)))) ∧
        ∀ j, unitJob s u = some j →
          exec (.sliceWatchdog u) s = exec (.engineFault u) s ∧
          ((∀ k, u ≠ .tally k) → exec (.engineFault u) s = .next (settle (feedUnits ((unitFaulted s u).modJob j.id fun j =>
            { j with reruns := j.reruns + 1, started := none })))) ∧
          (∀ k, u = .tally k → exec (.tallyFault k) s = exec (.engineFault u) s ∧
            (j.reruns = 0 → exec (.tallyFault k) s = .next (settle (feedUnits ((unitFaulted s u).modJob j.id fun j =>
              { j with reruns := j.reruns + 1 })))) ∧
            (1 ≤ j.reruns → exec (.tallyFault k) s = .next (settle (feedUnits (tallyGivesUp (unitFaulted s u) j))))))) ∧
    (unitFaulted s u = { freed u s with
      units := (freed u s).units.map fun x => if x.unit = u
        then { x with job := none
                      status := if hasSiblings u = true then .testing else x.status
                      faults := if hasSiblings u = true then recent s dayCounts x.faults ++ [s.now] else x.faults } else x
      jobs := (freed u s).jobs.map fun j => if j.unit = some u then { j with unit := none } else j
      ctr := setKey s.ctr ⟨.unitFault, 0, unitKind u⟩ (lookupD s.ctr ⟨.unitFault, 0, unitKind u⟩ 0 + 1) }) ∧
    ∀ n j id q p probe at_ y, s.job? n = some j → j.kind = .searchPart id q p probe → j.started = some at_ →
      s.search? id = some y →
      (y.block.sapwood = true → probe = false → at_ + 1000 * y.block.budgetUs ≤ s.now → ∃ turns,
        exec (.sapwoodBudgetExpiry n) s = .next (settle (feedUnits (partEnds j (some turns)
          { (match j.unit with
              | some v => freeUnit s v
              | none => s) with freeIdx := s.freeIdx + 1 })))) ∧
      ((y.block.sapwood = false ∨ probe = true ∨ s.now < at_ + 1000 * y.block.budgetUs) →
        exec (.sapwoodBudgetExpiry n) s = .next s)

/-- Self-tests after a fault (15 R414, R415): a unit or stand that passes, with fewer than three faults in 24 h, is back in
service; else it is retired, and the lowest spare tests itself for the stand. A spare that passes takes the number and the
partition of the stand it was tested for, which is an event; one that fails is retired, and the next is tried. A unit that is not
under test keeps its state, and a stand whose test waits for its current (17 X19), or for a re-bind (15 R426), stays under test. Then
what was held for want of a stand is posted. -/
def Obligations.SelfTests : Prop :=
  ∀ (s : State) (pass : Bool), s.power.railTripped = false →
    (∀ u x, s.unit? u = some x →
      (x.status ≠ .testing → exec (.unitSelftestDone (.engine u) pass) s = .next (postAll s)) ∧
      (x.status = .testing → pass = true → (recent s dayCounts x.faults).length < 3 →
        exec (.unitSelftestDone (.engine u) pass) s = .next (postAll (feedUnits
          { s with units := s.units.map fun y => if y.unit = u then { y with status := .inService } else y }))) ∧
      (x.status = .testing → (pass = false ∨ 3 ≤ (recent s dayCounts x.faults).length) →
        exec (.unitSelftestDone (.engine u) pass) s = .next (postAll (retireUnit s u)))) ∧
    (∀ n k x, standAt s n = some k → s.stands[k]? = some x →
      ((x.status ≠ .testing ∨ kindFired s (.standTest k) = false) →
        exec (.unitSelftestDone (.stand n) pass) s = .next (postAll s)) ∧
      (x.status = .testing → kindFired s (.standTest k) = true → pass = true → (recent s dayCounts x.faults).length < 3 →
        exec (.unitSelftestDone (.stand n) pass) s = .next (postAll
          { dropTests s [k] with stands := s.stands.set k { x with status := .active } })) ∧
      (x.status = .testing → kindFired s (.standTest k) = true → (pass = false ∨ 3 ≤ (recent s dayCounts x.faults).length) →
        exec (.unitSelftestDone (.stand n) pass) s = .next (postAll (retireStand (dropTests s [k]) k)))) ∧
    (∀ j k old x, spareReady s = some (j, k) → s.stands[k]? = some old → s.stands[j]? = some x → j ≠ k →
      (x.status = .sparetesting ∧ x.replaces = some k ∧ kindFired s (.standTest j) = true ∧ rebindWaits s old.part = false) ∧
      exec (.spareSelftestDone true) s = .next (postAll { dropTests s [j] with
        stands := (s.stands.set j { x with
          status := .active, logical := old.logical, part := old.part, task := none, replaces := none }).set k
          { old with logical := none, part := none }
        ident := { s.ident with events := s.ident.events ||| 1, degraded := true } }) ∧
      exec (.spareSelftestDone false) s = .next (postAll (trySpare
        { dropTests s [j] with
          stands := s.stands.set j { x with status := .retired, replaces := none }
          ctr := setKey s.ctr ⟨.unitRetired, 0, 0⟩ (lookupD s.ctr ⟨.unitRetired, 0, 0⟩ 0 + 1) } k))) ∧
    (spareReady s = none → exec (.spareSelftestDone pass) s = .next (postAll s))

/-! ### Memories -/

/-- LANDING_UE and SEGMENT_ZEROED (05 R124, R129; 15 R416, R424): a double-bit error is counted and dated; a second one of its
segment within 24 h retires it; in a CTRL area it puts the partition in FAULTED; the access that failed runs again, or what it
was for is replayed or ends. A zeroed segment is free again; where no bind and no re-bind waits, that is all.

PATROL_SCRUB, CHANNEL_RETIRE, CHANNEL_COPY_COMPLETE and CACHE_COUNT_HALVE (05 R141, R142, R148, R149; 08 R230; 15 R419): a
corrected word is counted for its channel, an uncorrectable one poisons its page; a channel is retired, one at a time, when it
died or meets a condition; with its last page copied it is retired, which is an event; every count of the row cache halves
after 65,536 fetches. -/
def Obligations.MemoryEvents : Prop :=
  (∀ (g t : Nat) (b : Bool) (s : State), s.power.railTripped = false →
     (6144 ≤ g → exec (.landingUe g t b) s = .next s) ∧
     (g < 6144 →
       let s1 := { s with
         ctr := setKey s.ctr ⟨.landingUe, 0, 0⟩ (lookupD s.ctr ⟨.landingUe, 0, 0⟩ 0 + 1)
         segErrs := (s.segErrs.filter fun e => decide (s.now < e.2 + dayCounts)) ++ [(g, s.now)] }
       let again := s.segErrs.any fun e => e.1 == g && decide (s.now < e.2 + dayCounts)
       (ctrlPart s g = none → exec (.landingUe g t b) s =
         .next (accessFailed (if again = true then retireSegment s1 g else s1) t b)) ∧
       ∀ i, ctrlPart s g = some i → exec (.landingUe g t b) s =
         .next (accessFailed (if again = true then retireSegment (enterFaulted s1 i) g else enterFaulted s1 i) t b)) ∧
     (s.cmds = [] → (∀ i, i < 32 → (s.part i).rebind = none) →
       exec (.segmentZeroed g) s = .next { s with zeroing := s.zeroing.filter (· != g) })) ∧
  (∀ s : State, s.power.railTripped = false →
     (∀ page i pg p g, pageHome s page = some (i, pg) → t1Page (s.part i).frames (pg * pageBytes) = some (p, g) →
       s.t1.written p g = true → page ∉ s.t1.poison →
       exec (.patrolScrub page .clean) s = .next s ∧
       (∀ n, n ≠ 0 → exec (.patrolScrub page (.corrected n)) s = .next { s with
         t1 := { s.t1 with correctedAt := (s.t1.correctedAt.filter fun e => decide (s.now < e.2.1 + hourCounts)) ++
                                           [(s.t1.channelOf page, s.now, n)] }
         ctr := setKey s.ctr ⟨.memCe, 0, s.t1.channelOf page⟩ (lookupD s.ctr ⟨.memCe, 0, s.t1.channelOf page⟩ 0 + n) }) ∧
       exec (.patrolScrub page .uncorrectable) s = .next (pageLost { s with
         t1 := { s.t1 with
           poison := page :: s.t1.poison
           poisonAt := (s.t1.poisonAt.filter fun e => decide (s.now < e.2 + dayCounts)) ++ [(s.t1.channelOf page, s.now)] }
         ctr := setKey s.ctr ⟨.memUe, 0, s.t1.channelOf page⟩ (lookupD s.ctr ⟨.memUe, 0, s.t1.channelOf page⟩ 0 + 1) } i pg)) ∧
     (∀ page found, page ∈ s.t1.poison → exec (.patrolScrub page found) s = .next s) ∧
     (∀ c dead, (128 ≤ c ∨ c ∈ s.t1.retired ∨ s.t1.copying.isSome = true ∨ (dead = false ∧ channelDue s c = false)) →
       exec (.channelRetire c dead) s = .next s) ∧
     (∀ c, c < 128 → c ∉ s.t1.retired → s.t1.copying = none → channelDue s c = true → ∀ l, furtherReserve s = some l →
       exec (.channelRetire c false) s = .next { s with t1 := { s.t1 with copying := some c, reserve := s.t1.reserve ++ l } }) ∧
     (∀ c, s.t1.copying = some c → exec (.channelCopyComplete c) s = .next { s with
       t1 := { s.t1 with copying := none, retired := s.t1.retired ++ [c] }
       ident := { s.ident with events := s.ident.events ||| 2, degraded := true } }) ∧
     (∀ c, s.t1.copying ≠ some c → exec (.channelCopyComplete c) s = .next s) ∧
     ∀ i, let c := (s.part i).cache
       (c.fetches < 65536 → exec (.cacheCountHalve i) s = .next s) ∧
       (65536 ≤ c.fetches → exec (.cacheCountHalve i) s = .next { s with parts := s.parts.set i { s.part i with
         cache := { ways := c.ways.map fun w => { w with count := w.count / 2 }
                    candidates := c.candidates.map fun x => (x.1, x.2.1, x.2.2 / 2), fetches := c.fetches - 65536 } } }))

/-! ### Power -/

/-- The rounds of the Cut arbiter (15 R402 to R405): at multiples of 256 the credits of complete tasks are free, grants that
did not fire in their epoch lapse, and the requests that name the next epoch or one before are decided, oldest first; 128 counts
later those that name it and are left. A grant keeps the credits held, the reserve of 128 A and its own within the budget, or
is the only one, at most 1,152 A; none is given in CRIT, past the partition's cap, or past an older request that blocks.

The budget and the thermal states (15 R399, R400, R410): B is the loop's term, at least 256 A and at most 1,280 A and Bth,
and starts at 256 A, PS at 1,000 W, at every reset; at
105.0 degrees a sample gives CRIT, at 110.0 the core rail is turned off, and the alert pin is low but in NORMAL (18 R466); Bth falls by 32 A for each millisecond in WARN, not
below 256 A, and returns with NORMAL. Sensor values other than the eight temperatures are only kept. -/
def Obligations.PowerAndHeat : Prop :=
  (∀ s : State, s.power.railTripped = false →
     (s.now % 256 ≠ 0 → exec .cutMainRound s = .next s ∧ exec .epochBoundary s = .next s) ∧
     (s.now % 256 ≠ 128 → exec .cutLateRound s = .next s) ∧
     (s.now % 256 = 0 →
       exec .cutMainRound s = .next (cutRound (s.now + 256) (fun r => decide (r.epoch ≤ s.now + 256)) (epochEnds s)) ∧
       exec .epochBoundary s = .next (askAgain { s with
         cut := { s.cut with held := s.cut.held.filter fun h => !h.done }
         launches := s.launches.map fun l => match l.granted with
           | some e => if l.fired.isNone && decide (e + 256 ≤ s.now) then { l with granted := none } else l
           | none => l })) ∧
     (s.now % 256 = 128 →
       exec .cutLateRound s = .next (cutRound (s.now + 128) (fun r => r.epoch == s.now + 128) (askAgain s))) ∧
     ∀ (e : Nat) (r : CutRequest),
       let older := (agedRequests s).takeWhile fun x => x.launch != r.launch
       (refusal s r older = none →
         (heldAmps s + 128 + r.amps ≤ s.cut.b ∨ heldAmps s = 0 ∧ r.amps ≤ 1152) ∧ s.cut.therm ≠ .crit ∧
         (s.cut.caps.getD r.part 0 = 0 ∨ heldPart s r.part + r.amps ≤ s.cut.caps.getD r.part 0) ∧
         (∀ x ∈ older, x.refusals < 2) ∧
         ∃ ctr, decideOne e s r = { s with
           cut := { s.cut with requests := s.cut.requests.filter fun x => x.launch != r.launch }
           launches := s.launches.map fun l => if l.id = r.launch then { l with granted := some e } else l
           ctr := ctr }) ∧
       ∀ c, refusal s r older = some c → decideOne e s r = { s with cut := { s.cut with
         requests := s.cut.requests.map fun x => if x.launch = r.launch
           then { x with epoch := e + 256, refusals := x.refusals + 1, cause := some c } else x } }) ∧
  (∀ s : State, s.power.railTripped = false →
     (∀ pavg peak : Nat,
       let loop := (s.cut.b : Int) + ((s.cut.ps : Int) - (pavg : Int)).fdiv 2
       let b := max 256 loop.toNat
       ∃ limit, exec (.budgetUpdate pavg peak) s = .next { s with cut := { s.cut with
           b := min b (min 1280 s.cut.bth), limit, pavg, peak := max s.cut.peak peak, peakHr := max s.cut.peakHr peak } } ∧
         limit = if b ≤ min 1280 s.cut.bth then (if 256 ≤ loop.toNat then 0 else 1)
           else if s.cut.bth < 1280 then 3 else (2 : BitVec 3)) ∧
     (∀ c, (resetTo s c).cut.b = 256 ∧ (resetTo s c).cut.ps = 1000) ∧
     (∀ temps mv ma cmv, temps.length ≠ 8 → exec (.thermalSample temps mv ma cmv) s = .next s) ∧
     (∀ (temps : List Int) (mv ma cmv : Nat) (tmax : Int), temps.length = 8 → tmax ∈ temps.take 6 → (∀ x ∈ temps.take 6, x ≤ tmax) →
       ∃ t, exec (.thermalSample temps mv ma cmv) s = .next t ∧
         t = { s with
           cut := { s.cut with therm := t.cut.therm, bth := t.cut.bth, tmax, temps, milliVolts := mv, milliAmps := ma
                               coreMilliVolts := cmv }
           power := { s.power with railTripped := decide (1100 ≤ tmax) }, ctr := t.ctr } ∧
         (1050 ≤ tmax → t.cut.therm = .crit) ∧
         (tmax < 1050 → t.cut.therm = match s.cut.therm with
           | .normal => if 950 ≤ tmax then ThermState.warn else .normal
           | .warn => if tmax < 900 then .normal else .warn
           | .crit => if tmax < 1000 then .warn else .crit) ∧
         (thermPin t = true ↔ t.cut.therm = .normal) ∧
         (s.cut.therm = .warn → t.cut.therm ≠ .normal → t.cut.bth = max 256 (s.cut.bth - 32)) ∧
         (s.cut.therm ≠ .crit → t.cut.therm = .normal → t.cut.bth = 1280)))

/-! ### The host bridge -/

/-- Accesses of the host's windows (02 R31 to R34; 14 R387 to R393, R395): one the endpoint does not see changes nothing; below 32 GT/s
it is an Unsupported Request, a read completing without bytes; a region of the bridge's own pair is written and read at once; another
module's goes in one frame of flow RELAY, a read being kept until its answer; with no route the frame is counted, the function's
UNREACH is set and a read returns all ones, as it does 2 ms after it was relayed, its tag being kept for the answer still to come. -/
def Obligations.HostAccesses : Prop :=
  ∀ (fn bar off : Nat) (e : Slot) (o : Nat) (s : State), s.power.railTripped = false →
    let aer := fun (f b : Nat) => setKey s.bridge.aer f (lookupD s.bridge.aer f 0 ||| BitVec.ofNat 32 (2 ^ b))
    let errs := fun (f : Nat) => if f ∈ s.bridge.winErr then s.bridge.winErr else s.bridge.winErr ++ [f]
    (∀ d, accessOk s fn bar off d.length = false → exec (.hostWindowWrite fn bar off d) s = .next s) ∧
    (∀ n, accessOk s fn bar off n = false → exec (.hostWindowRead fn bar off n) s = .next s) ∧
    (relays s = false →
      (∀ d, accessOk s fn bar off d.length = true →
        exec (.hostWindowWrite fn bar off d) s = .next { s with bridge := { s.bridge with aer := aer fn 20 } }) ∧
      ∀ n, accessOk s fn bar off n = true → exec (.hostWindowRead fn bar off n) s = .next { s with
        bridge := { s.bridge with aer := aer fn 20 }, hostOut := s.hostOut ++ [.readDone fn (freeRelayTag s) []] }) ∧
    (relays s = true → windowPlace s fn bar off = .region e o →
      (w16 e.module = s.myId → e.pair < 64 → (s.pair e.pair).bound = true →
        (∀ d, accessOk s fn bar off d.length = true → exec (.hostWindowWrite fn bar off d) s =
          .next { s with landing := regionWrite s.landing (s.pair e.pair).segs o d }) ∧
        (∀ n, accessOk s fn bar off n = true → exec (.hostWindowRead fn bar off n) s = .next { s with
          hostOut := s.hostOut ++ [.readDone e.fn (freeRelayTag s) (regionRead s.landing (s.pair e.pair).segs o n)] })) ∧
      (w16 e.module ≠ s.myId → reachable s (w16 e.module) = true →
        (∀ d, accessOk s fn bar off d.length = true → exec (.hostWindowWrite fn bar off d) s =
          .next (sendFrame s 3 (mkFrame .mboxWrite (w16 e.module) 0xFF 0xFF (relayAddr e.pair false o) (w32 d.length)
            (writeTag e.fn) d))) ∧
        (∀ n, accessOk s fn bar off n = true → exec (.hostWindowRead fn bar off n) s =
          .next (sendFrame { s with bridge := { s.bridge with
              relays := s.bridge.relays ++
                [{ tag := freeRelayTag s, fn := e.fn, module := e.module, len := n, sent := s.now }] } }
            3 (mkFrame .mboxRead (w16 e.module) 0xFF 0xFF (relayAddr e.pair false o) (w32 n) (w16 (freeRelayTag s)) [])))) ∧
      (w16 e.module ≠ s.myId → reachable s (w16 e.module) = false →
        let lost := { s with
          bridge := { s.bridge with winErr := errs e.fn, aer := aer e.fn 15 }
          ctr := setKey s.ctr ⟨.linkUnroutable, 0, 0⟩ (lookupD s.ctr ⟨.linkUnroutable, 0, 0⟩ 0 + 1) }
        (∀ d, accessOk s fn bar off d.length = true → exec (.hostWindowWrite fn bar off d) s = .next lost) ∧
        (∀ n, accessOk s fn bar off n = true → exec (.hostWindowRead fn bar off n) s = .next { lost with
          hostOut := s.hostOut ++ [.readDone e.fn (freeRelayTag s) (List.replicate n 0xFF)] }))) ∧
    (relays s = true → windowPlace s fn bar off = .slotPage e o → w16 e.module = s.myId →
      ∀ d, accessOk s fn bar off d.length = true →
        exec (.hostWindowWrite fn bar off d) s = .next (slotWriteBytes e.pair o d s)) ∧
    (relays s = true → windowPlace s fn bar off = .nothing →
      (∀ d, exec (.hostWindowWrite fn bar off d) s = .next s) ∧
      ∀ n, accessOk s fn bar off n = true → exec (.hostWindowRead fn bar off n) s =
        .next { s with hostOut := s.hostOut ++ [.readDone fn (freeRelayTag s) (List.replicate n 0)] }) ∧
    ∀ tag r, s.bridge.relays.find? (fun r => r.tag == tag) = some r →
      ((r.dead = true ∨ s.now < r.sent + 2000000) → exec (.relayReadTimeout tag) s = .next s) ∧
      (r.dead = false → r.sent + 2000000 ≤ s.now → exec (.relayReadTimeout tag) s = .next { s with
        bridge := { s.bridge with
          relays := s.bridge.relays.map fun x => if x.tag = tag then { x with dead := true } else x
          winErr := errs r.fn, aer := aer r.fn 15 }
        hostOut := s.hostOut ++ [.readDone r.fn tag (List.replicate r.len 0xFF)]
        ctr := setKey s.ctr ⟨.bridgeRelayTimeout, 0, 0⟩ (lookupD s.ctr ⟨.bridgeRelayTimeout, 0, 0⟩ 0 + 1) })

/-- The endpoint (14 R389, R390, R394 to R396; 05 R136): a reset of a function clears what it holds, its relayed reads being dropped
when their answers come; link-down ends every relay, link-up gives the rate; configuration writes set the virtual functions, bus
mastering, MSI-X and the sizes of payloads and reads, and clear error bits; a completion of a read of host memory ends the read and
carries its bytes to the fill or the module that asked, an error being recorded as a timeout or an abort and ending the other reads
for the same asker. Then reads that wait go out. -/
def Obligations.EndpointEvents : Prop :=
  ∀ s : State, s.power.railTripped = false →
    (s.ident.bridge = false → (∀ fn, exec (.functionLevelReset fn) s = .next s) ∧ exec .pcieLinkDown s = .next s ∧
      (∀ g w, exec (.pcieLinkUp g w) s = .next s) ∧ ∀ w, exec (.configurationSpaceWrite w) s = .next s) ∧
    (s.ident.bridge = true →
      (∀ fn, fn ≤ s.bridge.numVFs → exec (.functionLevelReset fn) s = .next { s with bridge := { s.bridge with
        relays := s.bridge.relays.map fun r => if r.fn = fn then { r with dead := true } else r
        winErr := s.bridge.winErr.filter (· != fn)
        msixEnabled := s.bridge.msixEnabled.filter (· != fn)
        msixTable := s.bridge.msixTable.filter fun e => e.1.1 != fn
        msixPending := s.bridge.msixPending.filter fun e => e.1 != fn } }) ∧
      exec .pcieLinkDown s = .next { s with bridge := { s.bridge with
        relays := s.bridge.relays.map fun r => { r with dead := true }, rate := 0 } } ∧
      (∀ g w, w ∈ [16, 8, 4] → g ∈ [2, 5, 8, 16, 32, 64, 128] →
        exec (.pcieLinkUp g w) s = .next (issueReads 16384 { s with bridge := { s.bridge with rate := g } })) ∧
      (∀ g w, w ∉ [16, 8, 4] → exec (.pcieLinkUp g w) s = .next s) ∧
      (s.bridge.rate ≠ 0 →
        (∀ n, n ≤ 32 → exec (.configurationSpaceWrite (.numVFs n)) s =
          .next { s with bridge := { s.bridge with numVFs := n } }) ∧
        (∀ n, 32 < n → exec (.configurationSpaceWrite (.numVFs n)) s = .next s) ∧
        (∀ n, n ∈ [128, 256, 512] → exec (.configurationSpaceWrite (.maxPayload n)) s =
          .next { s with bridge := { s.bridge with maxPayload := n } }) ∧
        (∀ n, n ∈ [128, 256, 512, 1024, 2048, 4096] → exec (.configurationSpaceWrite (.maxRead n)) s =
          .next { s with bridge := { s.bridge with maxRead := n } }) ∧
        (∀ fn, fn ≤ s.bridge.numVFs →
          exec (.configurationSpaceWrite (.busMaster fn false)) s = .next (issueReads 16384
            { s with bridge := { s.bridge with busMaster := s.bridge.busMaster.filter (· != fn) } }) ∧
          (∀ m, exec (.configurationSpaceWrite (.aerClear fn m)) s = .next { s with bridge := { s.bridge with
            aer := setKey s.bridge.aer fn (lookupD s.bridge.aer fn 0 &&& ~~~m) } }) ∧
          (fn ∉ s.bridge.msixEnabled → fn ∉ s.bridge.busMaster →
            exec (.configurationSpaceWrite (.busMaster fn true)) s = .next (issueReads 16384
              { s with bridge := { s.bridge with busMaster := s.bridge.busMaster ++ [fn] } }) ∧
            exec (.configurationSpaceWrite (.msixEnable fn true)) s =
              .next { s with bridge := { s.bridge with msixEnabled := s.bridge.msixEnabled ++ [fn] } })) ∧
        ∀ fn on, s.bridge.numVFs < fn → exec (.configurationSpaceWrite (.busMaster fn on)) s = .next s ∧
          exec (.configurationSpaceWrite (.msixEnable fn on)) s = .next s)) ∧
    (∀ k, s.bridge.readWait = [] → issueReads k s = s) ∧
    ∀ tag h, s.bridge.hostReads.find? (fun h => h.tag == tag) = some h → oldestRead s h = true →
      let s1 := { s with bridge := { s.bridge with hostReads := s.bridge.hostReads.filter fun x => x.tag != tag } }
      let same := fun (m : W16) (t : W16) (f : Option Nat) => m == h.module && t == h.frameTag && f == h.fill
      let failed := fun (b : Nat) => ({ s1 with
        freeIdx := s.freeIdx + 1
        bridge := { s1.bridge with
          aer := setKey s.bridge.aer h.fn (lookupD s.bridge.aer h.fn 0 ||| BitVec.ofNat 32 (2 ^ b))
          readWait := s.bridge.readWait.filter fun a => !same a.module a.frameTag a.fill
          hostReads := s1.bridge.hostReads.map fun x =>
            if same x.module x.frameTag x.fill = true then { x with dead := true } else x } } : State)
      (h.dead = true → ∀ d, d.length = h.len → exec (.hostCompletion tag true d) s = .next (issueReads 16384 s1)) ∧
      (h.dead = false → h.module ≠ s.myId →
        (∀ d, d.length = h.len →
          exec (.hostCompletion tag true d) s = .next (issueReads 16384 (sendReadData s1 h.module true h.frameTag d))) ∧
        ∀ d, ∃ b, (b = 14 ∨ b = 15) ∧ exec (.hostCompletion tag false d) s =
          .next (issueReads 16384 (sendReadData (failed b) h.module true h.frameTag []))) ∧
      (∀ n, h.dead = false → h.module = s.myId → h.fill = some n →
        (∀ d, d.length = h.len → exec (.hostCompletion tag true d) s = .next (issueReads 16384 (fillGrows s1 n d))) ∧
        ∀ f, s.fill? n = some f → ∀ d, ∃ b, (b = 14 ∨ b = 15) ∧
          exec (.hostCompletion tag false d) s = .next (issueReads 16384 (sourceFails (failed b) f .fault))) ∧
      ∀ d, d.length ≠ h.len → exec (.hostCompletion tag true d) s = .next s

/-! ### Frames -/

/-- A frame comes in (14 R369, R371, R372, R375, R379): a port that is not UP takes none, nor one of another kind or of more
than 20 flits, nor one it did not wait for after a discard. One for this module is delivered in the order of its flow, held
while it is early, dropped when it was delivered before; one for another module goes on by a link further, and not past 8. -/
def Obligations.FrameReceived : Prop :=
  ∀ (i : Instr) (k : FrameKind) (port : Nat) (f : Frame) (s : State), frameOf i = some (k, port, f) →
    s.power.railTripped = false →
    let p := s.port port
    ((p.state ≠ .up ∨ f.kind ≠ k ∨ 20 < frameFlits f ∨ (p.discarding = true ∧ f.linkSeq ≠ p.rxSeq + 1)) →
      exec i s = .next s) ∧
    (p.state = .up → f.kind = k → frameFlits f ≤ 20 → (p.discarding = false ∨ f.linkSeq = p.rxSeq + 1) →
      let s1 := { s with ports := s.ports.set port { p with
        rxSeq := p.rxSeq + BitVec.ofNat 12 (frameFlits f), discarding := false } }
      let key := flowKey f
      let due := lookupD s.flowRx key 0
      (f.dest = s.myId →
        (f.flowSeq = due →
          let t := deliverFrame { s1 with flowRx := setKey s.flowRx key (due + 1) } f
          exec i s = .next (drainEarly key t.early.length t)) ∧
        (f.flowSeq ≠ due → (f.flowSeq - due).toNat < 32768 →
          (∀ x ∈ s.early, ¬(flowKey x = key ∧ x.flowSeq = f.flowSeq)) →
          exec i s = .next { s1 with early := s.early ++ [f] }) ∧
        (f.flowSeq ≠ due → 32768 ≤ (f.flowSeq - due).toNat → exec i s = .next s1)) ∧
      (f.dest ≠ s.myId →
        (7 ≤ f.hops → exec i s = .next { s1 with
          ctr := setKey s.ctr ⟨.linkUnroutable, 0, 0⟩ (lookupD s.ctr ⟨.linkUnroutable, 0, 0⟩ 0 + 1) }) ∧
        (f.hops < 7 → exec i s = .next
          (routeFrame s1 (if kindChannel f.kind = 1 then 1 else 0) { f with hops := f.hops + 1 }))))

/-- What a delivered frame does (14 R371, R372, R380, R392 to R394): a mailbox access acts on the region or the registers of its
pair, or is answered without bytes; READ_DATA ends a relayed read; a peer command waits on its peer pair, or is denied; a MESSAGE
answers a call or raises an interrupt; host memory is read and written in the name of the function that maps the pair, in writes of at
most the configured size. -/
def Obligations.FrameDelivered : Prop :=
  ∀ (f : Frame) (s : State),
    let pair := addrPair f.address
    let open_ := pair < 64 ∧ addrReg f.address = false ∧ (s.pair pair).bound = true
    let via := { s with pairs := s.pairs.set pair { s.pair pair with via := some f.src } }
    (f.kind = .mboxWrite →
      (open_ → deliverFrame s f =
        { via with landing := regionWrite s.landing (s.pair pair).segs (addrOff f.address) f.data }) ∧
      (pair < 64 → addrReg f.address = true → deliverFrame s f = slotWriteBytes pair (addrOff f.address) f.data via) ∧
      ((64 ≤ pair ∨ addrReg f.address = false ∧ (s.pair pair).bound = false) →
        deliverFrame s f = sendReadData s f.src false f.tag [])) ∧
    (f.kind = .mboxRead →
      (open_ → deliverFrame s f = sendReadData via f.src false f.tag
        (regionRead s.landing (s.pair pair).segs (addrOff f.address) f.length.toNat)) ∧
      ((64 ≤ pair ∨ addrReg f.address = false ∧ (s.pair pair).bound = false) →
        deliverFrame s f = sendReadData s f.src false f.tag [])) ∧
    (f.kind = .readData → addrPair f.address ≠ 1 → f.tag.toNat < 0xC000 →
      ∀ r, s.bridge.relays.find? (fun r => r.tag == f.tag.toNat) = some r →
        let s1 := { s with bridge := { s.bridge with relays := s.bridge.relays.filter fun x => x.tag != r.tag } }
        (r.dead = true → deliverFrame s f = s1) ∧
        (r.dead = false → f.length ≠ 0 →
          deliverFrame s f = { s1 with hostOut := s.hostOut ++ [.readDone r.fn r.tag (f.data.take r.len)] })) ∧
    (f.kind = .peerReq →
      (peerOpen s f = false → deliverFrame s f = denyPeer s f) ∧
      (peerOpen s f = true → deliverFrame s f = placeAll (64 + f.dstPart.toNat)
        { s with pairs := s.pairs.set (64 + f.dstPart.toNat) { s.pair (64 + f.dstPart.toNat) with
          arriving := (s.pair (64 + f.dstPart.toNat)).arriving ++ [⟨f.src, f.tag, f.data, []⟩] } })) ∧
    (f.kind = .peerData → peerOpen s f = true →
      ∀ x, (s.pair (64 + f.dstPart.toNat)).arriving.find? (fun x => x.src == f.src && x.tag == f.tag && !peerWhole x) = some x →
        deliverFrame s f = placeAll (64 + f.dstPart.toNat)
          { s with pairs := s.pairs.set (64 + f.dstPart.toNat) { s.pair (64 + f.dstPart.toNat) with
            arriving := (s.pair (64 + f.dstPart.toNat)).arriving.erase x ++ [{ x with data := x.data ++ f.data }] } }) ∧
    (f.kind = .message → bitsOf f.address.toNat 63 56 = 0 →
      deliverFrame s f = replyArrives s f.src f.tag f.length.toNat f.data) ∧
    (f.kind = .message → bitsOf f.address.toNat 63 56 = 1 → s.ident.bridge = true →
      deliverFrame s f = bridgeIrq s f.src.toNat (bitsOf f.address.toNat 55 32 / 256) (bitsOf f.address.toNat 55 32 % 256)) ∧
    (f.kind = .hostWrite → ∀ e, slotOf s f.src.toNat (f.tag.toNat / 1024) = some e → s.ident.bridge = true →
      e.fn ∈ s.bridge.busMaster → s.bridge.rate ≠ 0 →
      deliverFrame s f = { s with hostOut := s.hostOut ++ 
        ((chunks s.bridge.maxPayload f.address.toNat f.data.length).map fun c =>
          HostOut.write (routingId e.fn) (w64 c.1) ((f.data.drop (c.1 - f.address.toNat)).take c.2)) }) ∧
    (f.kind = .hostRead → ∀ e t, slotOf s f.src.toNat (f.tag.toNat / 1024) = some e → s.ident.bridge = true →
      e.fn ∈ s.bridge.busMaster → s.bridge.rate ≠ 0 → s.bridge.readWait = [] → freePcieTag s = some t →
      f.length.toNat ≤ s.bridge.maxRead - f.address.toNat % s.bridge.maxRead →
      deliverFrame s f = { s with
        bridge := { s.bridge with hostReads := s.bridge.hostReads ++
          [{ tag := t, fn := e.fn, module := f.src, frameTag := f.tag, fill := none, len := f.length.toNat }] }
        hostOut := s.hostOut ++ [.read (routingId e.fn) (w64 f.address.toNat) f.length.toNat t] }) ∧
    (f.kind = .hostRead → s.ident.bridge = false → deliverFrame s f = sendReadData s f.src true f.tag [])

/-- Blaze tokens (12 R331, R332, R335, R336): a token counts as received; one for an epoch that is not joined is held, up to
64, or dropped when it can no longer be; one for a joined epoch is taken from a child or the parent alone. A member that waits
TimeoutMs gives its silent children up, or completes on its own. -/
def Obligations.BlazeTokens : Prop :=
  (∀ (f : Frame) (s : State), f.kind = .blaze →
    let i := f.dstPart.toNat
    let l := f.data
    let c := charge s i .link (l.length - 192)
    let s1 := { c with ctr := setKey c.ctr ⟨.blazeReceived, i, 0⟩ (lookupD c.ctr ⟨.blazeReceived, i, 0⟩ 0 + 1) }
    (32 ≤ i → deliverFrame s f = s) ∧
    (i < 32 → joinedOp c i (fld l 4 2) (fld l 0xC 4) = none →
      (let p := c.part i
       let late := p.globals.all (fun g => !(g.open_ && g.joinedAt.isNone && g.domain == fld l 4 2 &&
          g.epoch == fld l 0xC 4)) ∧ fld l 0xC 4 ≤ lookupD p.lastEpochs (fld l 4 2) 0
       (p.state ≠ .unbound → ¬late → p.heldTokens.length < 64 →
        deliverFrame s f = groupResetNow
          { s1 with parts := c.parts.set i { p with heldTokens := p.heldTokens ++ [f] } }) ∧
       ((p.state = .unbound ∨ late ∨ 64 ≤ p.heldTokens.length) →
        deliverFrame s f = groupResetNow
          { s1 with ctr := setKey s1.ctr ⟨.blazeDrop, i, 0⟩ (lookupD s1.ctr ⟨.blazeDrop, i, 0⟩ 0 + 1) }))) ∧
    (∀ g, i < 32 → joinedOp c i (fld l 4 2) (fld l 0xC 4) = some g →
      deliverFrame s f = groupResetNow (deliverAll (takeToken12 s1 i g l).1 i (takeToken12 s1 i g l).2)) ∧
    (l.length ≤ 192 → c = s) ∧ (s.boot.resetDue = false → groupResetNow s = s)) ∧
  ∀ (i d : Nat) (s : State), s.power.railTripped = false →
    (domainOp s i d = none → exec (.blazeChildTimeout i d) s = .next s ∧ exec (.blazeDownTimeout i d) s = .next s) ∧
    ∀ g, domainOp s i d = some g →
      (∀ at_, g.joinedAt = some at_ → g.sentUpAt = none → at_ + 1000000 * g.timeoutMs ≤ s.now →
        exec (.blazeChildTimeout i d) s = .next (giveUp s i g fun _ => true)) ∧
      (∀ at_, g.joinedAt = some at_ → (g.sentUpAt.isSome = true ∨ s.now < at_ + 1000000 * g.timeoutMs) →
        exec (.blazeChildTimeout i d) s = .next s) ∧
      (∀ at_, g.sentUpAt = some at_ → at_ + 1000000 * g.timeoutMs ≤ s.now →
        ∃ flags covered missing release, exec (.blazeDownTimeout i d) s = .next
          (completeOp { s with freeIdx := s.freeIdx + 3 } i g ⟨flags, covered, missing, [], []⟩ release []) ∧
          opStatus flags = .timeout) ∧
      ((g.sentUpAt = none ∨ ∃ at_, g.sentUpAt = some at_ ∧ s.now < at_ + 1000000 * g.timeoutMs) →
        exec (.blazeDownTimeout i d) s = .next s)

/-! ### Links -/

/-- FRAME_TRANSMIT (14 R368, R369, R373, R375, R377, R381): an idle port that is UP or retiring sends flits to be sent again,
then LINK_CTL messages, then BLAZE frames, then the picked frame; what it sends is numbered on and kept until acknowledged, a
frame uses credits, and the port is occupied. -/
def Obligations.FrameTransmitted : Prop :=
  ∀ (i : Nat) (s : State), s.power.railTripped = false →
    let p := s.port i
    let port := fun (q : Port) => Host.Outcome.next (φ := Fault) (ρ := Refusal) { s with ports := s.ports.set i q }
    ((p.state ≠ .up ∧ p.state ≠ .retiring ∨ s.now < p.busyUntil) → exec (.frameTransmit i) s = .next s) ∧
    ((p.state = .up ∨ p.state = .retiring) → p.busyUntil ≤ s.now →
      (p.state = .up → p.resend ≠ [] →
        exec (.frameTransmit i) s = port { p with resend := [], busyUntil := s.now + occupancy p p.resend.length }) ∧
      (p.state = .retiring ∨ p.resend = [] →
        (∀ n rest, p.ctlQ = .nakMsg n :: rest →
          exec (.frameTransmit i) s = port { p with ctlQ := rest, busyUntil := s.now + occupancy p 1 }) ∧
        (∀ c rest, p.ctlQ = c :: rest → (∀ n, c ≠ .nakMsg n) →
          (p.replay.length + ctlFlits c ≤ 512 → exec (.frameTransmit i) s = port { p with
            ctlQ := rest, busyUntil := s.now + occupancy p (ctlFlits c), txSeq := p.txSeq + BitVec.ofNat 12 (ctlFlits c)
            replay := p.replay ++ (List.range (ctlFlits c)).map fun k =>
              { seq := p.txSeq + BitVec.ofNat 12 k, what := .ctl c, flit := k, last := k + 1 == ctlFlits c } }) ∧
          (512 < p.replay.length + ctlFlits c → exec (.frameTransmit i) s = .next s)) ∧
        (p.ctlQ = [] → p.state = .retiring → exec (.frameTransmit i) s = .next s) ∧
        (p.ctlQ = [] → p.state = .up → exec (.frameTransmit i) s = .next (sendQueued s i)))) ∧
    ∀ (q : Nat) (f : Frame),
      let n := frameFlits f
      let ci := creditIdx (kindChannel f.kind) f.hops
      ∃ ctr, sendData s i q f = { s with
        ctr := ctr
        ports := s.ports.set i { p with
          txSeq := p.txSeq + BitVec.ofNat 12 n
          replay := p.replay ++ (List.range n).map fun k =>
            { seq := p.txSeq + BitVec.ofNat 12 k, what := .data q f, flit := k, last := k + 1 == n }
          credits := p.credits.set ci (p.credits.getD ci 0 - n)
          busyUntil := s.now + occupancy p n } }

/-- NAK, CREDIT_RETURN and FLIT_DISCARD (14 R370, R373 to R376): flits up to the number acknowledged leave the replay buffer, a
NAK has the rest sent again in order and is counted; returned credits are added; every discarded flit is answered with a NAK of the
last good number. An uncorrectable codeword is counted for its lane, which is free (log 72), and a lane with more than 16 in a second
is retired. Shown for a port whose acknowledged flits end no reply to a peer, in a module that no GROUP_RESET is about to reset
(RoutesAndPeers says when that happens). -/
def Obligations.LinkAcknowledged : Prop :=
  ∀ (i : Nat) (s : State), s.power.railTripped = false → i < s.ports.length → s.boot.resetDue = false →
    let p := s.port i
    (p.state ≠ .up → (∀ n, exec (.nak i n) s = .next s) ∧ (∀ a c h n, exec (.creditReturn i a c h n) s = .next s) ∧
      ∀ b, exec (.flitDiscard i b) s = .next s) ∧
    (p.state = .up →
      (∀ n, ackSplit p n = none → exec (.nak i n) s = .next s) ∧
      (∀ n done rest, ackSplit p n = some (done, rest) → (∀ x ∈ done, ackedPair s x = none) →
        (rest = [] → exec (.nak i n) s = .next { s with ports := s.ports.set i { p with
          replay := [], resend := p.resend.filter fun x => rest.contains x } }) ∧
        (rest ≠ [] → exec (.nak i n) s = .next { s with
          ports := s.ports.set i { p with replay := rest, resend := rest }
          ctr := setKey s.ctr ⟨.linkReplay, 0, i⟩ (lookupD s.ctr ⟨.linkReplay, 0, i⟩ 0 + 1) }) ∧
        (∀ c h k, c < 3 → h < 8 → k < 2048 → exec (.creditReturn i n c h k) s = .next { s with ports := s.ports.set i { p with
          replay := rest, resend := p.resend.filter fun x => rest.contains x
          credits := p.credits.set (8 * c + h) (p.credits.getD (8 * c + h) 0 + k) } })) ∧
      (∀ n done rest, ackSplit p n = some (done, rest) → done ++ rest = p.replay) ∧
      exec (.flitDiscard i false) s = .next { s with ports := s.ports.set i { p with
        discarding := true, ctlQ := p.ctlQ ++ [.nakMsg p.rxSeq] } } ∧
      ∃ k ctr, (activeLanes p ≠ [] → k ∈ activeLanes p) ∧
        lookupD ctr ⟨.linkFecUncorr, 0, 4 * i + k⟩ 0 = lookupD s.ctr ⟨.linkFecUncorr, 0, 4 * i + k⟩ 0 + 1 ∧
        let q := { p with
          uncorr := (p.uncorr.filter fun e => decide (s.now < e.2 + 1000000000)) ++ [(k, s.now)]
          discarding := true, ctlQ := p.ctlQ ++ [.nakMsg p.rxSeq] }
        let s1 := { s with ctr := ctr, freeIdx := s.freeIdx + 1, ports := s.ports.set i q }
        exec (.flitDiscard i true) s = .next (if 16 < q.uncorr.countP (fun e => e.1 == k) then retireLane i k true s1 else s1))

/-- Routes and lanes (14 R375 to R378; 15 R419, R420): HELLO and distance vectors of an UP port replace what it showed before, while
flits are discarded only the awaited one; this module's own id holds the port DOWN; the module's vector is queued on every UP port,
unless a due GROUP_RESET of Scope MODULE resets the module, no token and no record of it waiting (log 84); a lane that is retired leaves the
port's lanes, and a port without one is DOWN; a trained port comes UP with its lanes and fresh credits. A peer that no route has
reached for 250 ms is lost, and comes back with a route. -/
def Obligations.RoutesAndPeers : Prop :=
  ∀ (i : Nat) (s : State), s.power.railTripped = false → i < s.ports.length →
    let p := s.port i
    (∀ z, (p.state ≠ .up ∨ p.discarding = true ∧ z ≠ p.rxSeq + 1) →
      (∀ m t n, exec (.hello ⟨i, z⟩ m t n) s = .next s) ∧ ∀ v, exec (.distanceVector ⟨i, z⟩ v) s = .next s) ∧
    (∀ z, p.state = .up → (p.discarding = false ∨ z = p.rxSeq + 1) →
      (∀ m t n, m ≠ s.myId → exec (.hello ⟨i, z⟩ m t n) s = .next (routesChanged s
        { s with ports := s.ports.set i { p with rxSeq := p.rxSeq + 1, discarding := false, peerId := m } })) ∧
      (∀ t n, let u := portDown s i
        exec (.hello ⟨i, z⟩ s.myId t n) s = .next (routesChanged s
          { u with ctr := setKey u.ctr ⟨.linkDupId, 0, 0⟩ (lookupD u.ctr ⟨.linkDupId, 0, 0⟩ 0 + 1) })) ∧
      (∀ v, exec (.distanceVector ⟨i, z⟩ v) s = .next (routesChanged s { s with
        ports := s.ports.set i { p with rxSeq := p.rxSeq + BitVec.ofNat 12 (ctlFlits (.vector v)), discarding := false }
        vectors := setKey s.vectors i v }))) ∧
    (s.boot.resetDue = false ∨ tokensWait s = true ∨ resetRecordWaits s = true → exec .distanceVectorSend s = .next { s with ports := s.ports.map fun q =>
      if q.state = .up then { q with ctlQ := q.ctlQ ++ [.vector (ownVector s)] } else q }) ∧
    (s.boot.resetDue = true → tokensWait s = false → resetRecordWaits s = false →
      exec .distanceVectorSend s = .next (resetTo s .groupReset)) ∧
    (∀ lane, ((p.state ≠ .up ∧ p.state ≠ .retiring) ∨ 4 ≤ lane ∨ p.lanes.getLsbD lane = false) →
      exec (.laneRetire i lane) s = .next s) ∧
    (∀ lane, (p.state = .up ∨ p.state = .retiring) → lane < 4 → p.lanes.getLsbD lane = true →
      let m : BitVec 4 := BitVec.ofNat 4 (2 ^ lane)
      let q := { p with retiredLanes := p.retiredLanes ||| m, lanes := p.lanes &&& ~~~m, state := .retiring }
      let s1 := fun (q : Port) => ({ s with
        ports := s.ports.set i q
        ident := { s.ident with events := s.ident.events ||| 4, degraded := true }
        ctr := setKey s.ctr ⟨.linkLaneRet, 0, i⟩ (lookupD s.ctr ⟨.linkLaneRet, 0, i⟩ 0 + 1) } : State)
      let far := fun (q : Port) => { q with rxSeq := p.rxSeq + 1, discarding := false }
      (q.lanes = 0 → exec (.laneRetire i lane) s = .next (routesChanged s (portDown (s1 q) i))) ∧
      (q.lanes ≠ 0 →
        exec (.laneRetire i lane) s = .next (routesChanged s (reroutePort (s1 { q with ctlQ := .retire lane :: p.ctlQ }) i)) ∧
        ∀ z, (p.discarding = false ∨ z = p.rxSeq + 1) → exec (.retire ⟨i, z⟩ lane) s =
          .next (routesChanged { s with ports := s.ports.set i (far p) } (reroutePort (s1 (far q)) i)))) ∧
    ((bit p.ctl.toNat 0 = true ∨ (p.state ≠ .training ∧ p.state ≠ .retiring)) → exec (.portUp i) s = .next s) ∧
    (bit p.ctl.toNat 0 = false → p.state = .training → ~~~p.retiredLanes ≠ 0 →
      exec (.portUp i) s = .next (routesChanged s { s with ports := s.ports.set i { p with
        state := .up, lanes := ~~~p.retiredLanes, credits := Port.linkUpCredits, txSeq := 0, rxSeq := 0xFFF, replay := []
        resend := [], discarding := false, peerId := 0xFFFF
        ctlQ := [.hello s.myId i (laneCount (~~~p.retiredLanes))] } })) ∧
    (∀ m, (m = s.myId ∨ m ∈ s.lost ∨ reachable s m = true ∨ s.now < lookupD s.unreach m 0 + 250000000) →
      exec (.peerLost m) s = .next s) ∧
    (∀ m, m ≠ s.myId → m ∉ s.lost → reachable s m = false → lookupD s.unreach m 0 + 250000000 ≤ s.now →
      s.calls = [] → (∀ j, j < 32 → (s.part j).globals = []) → (∀ q ∈ s.parts, q.tables = []) →
      ∃ u, exec (.peerLost m) s = .next u ∧ u.lost = s.lost ++ [m] ∧ u.ident.events = s.ident.events ||| 8 ∧
        u = { s with lost := u.lost, ident := u.ident, ctr := u.ctr, flowTx := u.flowTx, flowRx := u.flowRx, early := u.early
                     ports := u.ports, bridge := { s.bridge with relays := s.bridge.relays.filter fun r =>
                       !(r.dead && w16 r.module == m) } }) ∧
    (∀ m, (m ∉ s.lost ∨ reachable s m = false) → exec (.peerReinstated m) s = .next s) ∧
    ∀ m, m ∈ s.lost → reachable s m = true → exec (.peerReinstated m) s = .next { s with
      lost := s.lost.filter (· != m), unreach := eraseKey s.unreach m
      parts := s.parts.map fun q => { q with tables := q.tables.map fun t =>
        { t with lostSources := t.lostSources.filter (· != m.toNat) } } }

/-! ### Completion of rows that the statements above give by families -/

/-- REGISTER_WRITE to any register; PARTITION_BIND, PARTITION_UNBIND and PARTITION_RECOVER; the loads, from T1 and from a peer; the four
global commands; and the rows by which a frame comes in, for this module and next of its flow: each answers a next state, with its own
effect (02 R61; 13 R350, R351, R356; 15 R425; 05 R131; 12 R333; 14 R371, R372, R375). -/
def Obligations.RowsComplete : Prop :=
  (∀ (off : Nat) (v : W32) (s : State), s.power.railTripped = false →
    (∀ pair, exec (.registerWrite (.slot pair) off v) s = .next (slotWrite pair off v s)) ∧
    (∀ fn, exec (.registerWrite (.page0 fn) off v) s = .next (page0Write fn off v s)) ∧
    exec (.registerWrite .sideband off v) s = .next (sbWrite off v s)) ∧
  (∀ (r : Req) (s : State),
    (let b := bindParse r.pay
     let u := bindEffect r.pay (came .partitionBind r s)
     Accepted .partitionBind r s → bindForm r.pay false = true → (s.part b.part).state = .unbound → bindRoom s b = (none, 0) →
     ((∀ g ∈ (u.part b.part).segs, g ∉ s.zeroing) → exec (.partitionBind r) s =
       .next (finishPlain (bindPairs r.pay u) s.nextId .ok (partStands u b.part).length)) ∧
     ((∃ g ∈ (u.part b.part).segs, g ∈ s.zeroing) → exec (.partitionBind r) s = .next u)) ∧
    (let i := fld r.pay 0 1
     Accepted .partitionUnbind r s → partitionForm r.pay = true →
     ((s.part i).state = .bound ∨ (s.part i).state = .loaded ∨ (s.part i).state = .faulted) →
     exec (.partitionUnbind r) s = .next (finishPlain (unbindEffect i s.nextId (came .partitionUnbind r s)) s.nextId .ok 0)) ∧
    (let u := recoverEffect (reqPid s r) (came .partitionRecover r s)
     Accepted .partitionRecover r s → partitionForm r.pay = true → namedPart r.pay = pairPart s r →
     (reqPart s r).state = .faulted → exec (.partitionRecover r) s = .next
       (finishPlain { u with cmds := u.cmds ++ [mkCmd .partitionRecover (pairPart s r) r s.nextId] } s.nextId .ok 0)) ∧
    (∀ (i : Instr) (c : Code),
      (i, c) ∈ [(Instr.modelSwapIn r, Code.modelSwapIn), (.indexLoad r, .indexLoad), (.tableLoad r, .tableLoad),
        (.tokenizerLoad r, .tokenizerLoad), (.grammarLoad r, .grammarLoad)] →
      Accepted c r s → loadForm c r.pay = true → loadState (reqPart s r).state = true →
      replaceOk s (reqPid s r) c r.pay = true → loadFound s (reqPid s r) c r.pay = true → (loadNeed s c r).room = none →
      let k := reqPid s r
      let x := loadSrc c r.pay
      let stored := if x.chipper = true then 8 * (x.len / 4096) else x.len
      (x.space = 3 ∨ x.space = 1 ∧ t1Ok (s.part k).frames x.addr stored = true) →
      ∃ t frame n, exec i s = .next t ∧ n = cdiv (loadRoom c r.pay) frameBytes ∧
        (t.part k).reserved = (s.part k).reserved ++ [(s.nextId, frame, n)] ∧ t.nextId = (came c r s).nextId + (if x.space = 1 then 1 else 2) ∧
        t.fills = s.fills ++ [{ id := s.nextId + 1, part := k, space := x.space, peer := x.peer, addr := x.addr, len := stored
                                forWhat := .load s.nextId, issued := s.now, got := [] }]) ∧
    ∀ (i : Instr) (c : Code),
      (i, c) ∈ [(Instr.barrierJoin r, Code.barrierJoin), (.broadcastSend r, .broadcastSend), (.snapshotTake r, .snapshotTake),
        (.groupReset r, .groupReset)] →
      Accepted c r s →
      let k := reqPid s r
      let p := s.part k
      let g := globalOp c r.pay s.nextId
      globalForm s k c r.pay = true → globalState (reqPart s r).state = true → lookupD p.lastEpochs g.domain 0 < g.epoch →
      p.globals.countP (·.open_) < 16 →
      let s1 := { came c r s with parts := s.parts.set k { p with
        globals := p.globals ++ [g], lastEpochs := setKey p.lastEpochs g.domain g.epoch } }
      ((∀ x ∈ p.globals, x.open_ = true → x.domain ≠ g.domain) → exec i s = .next (groupResetNow (joinOp s1 k g))) ∧
      ((∃ x ∈ p.globals, x.open_ = true ∧ x.domain = g.domain) → exec i s = .next s1)) ∧
  ∀ (i : Instr) (port : Nat) (f : Frame) (s : State),
    ((i, f.kind) ∈ [(Instr.mboxWrite port f, FrameKind.mboxWrite), (.mboxRead port f, .mboxRead), (.readData port f, .readData),
        (.peerReq port f, .peerReq), (.peerData port f, .peerData), (.message port f, .message),
        (.hostWrite port f, .hostWrite), (.hostRead port f, .hostRead)] ∨
      f.kind = .blaze ∧ (i = .blazeUp port f ∧ fld f.data 0 1 = 1 ∨ i = .blazeDown port f ∧ fld f.data 0 1 = 2)) →
    s.power.railTripped = false → (s.port port).state = .up → (s.port port).discarding = false → frameFlits f ≤ 20 →
    f.dest = s.myId → f.flowSeq = lookupD s.flowRx (flowKey f) 0 →
    let t := deliverFrame { s with
      ports := s.ports.set port { s.port port with
        rxSeq := (s.port port).rxSeq + BitVec.ofNat 12 (frameFlits f), discarding := false }
      flowRx := setKey s.flowRx (flowKey f) (f.flowSeq + 1) } f
    exec i s = .next (drainEarly (flowKey f) t.early.length t)

/-! ### Invariants of every step -/

/-- No command touches the queue: whatever runs, the commands behind it stay as they were. -/
def Obligations.ExecLeavesQueue : Prop :=
  ∀ (c : Instr) (s t : State), exec c s = .next t → t.pending = s.pending

/-- Every step keeps the canonical form of the Landing, T1, the flash and SbFlashBuf: addresses rise, and no listed byte equals
what an unlisted one reads as. -/
def Obligations.StepKeepsMemory : Prop :=
  ∀ s t : State, step s = .next t → MemOk s → MemOk t

/-- Every step keeps the shape of the module: 96 pairs (02 R24), 32 partitions (13), 16 ports (14) and 68 physical stands (04). -/
def Obligations.StepKeepsShape : Prop :=
  ∀ s t : State, step s = .next t → ShapeOk s → ShapeOk t

/-- Fuses only ever change from 0 to 1 (16 R431): in every step a bit of the device secret or of the revocation mask that is blown
stays blown, SecVersion and the life-cycle count never fall, and every other fuse stays as it is. -/
def Obligations.FusesNeverUnblown : Prop :=
  ∀ s t : State, step s = .next t → FusesGain s.fuses t.fuses

/-- The module after reset has the canonical form and the shape. -/
def Obligations.ResetMeetsInvariants : Prop :=
  MemOk State.reset ∧ ShapeOk State.reset
end

