-- ==== Sys2Proof/Laws/Commands.lean ====
section
/-! SUPPORT. What taking a command does: the lemmas that carry an accepted command of a row to its effect. -/

set_option Elab.async false

namespace Sys2Proof.Laws

open Sys2Proof Sys2Proof.Machine

/-- A live machine answers the next state. -/
theorem live_next {s t : State} (h : s.power.railTripped = false) : live s t = .next t := if_neg (by simp [h])

/-- The state in which the next command of a pair has its ticket and its number is counted. -/
def counted (r : Req) (s : State) : State :=
  { s with nextId := s.nextId + 1
           pairs := s.pairs.set r.pair { s.pair r.pair with expSeq := (s.pair r.pair).expSeq + 1 } }

theorem pairs_lt_of_bound {s : State} {i : Nat} (h : (s.pair i).bound = true) : i < s.pairs.length := by
  by_cases hi : i < s.pairs.length
  · exact hi
  · simp [State.pair, List.getD, List.getElem?_eq_none (by omega : s.pairs.length ≤ i), Pair.reset] at h

theorem counted_pair {r : Req} {s : State} (h : (s.pair r.pair).bound = true) :
    (counted r s).pair r.pair = { s.pair r.pair with expSeq := (s.pair r.pair).expSeq + 1 } := by
  simp [State.pair, counted, List.getD, pairs_lt_of_bound h]

theorem counted_pair_ne {r : Req} {s : State} {j : Nat} (h : r.pair ≠ j) : (counted r s).pair j = s.pair j := by
  simp [State.pair, counted, List.getD, List.getElem?_set_ne h]

theorem pairPart_counted {r : Req} {s : State} (h : (s.pair r.pair).bound = true) :
    pairPart (counted r s) r = pairPart s r := by
  show ((counted r s).pair r.pair).part = _
  rw [counted_pair h]; rfl

theorem commandPart_counted {c : Code} {r : Req} {s : State} (h : (s.pair r.pair).bound = true) :
    commandPart (counted r s) c r = commandPart s c r := by
  unfold commandPart; split <;> first | rfl | exact pairPart_counted h

theorem permitted_counted {c : Code} {r : Req} {s : State} (h : (s.pair r.pair).bound = true) :
    permitted (counted r s) c r = permitted s c r := by
  unfold permitted; rw [counted_pair h]; rfl

theorem headerForm_counted {c : Code} {r : Req} {s : State} (h : (s.pair r.pair).bound = true) :
    headerForm (counted r s) c r = headerForm s c r := by
  unfold headerForm; rw [counted_pair h]

theorem digestOk_counted {r : Req} {s : State} (h : (s.pair r.pair).bound = true) :
    digestOk (counted r s) r = digestOk s r := by
  unfold digestOk; rw [counted_pair h]; rfl

theorem reqPart_counted {r : Req} {s : State} (h : (s.pair r.pair).bound = true) :
    reqPart (counted r s) r = reqPart s r := by
  unfold reqPart; rw [pairPart_counted h]; rfl

theorem reqPid_counted {r : Req} {s : State} (h : (s.pair r.pair).bound = true) :
    reqPid (counted r s) r = reqPid s r := by
  unfold reqPid; rw [pairPart_counted h]

theorem pairPState_counted {r : Req} {s : State} (h : (s.pair r.pair).bound = true) :
    pairPState (counted r s) r.pair = pairPState s r.pair := by
  unfold pairPState; rw [counted_pair h]; rfl

theorem earlierDone_counted {r : Req} {s : State} (h : (s.pair r.pair).bound = true) (t : Nat) :
    earlierDone (counted r s) r.pair t = earlierDone s r.pair t := by
  unfold earlierDone; rw [counted_pair h]; rfl

/-- A command in its turn starts with its ticket. -/
theorem enter_inTurn {c : Code} {r : Req} {s : State} (h : InTurn r s) (cmd : Req → Nat → State → State) :
    enter c cmd r s = cmd r s.nextId (counted r s) := by
  obtain ⟨⟨h1, h2, h3, h4, -⟩, h5, h6⟩ := h
  have e : (!s.isReady || !(s.pair r.pair).bound || decide (96 ≤ r.pair)) = false := by simp [h2, h4]; omega
  unfold enter
  simp only [e, Bool.false_eq_true, if_false]
  rw [if_neg (by simp [h5])]
  refine if_neg ?_
  show ¬(bit r.hdr.flags.toNat 1 && !earlierDone (counted r s) r.pair s.nextId) = true
  rw [earlierDone_counted h4]
  rcases h6 with h6 | h6 <;> simp [h6]

theorem cmd_counted {r : Req} {s : State} : (counted r s).cmd? = s.cmd? := rfl

/-- An accepted command whose own checks pass has its effect. -/
theorem runCmd_accepted {c : Code} {r : Req} {s : State} {part : Option Nat} {n : Need} {eff : Nat → State → State}
    (h : Accepted c r s) (hp : part = commandPart s c r) (hf : n.form = true) (hs : n.state = true) (hn : n.found = true)
    (hr : n.room = none) :
    runCmd c part n eff r s.nextId (counted r s) = eff s.nextId (came c r s) := by
  obtain ⟨⟨⟨h1, h2, h3, h4, h4'⟩, h5, h6⟩, h7, h8, h9, hw⟩ := h
  subst hp
  have ff : firstFail (counted r s) c r n = none := by
    simp [firstFail, permitted_counted h4, headerForm_counted h4, digestOk_counted h4, h7, h8, h9, hf, hs, hn, hr]
  unfold runCmd
  rw [cmd_counted, h4']
  simp only [Option.isSome_none, Bool.false_eq_true, if_false, ff]
  have e : switchPending (counted r s) (commandPart s c r) s.nextId = switchPending s (commandPart s c r) s.nextId := rfl
  rw [e, if_neg (by rcases hw with hw | hw <;> simp [hw])]
  rfl

/-- A command in its turn that fails a check only completes, with that check's status. -/
theorem runCmd_fails {c : Code} {r : Req} {s : State} {part : Option Nat} {n : Need} {eff : Nat → State → State}
    {st : Status} {d : Nat} (h : InTurn r s) (hp : part = commandPart s c r) (hf : firstFail s c r n = some (st, d))
    (hc : firstFail (counted r s) c r n = firstFail s c r n) :
    runCmd c part n eff r s.nextId (counted r s) = finishPlain (came c r s) s.nextId st d := by
  obtain ⟨⟨h1, h2, h3, h4, h4'⟩, h5, h6⟩ := h
  unfold runCmd
  rw [cmd_counted, h4']
  simp only [Option.isSome_none, Bool.false_eq_true, if_false, hc, hf]
  subst hp; rfl

theorem firstFail_counted {c : Code} {r : Req} {s : State} {n : Need} (h : (s.pair r.pair).bound = true) :
    firstFail (counted r s) c r n = firstFail s c r n := by
  unfold firstFail
  rw [permitted_counted h, headerForm_counted h, digestOk_counted h, counted_pair h]
  rfl

/-! ### Frames that come in -/

/-- A row by which a frame comes in is its receipt on its port, a token's the receipt of its direction. -/
theorem exec_frame {i : Instr} {k : FrameKind} {port : Nat} {f : Frame} (s : State) (h : frameOf i = some (k, port, f)) :
    exec i s = live s (receive k port f s) := by
  cases i
  case mboxWrite => cases h; rfl
  case mboxRead => cases h; rfl
  case readData => cases h; rfl
  case peerReq => cases h; rfl
  case peerData => cases h; rfl
  case message => cases h; rfl
  case hostWrite => cases h; rfl
  case hostRead => cases h; rfl
  case blazeUp p g =>
    by_cases e : fld g.data 0 1 = 1
    · rw [show frameOf (.blazeUp p g) = if fld g.data 0 1 = 1 then some (.blaze, p, g) else none from rfl, if_pos e] at h
      cases h
      show live s (receiveBlaze 1 port f s) = _
      rw [receiveBlaze, if_pos e]
    · rw [show frameOf (.blazeUp p g) = if fld g.data 0 1 = 1 then some (.blaze, p, g) else none from rfl, if_neg e] at h
      cases h
  case blazeDown p g =>
    by_cases e : fld g.data 0 1 = 2
    · rw [show frameOf (.blazeDown p g) = if fld g.data 0 1 = 2 then some (.blaze, p, g) else none from rfl, if_pos e] at h
      cases h
      show live s (receiveBlaze 2 port f s) = _
      rw [receiveBlaze, if_pos e]
    · rw [show frameOf (.blazeDown p g) = if fld g.data 0 1 = 2 then some (.blaze, p, g) else none from rfl, if_neg e] at h
      cases h
  all_goals (exact nomatch (h : none = some _))

end Sys2Proof.Laws
end

