-- ==== Sys2Proof/Laws/Memory.lean ====
section
/-! SUPPORT. The stores: every operation keeps their canonical form, a read after a write gives the bytes written, and every
other byte is as it was. -/

namespace Sys2Proof.Machine

/-! ### Canonical form -/

/-- Canonical form said once for the whole list: addresses strictly rise and no cell holds `d`. -/
theorem Mem.wf_iff (d : Byte) (m : Mem) :
    Mem.wf d m = true ↔ m.Pairwise (fun c e => c.1 < e.1) ∧ ∀ c ∈ m, c.2 ≠ d := by
  induction m with
  | nil => simp [Mem.wf]
  | cons c r ih =>
    cases r with
    | nil => simp [Mem.wf]
    | cons e r =>
      have h : Mem.wf d (c :: e :: r) = true ↔ c.2 ≠ d ∧ c.1 < e.1 ∧ Mem.wf d (e :: r) = true := by simp [Mem.wf, and_assoc]
      rw [h, ih, List.pairwise_cons (a := c)]
      constructor
      · rintro ⟨h1, h2, h3, h4⟩
        refine ⟨⟨fun x hx => ?_, h3⟩, fun x hx => ?_⟩
        · rcases List.mem_cons.1 hx with rfl | hx
          · exact h2
          · exact Nat.lt_trans h2 ((List.pairwise_cons.1 h3).1 x hx)
        · rcases List.mem_cons.1 hx with rfl | hx
          · exact h1
          · exact h4 x hx
      · rintro ⟨⟨h1, h2⟩, h3⟩
        exact ⟨h3 c List.mem_cons_self, h1 e List.mem_cons_self, h2, fun x hx => h3 x (List.mem_cons_of_mem _ hx)⟩

@[simp] theorem Mem.wf_nil (d : Byte) : Mem.wf d [] = true := rfl

theorem Mem.wf_filter {d : Byte} {m : Mem} (h : Mem.wf d m = true) (p : Host.Cell → Bool) : Mem.wf d (m.filter p) = true := by
  rw [Mem.wf_iff] at *
  exact ⟨h.1.sublist List.filter_sublist, fun c hc => h.2 c (List.mem_filter.1 hc).1⟩

theorem Mem.clearRange_wf {d : Byte} {m : Mem} (h : Mem.wf d m = true) (a n : Nat) : Mem.wf d (Mem.clearRange m a n) = true :=
  Mem.wf_filter h _

theorem Mem.zeroSegs_wf {d : Byte} {m : Mem} (h : Mem.wf d m = true) (segs : List Nat) : Mem.wf d (m.zeroSegs segs) = true :=
  Mem.wf_filter h _

/-- A cell of `cells` lies in the range and holds its byte, which is not `d`. -/
theorem Mem.mem_cells {d : Byte} {c : Host.Cell} : ∀ {bs : List Byte} {a : Nat}, c ∈ Mem.cells d a bs →
    a ≤ c.1 ∧ c.1 < a + bs.length ∧ c.2 ≠ d := by
  intro bs
  induction bs with
  | nil => intro a h; simp [Mem.cells] at h
  | cons b bs ih =>
    intro a h
    simp only [Mem.cells] at h
    split at h
    · have := ih h; simp only [List.length_cons]; exact ⟨by omega, by omega, this.2.2⟩
    · rcases List.mem_cons.1 h with rfl | h
      · simp_all
      · have := ih h; simp only [List.length_cons]; exact ⟨by omega, by omega, this.2.2⟩

theorem Mem.cells_pairwise (d : Byte) : ∀ (bs : List Byte) (a : Nat), (Mem.cells d a bs).Pairwise (fun c e => c.1 < e.1) := by
  intro bs
  induction bs with
  | nil => intro a; simp [Mem.cells]
  | cons b bs ih =>
    intro a
    simp only [Mem.cells]
    split
    · exact ih _
    · exact List.pairwise_cons.2 ⟨fun c hc => by have := Mem.mem_cells hc; simp; omega, ih _⟩

theorem Mem.writeRange_wf {d : Byte} {m : Mem} (h : Mem.wf d m = true) (a : Nat) (bs : List Byte) :
    Mem.wf d (Mem.writeRange d m a bs) = true := by
  rw [Mem.wf_iff] at *
  refine ⟨?_, ?_⟩
  · refine List.pairwise_append.2 ⟨List.pairwise_append.2 ⟨h.1.sublist List.filter_sublist, Mem.cells_pairwise _ _ _, ?_⟩,
      h.1.sublist List.filter_sublist, ?_⟩
    · intro c hc e he
      have h1 := (List.mem_filter.1 hc).2
      have h2 := Mem.mem_cells he
      simp only [decide_eq_true_eq] at h1
      omega
    · intro c hc e he
      have h2 := (List.mem_filter.1 he).2
      simp only [decide_eq_true_eq] at h2
      rcases List.mem_append.1 hc with hc | hc
      · have h1 := (List.mem_filter.1 hc).2
        simp only [decide_eq_true_eq] at h1
        omega
      · have h1 := Mem.mem_cells hc
        omega
  · intro c hc
    rcases List.mem_append.1 hc with hc | hc
    · rcases List.mem_append.1 hc with hc | hc
      · exact h.2 c (List.mem_filter.1 hc).1
      · exact (Mem.mem_cells hc).2.2
    · exact h.2 c (List.mem_filter.1 hc).1

theorem Mem.landWrite_wf {m : Mem} (h : Mem.wf 0 m = true) (segs : List Nat) (a : Nat) (bs : List Byte) :
    Mem.wf 0 (landWrite m segs a bs) = true := by
  unfold landWrite
  generalize chunks segBytes a bs.length = l
  induction l generalizing m with
  | nil => exact h
  | cons c l ih =>
    simp only [List.foldl_cons]
    refine ih ?_
    split
    · exact Mem.writeRange_wf h _ _
    · exact h

theorem Mem.regionWrite_wf {m : Mem} (h : Mem.wf 0 m = true) (segs : List Nat) (x : Nat) (bs : List Byte) :
    Mem.wf 0 (regionWrite m segs x bs) = true := by
  unfold regionWrite
  generalize chunks 0x8000 x bs.length = l
  induction l generalizing m with
  | nil => exact h
  | cons c l ih =>
    simp only [List.foldl_cons]
    refine ih ?_
    split
    · exact h
    · split
      · exact Mem.writeRange_wf h _ _
      · exact h

theorem T1.writePage_wf {t : T1} (h : Mem.wf 0 t.mem = true) (page gen off : Nat) (bs : List Byte) :
    Mem.wf 0 (t.writePage page gen off bs).mem = true := by
  unfold T1.writePage
  refine Mem.writeRange_wf ?_ _ _
  split
  · exact Mem.clearRange_wf h _ _
  · exact h

theorem t1Write_wf {t : T1} (h : Mem.wf 0 t.mem = true) (frames : List (Nat × Nat)) (a : Nat) (bs : List Byte) :
    Mem.wf 0 (t1Write t frames a bs).mem = true := by
  unfold t1Write
  generalize chunks pageBytes a bs.length = l
  induction l generalizing t with
  | nil => exact h
  | cons c l ih =>
    simp only [List.foldl_cons]
    refine ih ?_
    split
    · exact T1.writePage_wf h _ _ _ _
    · exact h

/-! ### Reads after writes -/

theorem Mem.read_append (d : Byte) (m m' : Mem) (x : Nat) :
    Mem.read d (m ++ m') x = if m.any (fun c => c.1 == x) then Mem.read d m x else Mem.read d m' x := by
  induction m with
  | nil => simp
  | cons c m ih =>
    by_cases hc : c.1 = x
    · simp [Mem.read, hc]
    · simp [Mem.read, hc, ih]

theorem Mem.read_none {d : Byte} {m : Mem} {x : Nat} (h : ∀ c ∈ m, c.1 ≠ x) : Mem.read d m x = d := by
  induction m with
  | nil => rfl
  | cons c m ih =>
    simp only [Mem.read, h c List.mem_cons_self, if_false]
    exact ih fun e he => h e (List.mem_cons_of_mem _ he)

theorem Mem.read_filter {d : Byte} {m : Mem} {x : Nat} (p : Host.Cell → Bool) (h : ∀ c : Host.Cell, c.1 = x → p c = true) :
    Mem.read d (m.filter p) x = Mem.read d m x := by
  induction m with
  | nil => rfl
  | cons c m ih =>
    by_cases hc : c.1 = x
    · simp [Mem.read, h c hc, hc]
    · by_cases hp : p c = true
      · simp [Mem.read, hp, hc, ih]
      · simp [Mem.read, hp, hc, ih]

theorem Mem.read_cells {d : Byte} : ∀ (bs : List Byte) (a i : Nat), i < bs.length →
    Mem.read d (Mem.cells d a bs) (a + i) = bs.getD i d := by
  intro bs
  induction bs with
  | nil => intro a i h; simp at h
  | cons b bs ih =>
    intro a i h
    simp only [Mem.cells]
    cases i with
    | zero =>
      split
      · rename_i hb
        rw [Mem.read_none]
        · simp [hb]
        · intro c hc; have := Mem.mem_cells hc; omega
      · simp [Mem.read]
    | succ i =>
      have h' : i < bs.length := by simpa using h
      have e : a + (i + 1) = a + 1 + i := by omega
      split
      · rw [e, ih _ _ h']; simp
      · have : (a == a + 1 + i) = false := by simp; omega
        rw [e]
        simp only [Mem.read]
        rw [if_neg (by omega), ih _ _ h']
        simp

/-- A byte written reads back. -/
theorem Mem.read_writeRange_in {d : Byte} (m : Mem) (a : Nat) (bs : List Byte) (i : Nat) (h : i < bs.length) :
    Mem.read d (Mem.writeRange d m a bs) (a + i) = bs.getD i d := by
  unfold Mem.writeRange
  rw [Mem.read_append, Mem.read_append]
  have h1 : (m.filter fun c => decide (c.1 < a)).any (fun c => c.1 == a + i) = false := by
    simp only [List.any_eq_false, List.mem_filter, decide_eq_true_eq, beq_iff_eq]; intro c hc; omega
  have h2 : Mem.read d (m.filter fun c => decide (a + bs.length ≤ c.1)) (a + i) = d :=
    Mem.read_none fun c hc => by
      have := (List.mem_filter.1 hc).2
      simp only [decide_eq_true_eq] at this
      omega
  rw [List.any_append, h1, Bool.false_or]
  simp only [Bool.false_eq_true, if_false]
  split
  · exact Mem.read_cells bs a i h
  · rename_i hn
    rw [h2, ← Mem.read_cells bs a i h, Mem.read_none]
    intro c hc he
    exact hn (List.any_eq_true.2 ⟨c, hc, by simp [he]⟩)

/-- Every other byte is as it was. -/
theorem Mem.read_writeRange_out {d : Byte} (m : Mem) (a : Nat) (bs : List Byte) (x : Nat) (h : x < a ∨ a + bs.length ≤ x) :
    Mem.read d (Mem.writeRange d m a bs) x = Mem.read d m x := by
  unfold Mem.writeRange
  rw [Mem.read_append, Mem.read_append]
  have hc : (Mem.cells d a bs).any (fun c => c.1 == x) = false := by
    simp only [List.any_eq_false, beq_iff_eq]; intro c hc; have := Mem.mem_cells hc; omega
  rcases h with h | h
  · have hr : Mem.read d (m.filter fun c => decide (c.1 < a)) x = Mem.read d m x :=
      Mem.read_filter _ fun c hc => by simp [hc, h]
    have hn : Mem.read d (m.filter fun c => decide (a + bs.length ≤ c.1)) x = d :=
      Mem.read_none fun c hc => by
        have := (List.mem_filter.1 hc).2
        simp only [decide_eq_true_eq] at this
        omega
    have hcr : Mem.read d (Mem.cells d a bs) x = d := Mem.read_none fun c hc => by have := Mem.mem_cells hc; omega
    rw [List.any_append, hc, Bool.or_false]
    split
    · exact hr
    · rename_i hq
      rw [hn, ← hr, Mem.read_none]
      intro c hc he
      exact hq (List.any_eq_true.2 ⟨c, hc, by simp [he]⟩)
  · have h1 : (m.filter fun c => decide (c.1 < a)).any (fun c => c.1 == x) = false := by
      simp only [List.any_eq_false, List.mem_filter, decide_eq_true_eq, beq_iff_eq]; intro c hc; omega
    rw [List.any_append, h1, hc]
    simp only [Bool.or_self, Bool.false_eq_true, if_false]
    exact Mem.read_filter _ fun c hc => by simp [hc, h]

/-- Bytes cleared read as `d`, the others as before. -/
theorem Mem.read_clearRange {d : Byte} (m : Mem) (a n x : Nat) :
    Mem.read d (Mem.clearRange m a n) x = if a ≤ x ∧ x < a + n then d else Mem.read d m x := by
  unfold Mem.clearRange
  split
  · exact Mem.read_none fun c hc => by
      have := (List.mem_filter.1 hc).2
      simp only [Bool.or_eq_true, decide_eq_true_eq] at this
      omega
  · exact Mem.read_filter _ fun c hc => by simp only [hc, Bool.or_eq_true, decide_eq_true_eq]; omega

/-- A walk over cells that start at `a` or later gives the bytes from `a` on. -/
theorem Mem.walk_eq {d : Byte} : ∀ (n : Nat) (m : Mem) (a : Nat), m.Pairwise (fun c e => c.1 < e.1) → (∀ c ∈ m, a ≤ c.1) →
    Mem.walk d n m a = (List.range n).map fun k => Mem.read d m (a + k) := by
  intro n
  induction n with
  | zero => intro m a _ _; rfl
  | succ n ih =>
    intro m a hp ha
    rw [List.range_succ_eq_map, List.map_cons, List.map_map]
    have hs : ∀ (m' : Mem), (∀ k, Mem.read d m' (a + 1 + k) = Mem.read d m (a + (k + 1))) →
        (List.range n).map (fun k => Mem.read d m' (a + 1 + k)) =
          (List.range n).map ((fun k => Mem.read d m (a + k)) ∘ Nat.succ) :=
      fun m' hm => List.map_congr_left fun k _ => hm k
    cases m with
    | nil =>
      simp only [Mem.walk]
      rw [ih [] (a + 1) List.Pairwise.nil (by simp)]
      rw [hs [] fun k => rfl]; rfl
    | cons c r =>
      obtain ⟨hc, hr⟩ := List.pairwise_cons.1 hp
      have hac := ha c List.mem_cons_self
      simp only [Mem.walk]
      split
      · rename_i e
        rw [ih r (a + 1) hr fun x hx => by have := hc x hx; omega]
        rw [hs r fun k => by simp only [Mem.read]; rw [if_neg (by omega), show a + 1 + k = a + (k + 1) by omega]]
        simp [Mem.read, e]
      · rename_i e
        rw [ih (c :: r) (a + 1) hp fun x hx => by
          rcases List.mem_cons.1 hx with rfl | hx
          · omega
          · have := hc x hx
            omega, hs (c :: r) fun k => by rw [show a + 1 + k = a + (k + 1) by omega]]
        have hn : Mem.read d (c :: r) (a + 0) = d := Mem.read_none fun x hx => by
          rcases List.mem_cons.1 hx with rfl | hx
          · exact e
          · have := hc x hx
            omega
        rw [hn]

theorem Mem.dropWhile_low {m : Mem} (a : Nat) (hp : m.Pairwise (fun c e => c.1 < e.1)) :
    m.dropWhile (fun c => decide (c.1 < a)) = m.filter fun c => decide (a ≤ c.1) := by
  induction m with
  | nil => rfl
  | cons c r ih =>
    obtain ⟨hc, hr⟩ := List.pairwise_cons.1 hp
    by_cases h : c.1 < a
    · rw [List.dropWhile_cons_of_pos (by simpa using h), ih hr, List.filter_cons_of_neg (by simpa using h)]
    · rw [List.dropWhile_cons_of_neg (by simpa using h), List.filter_eq_self.2]
      intro x hx
      rcases List.mem_cons.1 hx with rfl | hx
      · simpa using h
      · have := hc x hx; simp; omega

/-- A range read is the bytes read one by one. -/
theorem Mem.readRange_eq {d : Byte} {m : Mem} (h : Mem.wf d m = true) (a n : Nat) :
    Mem.readRange d m a n = (List.range n).map fun k => Mem.read d m (a + k) := by
  have hp := ((Mem.wf_iff d m).1 h).1
  unfold Mem.readRange
  rw [Mem.dropWhile_low a hp, Mem.walk_eq n _ a (hp.sublist List.filter_sublist) fun c hc => by
    simpa using (List.mem_filter.1 hc).2]
  exact List.map_congr_left fun k _ => Mem.read_filter _ fun c hc => by simp [hc]

@[simp] theorem Mem.walk_length (d : Byte) : ∀ (n : Nat) (m : Mem) (a : Nat), (Mem.walk d n m a).length = n := by
  intro n
  induction n with
  | zero => intro m a; rfl
  | succ n ih =>
    intro m a
    cases m with
    | nil => simp [Mem.walk, ih]
    | cons c r => simp only [Mem.walk]; split <;> simp [ih]

@[simp] theorem Mem.readRange_length (d : Byte) (m : Mem) (a n : Nat) : (Mem.readRange d m a n).length = n :=
  Mem.walk_length d n _ a

/-! ### Banks (05 R119) -/

/-- A segment's lines lie in the 256 banks that its number modulo 6 gives. -/
theorem bank_of_segment (a : Nat) :
    segmentBank (landSegment a) ≤ lineBank (landLine a) ∧ lineBank (landLine a) < segmentBank (landSegment a) + 256 := by
  simp only [segmentBank, landSegment, lineBank, landLine, segBytes]
  omega

end Sys2Proof.Machine
end

