-- ==== Sys2Proof/Laws/State.lean ====
section
/-! SUPPORT. One lemma per update of the state and per field or accessor that the update leaves alone. -/

set_option Elab.async false

namespace Sys2Proof.Laws

open Sys2Proof Sys2Proof.Machine

variable (s : State)

/-! ### modPair -/

@[simp] theorem modPair_power (i : Nat) (f : Pair → Pair) : (s.modPair i f).power = s.power := rfl
@[simp] theorem modPair_boot (i : Nat) (f : Pair → Pair) : (s.modPair i f).boot = s.boot := rfl
@[simp] theorem modPair_fuses (i : Nat) (f : Pair → Pair) : (s.modPair i f).fuses = s.fuses := rfl
@[simp] theorem modPair_flash (i : Nat) (f : Pair → Pair) : (s.modPair i f).flash = s.flash := rfl
@[simp] theorem modPair_sec (i : Nat) (f : Pair → Pair) : (s.modPair i f).sec = s.sec := rfl
@[simp] theorem modPair_ident (i : Nat) (f : Pair → Pair) : (s.modPair i f).ident = s.ident := rfl
@[simp] theorem modPair_sb (i : Nat) (f : Pair → Pair) : (s.modPair i f).sb = s.sb := rfl
@[simp] theorem modPair_lc (i : Nat) (f : Pair → Pair) : (s.modPair i f).lc = s.lc := rfl
@[simp] theorem modPair_lcLatch (i : Nat) (f : Pair → Pair) : (s.modPair i f).lcLatch = s.lcLatch := rfl
@[simp] theorem modPair_landing (i : Nat) (f : Pair → Pair) : (s.modPair i f).landing = s.landing := rfl
@[simp] theorem modPair_zeroing (i : Nat) (f : Pair → Pair) : (s.modPair i f).zeroing = s.zeroing := rfl
@[simp] theorem modPair_segRetired (i : Nat) (f : Pair → Pair) : (s.modPair i f).segRetired = s.segRetired := rfl
@[simp] theorem modPair_segErrs (i : Nat) (f : Pair → Pair) : (s.modPair i f).segErrs = s.segErrs := rfl
@[simp] theorem modPair_sparesUsed (i : Nat) (f : Pair → Pair) : (s.modPair i f).sparesUsed = s.sparesUsed := rfl
@[simp] theorem modPair_t1 (i : Nat) (f : Pair → Pair) : (s.modPair i f).t1 = s.t1 := rfl
@[simp] theorem modPair_parts (i : Nat) (f : Pair → Pair) : (s.modPair i f).parts = s.parts := rfl
@[simp] theorem modPair_cmds (i : Nat) (f : Pair → Pair) : (s.modPair i f).cmds = s.cmds := rfl
@[simp] theorem modPair_ctxs (i : Nat) (f : Pair → Pair) : (s.modPair i f).ctxs = s.ctxs := rfl
@[simp] theorem modPair_stands (i : Nat) (f : Pair → Pair) : (s.modPair i f).stands = s.stands := rfl
@[simp] theorem modPair_units (i : Nat) (f : Pair → Pair) : (s.modPair i f).units = s.units := rfl
@[simp] theorem modPair_launches (i : Nat) (f : Pair → Pair) : (s.modPair i f).launches = s.launches := rfl
@[simp] theorem modPair_fills (i : Nat) (f : Pair → Pair) : (s.modPair i f).fills = s.fills := rfl
@[simp] theorem modPair_jobs (i : Nat) (f : Pair → Pair) : (s.modPair i f).jobs = s.jobs := rfl
@[simp] theorem modPair_searches (i : Nat) (f : Pair → Pair) : (s.modPair i f).searches = s.searches := rfl
@[simp] theorem modPair_calls (i : Nat) (f : Pair → Pair) : (s.modPair i f).calls = s.calls := rfl
@[simp] theorem modPair_fetched (i : Nat) (f : Pair → Pair) : (s.modPair i f).fetched = s.fetched := rfl
@[simp] theorem modPair_cut (i : Nat) (f : Pair → Pair) : (s.modPair i f).cut = s.cut := rfl
@[simp] theorem modPair_ports (i : Nat) (f : Pair → Pair) : (s.modPair i f).ports = s.ports := rfl
@[simp] theorem modPair_vectors (i : Nat) (f : Pair → Pair) : (s.modPair i f).vectors = s.vectors := rfl
@[simp] theorem modPair_flowTx (i : Nat) (f : Pair → Pair) : (s.modPair i f).flowTx = s.flowTx := rfl
@[simp] theorem modPair_flowRx (i : Nat) (f : Pair → Pair) : (s.modPair i f).flowRx = s.flowRx := rfl
@[simp] theorem modPair_early (i : Nat) (f : Pair → Pair) : (s.modPair i f).early = s.early := rfl
@[simp] theorem modPair_lost (i : Nat) (f : Pair → Pair) : (s.modPair i f).lost = s.lost := rfl
@[simp] theorem modPair_unreach (i : Nat) (f : Pair → Pair) : (s.modPair i f).unreach = s.unreach := rfl
@[simp] theorem modPair_bridge (i : Nat) (f : Pair → Pair) : (s.modPair i f).bridge = s.bridge := rfl
@[simp] theorem modPair_ctr (i : Nat) (f : Pair → Pair) : (s.modPair i f).ctr = s.ctr := rfl
@[simp] theorem modPair_readOut (i : Nat) (f : Pair → Pair) : (s.modPair i f).readOut = s.readOut := rfl
@[simp] theorem modPair_hostOut (i : Nat) (f : Pair → Pair) : (s.modPair i f).hostOut = s.hostOut := rfl
@[simp] theorem modPair_nextId (i : Nat) (f : Pair → Pair) : (s.modPair i f).nextId = s.nextId := rfl
@[simp] theorem modPair_freeIdx (i : Nat) (f : Pair → Pair) : (s.modPair i f).freeIdx = s.freeIdx := rfl
@[simp] theorem modPair_pending (i : Nat) (f : Pair → Pair) : (s.modPair i f).pending = s.pending := rfl
@[simp] theorem modPair_part (i : Nat) (f : Pair → Pair) (j : Nat) : (s.modPair i f).part j = s.part j := rfl
@[simp] theorem modPair_port (i : Nat) (f : Pair → Pair) (j : Nat) : (s.modPair i f).port j = s.port j := rfl
@[simp] theorem modPair_now (i : Nat) (f : Pair → Pair) : (s.modPair i f).now  = s.now := rfl
@[simp] theorem modPair_myId (i : Nat) (f : Pair → Pair) : (s.modPair i f).myId  = s.myId := rfl
@[simp] theorem modPair_isReady (i : Nat) (f : Pair → Pair) : (s.modPair i f).isReady  = s.isReady := rfl
@[simp] theorem modPair_released (i : Nat) (f : Pair → Pair) : (s.modPair i f).released  = s.released := rfl
@[simp] theorem modPair_life (i : Nat) (f : Pair → Pair) : (s.modPair i f).life  = s.life := rfl
@[simp] theorem modPair_cmd_get (i : Nat) (f : Pair → Pair) (j : Nat) : (s.modPair i f).cmd? j = s.cmd? j := rfl
@[simp] theorem modPair_ctx_get (i : Nat) (f : Pair → Pair) (j : Nat) : (s.modPair i f).ctx? j = s.ctx? j := rfl
@[simp] theorem modPair_launch_get (i : Nat) (f : Pair → Pair) (j : Nat) : (s.modPair i f).launch? j = s.launch? j := rfl
@[simp] theorem modPair_job_get (i : Nat) (f : Pair → Pair) (j : Nat) : (s.modPair i f).job? j = s.job? j := rfl
@[simp] theorem modPair_search_get (i : Nat) (f : Pair → Pair) (j : Nat) : (s.modPair i f).search? j = s.search? j := rfl
@[simp] theorem modPair_fill_get (i : Nat) (f : Pair → Pair) (j : Nat) : (s.modPair i f).fill? j = s.fill? j := rfl
@[simp] theorem modPair_unit_get (i : Nat) (f : Pair → Pair) (v : EngineUnit) : (s.modPair i f).unit? v = s.unit? v := rfl

/-! ### modPart -/

@[simp] theorem modPart_power (i : Nat) (f : Partition → Partition) : (s.modPart i f).power = s.power := rfl
@[simp] theorem modPart_boot (i : Nat) (f : Partition → Partition) : (s.modPart i f).boot = s.boot := rfl
@[simp] theorem modPart_fuses (i : Nat) (f : Partition → Partition) : (s.modPart i f).fuses = s.fuses := rfl
@[simp] theorem modPart_flash (i : Nat) (f : Partition → Partition) : (s.modPart i f).flash = s.flash := rfl
@[simp] theorem modPart_sec (i : Nat) (f : Partition → Partition) : (s.modPart i f).sec = s.sec := rfl
@[simp] theorem modPart_ident (i : Nat) (f : Partition → Partition) : (s.modPart i f).ident = s.ident := rfl
@[simp] theorem modPart_sb (i : Nat) (f : Partition → Partition) : (s.modPart i f).sb = s.sb := rfl
@[simp] theorem modPart_lc (i : Nat) (f : Partition → Partition) : (s.modPart i f).lc = s.lc := rfl
@[simp] theorem modPart_lcLatch (i : Nat) (f : Partition → Partition) : (s.modPart i f).lcLatch = s.lcLatch := rfl
@[simp] theorem modPart_landing (i : Nat) (f : Partition → Partition) : (s.modPart i f).landing = s.landing := rfl
@[simp] theorem modPart_zeroing (i : Nat) (f : Partition → Partition) : (s.modPart i f).zeroing = s.zeroing := rfl
@[simp] theorem modPart_segRetired (i : Nat) (f : Partition → Partition) : (s.modPart i f).segRetired = s.segRetired := rfl
@[simp] theorem modPart_segErrs (i : Nat) (f : Partition → Partition) : (s.modPart i f).segErrs = s.segErrs := rfl
@[simp] theorem modPart_sparesUsed (i : Nat) (f : Partition → Partition) : (s.modPart i f).sparesUsed = s.sparesUsed := rfl
@[simp] theorem modPart_t1 (i : Nat) (f : Partition → Partition) : (s.modPart i f).t1 = s.t1 := rfl
@[simp] theorem modPart_pairs (i : Nat) (f : Partition → Partition) : (s.modPart i f).pairs = s.pairs := rfl
@[simp] theorem modPart_cmds (i : Nat) (f : Partition → Partition) : (s.modPart i f).cmds = s.cmds := rfl
@[simp] theorem modPart_ctxs (i : Nat) (f : Partition → Partition) : (s.modPart i f).ctxs = s.ctxs := rfl
@[simp] theorem modPart_stands (i : Nat) (f : Partition → Partition) : (s.modPart i f).stands = s.stands := rfl
@[simp] theorem modPart_units (i : Nat) (f : Partition → Partition) : (s.modPart i f).units = s.units := rfl
@[simp] theorem modPart_launches (i : Nat) (f : Partition → Partition) : (s.modPart i f).launches = s.launches := rfl
@[simp] theorem modPart_fills (i : Nat) (f : Partition → Partition) : (s.modPart i f).fills = s.fills := rfl
@[simp] theorem modPart_jobs (i : Nat) (f : Partition → Partition) : (s.modPart i f).jobs = s.jobs := rfl
@[simp] theorem modPart_searches (i : Nat) (f : Partition → Partition) : (s.modPart i f).searches = s.searches := rfl
@[simp] theorem modPart_calls (i : Nat) (f : Partition → Partition) : (s.modPart i f).calls = s.calls := rfl
@[simp] theorem modPart_fetched (i : Nat) (f : Partition → Partition) : (s.modPart i f).fetched = s.fetched := rfl
@[simp] theorem modPart_cut (i : Nat) (f : Partition → Partition) : (s.modPart i f).cut = s.cut := rfl
@[simp] theorem modPart_ports (i : Nat) (f : Partition → Partition) : (s.modPart i f).ports = s.ports := rfl
@[simp] theorem modPart_vectors (i : Nat) (f : Partition → Partition) : (s.modPart i f).vectors = s.vectors := rfl
@[simp] theorem modPart_flowTx (i : Nat) (f : Partition → Partition) : (s.modPart i f).flowTx = s.flowTx := rfl
@[simp] theorem modPart_flowRx (i : Nat) (f : Partition → Partition) : (s.modPart i f).flowRx = s.flowRx := rfl
@[simp] theorem modPart_early (i : Nat) (f : Partition → Partition) : (s.modPart i f).early = s.early := rfl
@[simp] theorem modPart_lost (i : Nat) (f : Partition → Partition) : (s.modPart i f).lost = s.lost := rfl
@[simp] theorem modPart_unreach (i : Nat) (f : Partition → Partition) : (s.modPart i f).unreach = s.unreach := rfl
@[simp] theorem modPart_bridge (i : Nat) (f : Partition → Partition) : (s.modPart i f).bridge = s.bridge := rfl
@[simp] theorem modPart_ctr (i : Nat) (f : Partition → Partition) : (s.modPart i f).ctr = s.ctr := rfl
@[simp] theorem modPart_readOut (i : Nat) (f : Partition → Partition) : (s.modPart i f).readOut = s.readOut := rfl
@[simp] theorem modPart_hostOut (i : Nat) (f : Partition → Partition) : (s.modPart i f).hostOut = s.hostOut := rfl
@[simp] theorem modPart_nextId (i : Nat) (f : Partition → Partition) : (s.modPart i f).nextId = s.nextId := rfl
@[simp] theorem modPart_freeIdx (i : Nat) (f : Partition → Partition) : (s.modPart i f).freeIdx = s.freeIdx := rfl
@[simp] theorem modPart_pending (i : Nat) (f : Partition → Partition) : (s.modPart i f).pending = s.pending := rfl
@[simp] theorem modPart_pair (i : Nat) (f : Partition → Partition) (j : Nat) : (s.modPart i f).pair j = s.pair j := rfl
@[simp] theorem modPart_port (i : Nat) (f : Partition → Partition) (j : Nat) : (s.modPart i f).port j = s.port j := rfl
@[simp] theorem modPart_now (i : Nat) (f : Partition → Partition) : (s.modPart i f).now  = s.now := rfl
@[simp] theorem modPart_myId (i : Nat) (f : Partition → Partition) : (s.modPart i f).myId  = s.myId := rfl
@[simp] theorem modPart_isReady (i : Nat) (f : Partition → Partition) : (s.modPart i f).isReady  = s.isReady := rfl
@[simp] theorem modPart_released (i : Nat) (f : Partition → Partition) : (s.modPart i f).released  = s.released := rfl
@[simp] theorem modPart_life (i : Nat) (f : Partition → Partition) : (s.modPart i f).life  = s.life := rfl
@[simp] theorem modPart_cmd_get (i : Nat) (f : Partition → Partition) (j : Nat) : (s.modPart i f).cmd? j = s.cmd? j := rfl
@[simp] theorem modPart_ctx_get (i : Nat) (f : Partition → Partition) (j : Nat) : (s.modPart i f).ctx? j = s.ctx? j := rfl
@[simp] theorem modPart_launch_get (i : Nat) (f : Partition → Partition) (j : Nat) : (s.modPart i f).launch? j = s.launch? j := rfl
@[simp] theorem modPart_job_get (i : Nat) (f : Partition → Partition) (j : Nat) : (s.modPart i f).job? j = s.job? j := rfl
@[simp] theorem modPart_search_get (i : Nat) (f : Partition → Partition) (j : Nat) : (s.modPart i f).search? j = s.search? j := rfl
@[simp] theorem modPart_fill_get (i : Nat) (f : Partition → Partition) (j : Nat) : (s.modPart i f).fill? j = s.fill? j := rfl
@[simp] theorem modPart_unit_get (i : Nat) (f : Partition → Partition) (v : EngineUnit) : (s.modPart i f).unit? v = s.unit? v := rfl

/-! ### modPort -/

@[simp] theorem modPort_power (i : Nat) (f : Port → Port) : (s.modPort i f).power = s.power := rfl
@[simp] theorem modPort_boot (i : Nat) (f : Port → Port) : (s.modPort i f).boot = s.boot := rfl
@[simp] theorem modPort_fuses (i : Nat) (f : Port → Port) : (s.modPort i f).fuses = s.fuses := rfl
@[simp] theorem modPort_flash (i : Nat) (f : Port → Port) : (s.modPort i f).flash = s.flash := rfl
@[simp] theorem modPort_sec (i : Nat) (f : Port → Port) : (s.modPort i f).sec = s.sec := rfl
@[simp] theorem modPort_ident (i : Nat) (f : Port → Port) : (s.modPort i f).ident = s.ident := rfl
@[simp] theorem modPort_sb (i : Nat) (f : Port → Port) : (s.modPort i f).sb = s.sb := rfl
@[simp] theorem modPort_lc (i : Nat) (f : Port → Port) : (s.modPort i f).lc = s.lc := rfl
@[simp] theorem modPort_lcLatch (i : Nat) (f : Port → Port) : (s.modPort i f).lcLatch = s.lcLatch := rfl
@[simp] theorem modPort_landing (i : Nat) (f : Port → Port) : (s.modPort i f).landing = s.landing := rfl
@[simp] theorem modPort_zeroing (i : Nat) (f : Port → Port) : (s.modPort i f).zeroing = s.zeroing := rfl
@[simp] theorem modPort_segRetired (i : Nat) (f : Port → Port) : (s.modPort i f).segRetired = s.segRetired := rfl
@[simp] theorem modPort_segErrs (i : Nat) (f : Port → Port) : (s.modPort i f).segErrs = s.segErrs := rfl
@[simp] theorem modPort_sparesUsed (i : Nat) (f : Port → Port) : (s.modPort i f).sparesUsed = s.sparesUsed := rfl
@[simp] theorem modPort_t1 (i : Nat) (f : Port → Port) : (s.modPort i f).t1 = s.t1 := rfl
@[simp] theorem modPort_pairs (i : Nat) (f : Port → Port) : (s.modPort i f).pairs = s.pairs := rfl
@[simp] theorem modPort_parts (i : Nat) (f : Port → Port) : (s.modPort i f).parts = s.parts := rfl
@[simp] theorem modPort_cmds (i : Nat) (f : Port → Port) : (s.modPort i f).cmds = s.cmds := rfl
@[simp] theorem modPort_ctxs (i : Nat) (f : Port → Port) : (s.modPort i f).ctxs = s.ctxs := rfl
@[simp] theorem modPort_stands (i : Nat) (f : Port → Port) : (s.modPort i f).stands = s.stands := rfl
@[simp] theorem modPort_units (i : Nat) (f : Port → Port) : (s.modPort i f).units = s.units := rfl
@[simp] theorem modPort_launches (i : Nat) (f : Port → Port) : (s.modPort i f).launches = s.launches := rfl
@[simp] theorem modPort_fills (i : Nat) (f : Port → Port) : (s.modPort i f).fills = s.fills := rfl
@[simp] theorem modPort_jobs (i : Nat) (f : Port → Port) : (s.modPort i f).jobs = s.jobs := rfl
@[simp] theorem modPort_searches (i : Nat) (f : Port → Port) : (s.modPort i f).searches = s.searches := rfl
@[simp] theorem modPort_calls (i : Nat) (f : Port → Port) : (s.modPort i f).calls = s.calls := rfl
@[simp] theorem modPort_fetched (i : Nat) (f : Port → Port) : (s.modPort i f).fetched = s.fetched := rfl
@[simp] theorem modPort_cut (i : Nat) (f : Port → Port) : (s.modPort i f).cut = s.cut := rfl
@[simp] theorem modPort_vectors (i : Nat) (f : Port → Port) : (s.modPort i f).vectors = s.vectors := rfl
@[simp] theorem modPort_flowTx (i : Nat) (f : Port → Port) : (s.modPort i f).flowTx = s.flowTx := rfl
@[simp] theorem modPort_flowRx (i : Nat) (f : Port → Port) : (s.modPort i f).flowRx = s.flowRx := rfl
@[simp] theorem modPort_early (i : Nat) (f : Port → Port) : (s.modPort i f).early = s.early := rfl
@[simp] theorem modPort_lost (i : Nat) (f : Port → Port) : (s.modPort i f).lost = s.lost := rfl
@[simp] theorem modPort_unreach (i : Nat) (f : Port → Port) : (s.modPort i f).unreach = s.unreach := rfl
@[simp] theorem modPort_bridge (i : Nat) (f : Port → Port) : (s.modPort i f).bridge = s.bridge := rfl
@[simp] theorem modPort_ctr (i : Nat) (f : Port → Port) : (s.modPort i f).ctr = s.ctr := rfl
@[simp] theorem modPort_readOut (i : Nat) (f : Port → Port) : (s.modPort i f).readOut = s.readOut := rfl
@[simp] theorem modPort_hostOut (i : Nat) (f : Port → Port) : (s.modPort i f).hostOut = s.hostOut := rfl
@[simp] theorem modPort_nextId (i : Nat) (f : Port → Port) : (s.modPort i f).nextId = s.nextId := rfl
@[simp] theorem modPort_freeIdx (i : Nat) (f : Port → Port) : (s.modPort i f).freeIdx = s.freeIdx := rfl
@[simp] theorem modPort_pending (i : Nat) (f : Port → Port) : (s.modPort i f).pending = s.pending := rfl
@[simp] theorem modPort_pair (i : Nat) (f : Port → Port) (j : Nat) : (s.modPort i f).pair j = s.pair j := rfl
@[simp] theorem modPort_part (i : Nat) (f : Port → Port) (j : Nat) : (s.modPort i f).part j = s.part j := rfl
@[simp] theorem modPort_now (i : Nat) (f : Port → Port) : (s.modPort i f).now  = s.now := rfl
@[simp] theorem modPort_myId (i : Nat) (f : Port → Port) : (s.modPort i f).myId  = s.myId := rfl
@[simp] theorem modPort_isReady (i : Nat) (f : Port → Port) : (s.modPort i f).isReady  = s.isReady := rfl
@[simp] theorem modPort_released (i : Nat) (f : Port → Port) : (s.modPort i f).released  = s.released := rfl
@[simp] theorem modPort_life (i : Nat) (f : Port → Port) : (s.modPort i f).life  = s.life := rfl
@[simp] theorem modPort_cmd_get (i : Nat) (f : Port → Port) (j : Nat) : (s.modPort i f).cmd? j = s.cmd? j := rfl
@[simp] theorem modPort_ctx_get (i : Nat) (f : Port → Port) (j : Nat) : (s.modPort i f).ctx? j = s.ctx? j := rfl
@[simp] theorem modPort_launch_get (i : Nat) (f : Port → Port) (j : Nat) : (s.modPort i f).launch? j = s.launch? j := rfl
@[simp] theorem modPort_job_get (i : Nat) (f : Port → Port) (j : Nat) : (s.modPort i f).job? j = s.job? j := rfl
@[simp] theorem modPort_search_get (i : Nat) (f : Port → Port) (j : Nat) : (s.modPort i f).search? j = s.search? j := rfl
@[simp] theorem modPort_fill_get (i : Nat) (f : Port → Port) (j : Nat) : (s.modPort i f).fill? j = s.fill? j := rfl
@[simp] theorem modPort_unit_get (i : Nat) (f : Port → Port) (v : EngineUnit) : (s.modPort i f).unit? v = s.unit? v := rfl

/-! ### modCmd -/

@[simp] theorem modCmd_power (t : Nat) (f : Cmd → Cmd) : (s.modCmd t f).power = s.power := rfl
@[simp] theorem modCmd_boot (t : Nat) (f : Cmd → Cmd) : (s.modCmd t f).boot = s.boot := rfl
@[simp] theorem modCmd_fuses (t : Nat) (f : Cmd → Cmd) : (s.modCmd t f).fuses = s.fuses := rfl
@[simp] theorem modCmd_flash (t : Nat) (f : Cmd → Cmd) : (s.modCmd t f).flash = s.flash := rfl
@[simp] theorem modCmd_sec (t : Nat) (f : Cmd → Cmd) : (s.modCmd t f).sec = s.sec := rfl
@[simp] theorem modCmd_ident (t : Nat) (f : Cmd → Cmd) : (s.modCmd t f).ident = s.ident := rfl
@[simp] theorem modCmd_sb (t : Nat) (f : Cmd → Cmd) : (s.modCmd t f).sb = s.sb := rfl
@[simp] theorem modCmd_lc (t : Nat) (f : Cmd → Cmd) : (s.modCmd t f).lc = s.lc := rfl
@[simp] theorem modCmd_lcLatch (t : Nat) (f : Cmd → Cmd) : (s.modCmd t f).lcLatch = s.lcLatch := rfl
@[simp] theorem modCmd_landing (t : Nat) (f : Cmd → Cmd) : (s.modCmd t f).landing = s.landing := rfl
@[simp] theorem modCmd_zeroing (t : Nat) (f : Cmd → Cmd) : (s.modCmd t f).zeroing = s.zeroing := rfl
@[simp] theorem modCmd_segRetired (t : Nat) (f : Cmd → Cmd) : (s.modCmd t f).segRetired = s.segRetired := rfl
@[simp] theorem modCmd_segErrs (t : Nat) (f : Cmd → Cmd) : (s.modCmd t f).segErrs = s.segErrs := rfl
@[simp] theorem modCmd_sparesUsed (t : Nat) (f : Cmd → Cmd) : (s.modCmd t f).sparesUsed = s.sparesUsed := rfl
@[simp] theorem modCmd_t1 (t : Nat) (f : Cmd → Cmd) : (s.modCmd t f).t1 = s.t1 := rfl
@[simp] theorem modCmd_pairs (t : Nat) (f : Cmd → Cmd) : (s.modCmd t f).pairs = s.pairs := rfl
@[simp] theorem modCmd_parts (t : Nat) (f : Cmd → Cmd) : (s.modCmd t f).parts = s.parts := rfl
@[simp] theorem modCmd_ctxs (t : Nat) (f : Cmd → Cmd) : (s.modCmd t f).ctxs = s.ctxs := rfl
@[simp] theorem modCmd_stands (t : Nat) (f : Cmd → Cmd) : (s.modCmd t f).stands = s.stands := rfl
@[simp] theorem modCmd_units (t : Nat) (f : Cmd → Cmd) : (s.modCmd t f).units = s.units := rfl
@[simp] theorem modCmd_launches (t : Nat) (f : Cmd → Cmd) : (s.modCmd t f).launches = s.launches := rfl
@[simp] theorem modCmd_fills (t : Nat) (f : Cmd → Cmd) : (s.modCmd t f).fills = s.fills := rfl
@[simp] theorem modCmd_jobs (t : Nat) (f : Cmd → Cmd) : (s.modCmd t f).jobs = s.jobs := rfl
@[simp] theorem modCmd_searches (t : Nat) (f : Cmd → Cmd) : (s.modCmd t f).searches = s.searches := rfl
@[simp] theorem modCmd_calls (t : Nat) (f : Cmd → Cmd) : (s.modCmd t f).calls = s.calls := rfl
@[simp] theorem modCmd_fetched (t : Nat) (f : Cmd → Cmd) : (s.modCmd t f).fetched = s.fetched := rfl
@[simp] theorem modCmd_cut (t : Nat) (f : Cmd → Cmd) : (s.modCmd t f).cut = s.cut := rfl
@[simp] theorem modCmd_ports (t : Nat) (f : Cmd → Cmd) : (s.modCmd t f).ports = s.ports := rfl
@[simp] theorem modCmd_vectors (t : Nat) (f : Cmd → Cmd) : (s.modCmd t f).vectors = s.vectors := rfl
@[simp] theorem modCmd_flowTx (t : Nat) (f : Cmd → Cmd) : (s.modCmd t f).flowTx = s.flowTx := rfl
@[simp] theorem modCmd_flowRx (t : Nat) (f : Cmd → Cmd) : (s.modCmd t f).flowRx = s.flowRx := rfl
@[simp] theorem modCmd_early (t : Nat) (f : Cmd → Cmd) : (s.modCmd t f).early = s.early := rfl
@[simp] theorem modCmd_lost (t : Nat) (f : Cmd → Cmd) : (s.modCmd t f).lost = s.lost := rfl
@[simp] theorem modCmd_unreach (t : Nat) (f : Cmd → Cmd) : (s.modCmd t f).unreach = s.unreach := rfl
@[simp] theorem modCmd_bridge (t : Nat) (f : Cmd → Cmd) : (s.modCmd t f).bridge = s.bridge := rfl
@[simp] theorem modCmd_ctr (t : Nat) (f : Cmd → Cmd) : (s.modCmd t f).ctr = s.ctr := rfl
@[simp] theorem modCmd_readOut (t : Nat) (f : Cmd → Cmd) : (s.modCmd t f).readOut = s.readOut := rfl
@[simp] theorem modCmd_hostOut (t : Nat) (f : Cmd → Cmd) : (s.modCmd t f).hostOut = s.hostOut := rfl
@[simp] theorem modCmd_nextId (t : Nat) (f : Cmd → Cmd) : (s.modCmd t f).nextId = s.nextId := rfl
@[simp] theorem modCmd_freeIdx (t : Nat) (f : Cmd → Cmd) : (s.modCmd t f).freeIdx = s.freeIdx := rfl
@[simp] theorem modCmd_pending (t : Nat) (f : Cmd → Cmd) : (s.modCmd t f).pending = s.pending := rfl
@[simp] theorem modCmd_pair (t : Nat) (f : Cmd → Cmd) (j : Nat) : (s.modCmd t f).pair j = s.pair j := rfl
@[simp] theorem modCmd_part (t : Nat) (f : Cmd → Cmd) (j : Nat) : (s.modCmd t f).part j = s.part j := rfl
@[simp] theorem modCmd_port (t : Nat) (f : Cmd → Cmd) (j : Nat) : (s.modCmd t f).port j = s.port j := rfl
@[simp] theorem modCmd_now (t : Nat) (f : Cmd → Cmd) : (s.modCmd t f).now  = s.now := rfl
@[simp] theorem modCmd_myId (t : Nat) (f : Cmd → Cmd) : (s.modCmd t f).myId  = s.myId := rfl
@[simp] theorem modCmd_isReady (t : Nat) (f : Cmd → Cmd) : (s.modCmd t f).isReady  = s.isReady := rfl
@[simp] theorem modCmd_released (t : Nat) (f : Cmd → Cmd) : (s.modCmd t f).released  = s.released := rfl
@[simp] theorem modCmd_life (t : Nat) (f : Cmd → Cmd) : (s.modCmd t f).life  = s.life := rfl
@[simp] theorem modCmd_ctx_get (t : Nat) (f : Cmd → Cmd) (j : Nat) : (s.modCmd t f).ctx? j = s.ctx? j := rfl
@[simp] theorem modCmd_launch_get (t : Nat) (f : Cmd → Cmd) (j : Nat) : (s.modCmd t f).launch? j = s.launch? j := rfl
@[simp] theorem modCmd_job_get (t : Nat) (f : Cmd → Cmd) (j : Nat) : (s.modCmd t f).job? j = s.job? j := rfl
@[simp] theorem modCmd_search_get (t : Nat) (f : Cmd → Cmd) (j : Nat) : (s.modCmd t f).search? j = s.search? j := rfl
@[simp] theorem modCmd_fill_get (t : Nat) (f : Cmd → Cmd) (j : Nat) : (s.modCmd t f).fill? j = s.fill? j := rfl
@[simp] theorem modCmd_unit_get (t : Nat) (f : Cmd → Cmd) (v : EngineUnit) : (s.modCmd t f).unit? v = s.unit? v := rfl

/-! ### dropCmd -/

@[simp] theorem dropCmd_power (t : Nat) : (s.dropCmd t).power = s.power := rfl
@[simp] theorem dropCmd_boot (t : Nat) : (s.dropCmd t).boot = s.boot := rfl
@[simp] theorem dropCmd_fuses (t : Nat) : (s.dropCmd t).fuses = s.fuses := rfl
@[simp] theorem dropCmd_flash (t : Nat) : (s.dropCmd t).flash = s.flash := rfl
@[simp] theorem dropCmd_sec (t : Nat) : (s.dropCmd t).sec = s.sec := rfl
@[simp] theorem dropCmd_ident (t : Nat) : (s.dropCmd t).ident = s.ident := rfl
@[simp] theorem dropCmd_sb (t : Nat) : (s.dropCmd t).sb = s.sb := rfl
@[simp] theorem dropCmd_lc (t : Nat) : (s.dropCmd t).lc = s.lc := rfl
@[simp] theorem dropCmd_lcLatch (t : Nat) : (s.dropCmd t).lcLatch = s.lcLatch := rfl
@[simp] theorem dropCmd_landing (t : Nat) : (s.dropCmd t).landing = s.landing := rfl
@[simp] theorem dropCmd_zeroing (t : Nat) : (s.dropCmd t).zeroing = s.zeroing := rfl
@[simp] theorem dropCmd_segRetired (t : Nat) : (s.dropCmd t).segRetired = s.segRetired := rfl
@[simp] theorem dropCmd_segErrs (t : Nat) : (s.dropCmd t).segErrs = s.segErrs := rfl
@[simp] theorem dropCmd_sparesUsed (t : Nat) : (s.dropCmd t).sparesUsed = s.sparesUsed := rfl
@[simp] theorem dropCmd_t1 (t : Nat) : (s.dropCmd t).t1 = s.t1 := rfl
@[simp] theorem dropCmd_pairs (t : Nat) : (s.dropCmd t).pairs = s.pairs := rfl
@[simp] theorem dropCmd_parts (t : Nat) : (s.dropCmd t).parts = s.parts := rfl
@[simp] theorem dropCmd_ctxs (t : Nat) : (s.dropCmd t).ctxs = s.ctxs := rfl
@[simp] theorem dropCmd_stands (t : Nat) : (s.dropCmd t).stands = s.stands := rfl
@[simp] theorem dropCmd_units (t : Nat) : (s.dropCmd t).units = s.units := rfl
@[simp] theorem dropCmd_launches (t : Nat) : (s.dropCmd t).launches = s.launches := rfl
@[simp] theorem dropCmd_fills (t : Nat) : (s.dropCmd t).fills = s.fills := rfl
@[simp] theorem dropCmd_jobs (t : Nat) : (s.dropCmd t).jobs = s.jobs := rfl
@[simp] theorem dropCmd_searches (t : Nat) : (s.dropCmd t).searches = s.searches := rfl
@[simp] theorem dropCmd_calls (t : Nat) : (s.dropCmd t).calls = s.calls := rfl
@[simp] theorem dropCmd_fetched (t : Nat) : (s.dropCmd t).fetched = s.fetched := rfl
@[simp] theorem dropCmd_cut (t : Nat) : (s.dropCmd t).cut = s.cut := rfl
@[simp] theorem dropCmd_ports (t : Nat) : (s.dropCmd t).ports = s.ports := rfl
@[simp] theorem dropCmd_vectors (t : Nat) : (s.dropCmd t).vectors = s.vectors := rfl
@[simp] theorem dropCmd_flowTx (t : Nat) : (s.dropCmd t).flowTx = s.flowTx := rfl
@[simp] theorem dropCmd_flowRx (t : Nat) : (s.dropCmd t).flowRx = s.flowRx := rfl
@[simp] theorem dropCmd_early (t : Nat) : (s.dropCmd t).early = s.early := rfl
@[simp] theorem dropCmd_lost (t : Nat) : (s.dropCmd t).lost = s.lost := rfl
@[simp] theorem dropCmd_unreach (t : Nat) : (s.dropCmd t).unreach = s.unreach := rfl
@[simp] theorem dropCmd_bridge (t : Nat) : (s.dropCmd t).bridge = s.bridge := rfl
@[simp] theorem dropCmd_ctr (t : Nat) : (s.dropCmd t).ctr = s.ctr := rfl
@[simp] theorem dropCmd_readOut (t : Nat) : (s.dropCmd t).readOut = s.readOut := rfl
@[simp] theorem dropCmd_hostOut (t : Nat) : (s.dropCmd t).hostOut = s.hostOut := rfl
@[simp] theorem dropCmd_nextId (t : Nat) : (s.dropCmd t).nextId = s.nextId := rfl
@[simp] theorem dropCmd_freeIdx (t : Nat) : (s.dropCmd t).freeIdx = s.freeIdx := rfl
@[simp] theorem dropCmd_pending (t : Nat) : (s.dropCmd t).pending = s.pending := rfl
@[simp] theorem dropCmd_pair (t : Nat) (j : Nat) : (s.dropCmd t).pair j = s.pair j := rfl
@[simp] theorem dropCmd_part (t : Nat) (j : Nat) : (s.dropCmd t).part j = s.part j := rfl
@[simp] theorem dropCmd_port (t : Nat) (j : Nat) : (s.dropCmd t).port j = s.port j := rfl
@[simp] theorem dropCmd_now (t : Nat) : (s.dropCmd t).now  = s.now := rfl
@[simp] theorem dropCmd_myId (t : Nat) : (s.dropCmd t).myId  = s.myId := rfl
@[simp] theorem dropCmd_isReady (t : Nat) : (s.dropCmd t).isReady  = s.isReady := rfl
@[simp] theorem dropCmd_released (t : Nat) : (s.dropCmd t).released  = s.released := rfl
@[simp] theorem dropCmd_life (t : Nat) : (s.dropCmd t).life  = s.life := rfl
@[simp] theorem dropCmd_ctx_get (t : Nat) (j : Nat) : (s.dropCmd t).ctx? j = s.ctx? j := rfl
@[simp] theorem dropCmd_launch_get (t : Nat) (j : Nat) : (s.dropCmd t).launch? j = s.launch? j := rfl
@[simp] theorem dropCmd_job_get (t : Nat) (j : Nat) : (s.dropCmd t).job? j = s.job? j := rfl
@[simp] theorem dropCmd_search_get (t : Nat) (j : Nat) : (s.dropCmd t).search? j = s.search? j := rfl
@[simp] theorem dropCmd_fill_get (t : Nat) (j : Nat) : (s.dropCmd t).fill? j = s.fill? j := rfl
@[simp] theorem dropCmd_unit_get (t : Nat) (v : EngineUnit) : (s.dropCmd t).unit? v = s.unit? v := rfl

/-! ### modCtx -/

@[simp] theorem modCtx_power (i : Nat) (f : Ctx → Ctx) : (s.modCtx i f).power = s.power := rfl
@[simp] theorem modCtx_boot (i : Nat) (f : Ctx → Ctx) : (s.modCtx i f).boot = s.boot := rfl
@[simp] theorem modCtx_fuses (i : Nat) (f : Ctx → Ctx) : (s.modCtx i f).fuses = s.fuses := rfl
@[simp] theorem modCtx_flash (i : Nat) (f : Ctx → Ctx) : (s.modCtx i f).flash = s.flash := rfl
@[simp] theorem modCtx_sec (i : Nat) (f : Ctx → Ctx) : (s.modCtx i f).sec = s.sec := rfl
@[simp] theorem modCtx_ident (i : Nat) (f : Ctx → Ctx) : (s.modCtx i f).ident = s.ident := rfl
@[simp] theorem modCtx_sb (i : Nat) (f : Ctx → Ctx) : (s.modCtx i f).sb = s.sb := rfl
@[simp] theorem modCtx_lc (i : Nat) (f : Ctx → Ctx) : (s.modCtx i f).lc = s.lc := rfl
@[simp] theorem modCtx_lcLatch (i : Nat) (f : Ctx → Ctx) : (s.modCtx i f).lcLatch = s.lcLatch := rfl
@[simp] theorem modCtx_landing (i : Nat) (f : Ctx → Ctx) : (s.modCtx i f).landing = s.landing := rfl
@[simp] theorem modCtx_zeroing (i : Nat) (f : Ctx → Ctx) : (s.modCtx i f).zeroing = s.zeroing := rfl
@[simp] theorem modCtx_segRetired (i : Nat) (f : Ctx → Ctx) : (s.modCtx i f).segRetired = s.segRetired := rfl
@[simp] theorem modCtx_segErrs (i : Nat) (f : Ctx → Ctx) : (s.modCtx i f).segErrs = s.segErrs := rfl
@[simp] theorem modCtx_sparesUsed (i : Nat) (f : Ctx → Ctx) : (s.modCtx i f).sparesUsed = s.sparesUsed := rfl
@[simp] theorem modCtx_t1 (i : Nat) (f : Ctx → Ctx) : (s.modCtx i f).t1 = s.t1 := rfl
@[simp] theorem modCtx_pairs (i : Nat) (f : Ctx → Ctx) : (s.modCtx i f).pairs = s.pairs := rfl
@[simp] theorem modCtx_parts (i : Nat) (f : Ctx → Ctx) : (s.modCtx i f).parts = s.parts := rfl
@[simp] theorem modCtx_cmds (i : Nat) (f : Ctx → Ctx) : (s.modCtx i f).cmds = s.cmds := rfl
@[simp] theorem modCtx_stands (i : Nat) (f : Ctx → Ctx) : (s.modCtx i f).stands = s.stands := rfl
@[simp] theorem modCtx_units (i : Nat) (f : Ctx → Ctx) : (s.modCtx i f).units = s.units := rfl
@[simp] theorem modCtx_launches (i : Nat) (f : Ctx → Ctx) : (s.modCtx i f).launches = s.launches := rfl
@[simp] theorem modCtx_fills (i : Nat) (f : Ctx → Ctx) : (s.modCtx i f).fills = s.fills := rfl
@[simp] theorem modCtx_jobs (i : Nat) (f : Ctx → Ctx) : (s.modCtx i f).jobs = s.jobs := rfl
@[simp] theorem modCtx_searches (i : Nat) (f : Ctx → Ctx) : (s.modCtx i f).searches = s.searches := rfl
@[simp] theorem modCtx_calls (i : Nat) (f : Ctx → Ctx) : (s.modCtx i f).calls = s.calls := rfl
@[simp] theorem modCtx_fetched (i : Nat) (f : Ctx → Ctx) : (s.modCtx i f).fetched = s.fetched := rfl
@[simp] theorem modCtx_cut (i : Nat) (f : Ctx → Ctx) : (s.modCtx i f).cut = s.cut := rfl
@[simp] theorem modCtx_ports (i : Nat) (f : Ctx → Ctx) : (s.modCtx i f).ports = s.ports := rfl
@[simp] theorem modCtx_vectors (i : Nat) (f : Ctx → Ctx) : (s.modCtx i f).vectors = s.vectors := rfl
@[simp] theorem modCtx_flowTx (i : Nat) (f : Ctx → Ctx) : (s.modCtx i f).flowTx = s.flowTx := rfl
@[simp] theorem modCtx_flowRx (i : Nat) (f : Ctx → Ctx) : (s.modCtx i f).flowRx = s.flowRx := rfl
@[simp] theorem modCtx_early (i : Nat) (f : Ctx → Ctx) : (s.modCtx i f).early = s.early := rfl
@[simp] theorem modCtx_lost (i : Nat) (f : Ctx → Ctx) : (s.modCtx i f).lost = s.lost := rfl
@[simp] theorem modCtx_unreach (i : Nat) (f : Ctx → Ctx) : (s.modCtx i f).unreach = s.unreach := rfl
@[simp] theorem modCtx_bridge (i : Nat) (f : Ctx → Ctx) : (s.modCtx i f).bridge = s.bridge := rfl
@[simp] theorem modCtx_ctr (i : Nat) (f : Ctx → Ctx) : (s.modCtx i f).ctr = s.ctr := rfl
@[simp] theorem modCtx_readOut (i : Nat) (f : Ctx → Ctx) : (s.modCtx i f).readOut = s.readOut := rfl
@[simp] theorem modCtx_hostOut (i : Nat) (f : Ctx → Ctx) : (s.modCtx i f).hostOut = s.hostOut := rfl
@[simp] theorem modCtx_nextId (i : Nat) (f : Ctx → Ctx) : (s.modCtx i f).nextId = s.nextId := rfl
@[simp] theorem modCtx_freeIdx (i : Nat) (f : Ctx → Ctx) : (s.modCtx i f).freeIdx = s.freeIdx := rfl
@[simp] theorem modCtx_pending (i : Nat) (f : Ctx → Ctx) : (s.modCtx i f).pending = s.pending := rfl
@[simp] theorem modCtx_pair (i : Nat) (f : Ctx → Ctx) (j : Nat) : (s.modCtx i f).pair j = s.pair j := rfl
@[simp] theorem modCtx_part (i : Nat) (f : Ctx → Ctx) (j : Nat) : (s.modCtx i f).part j = s.part j := rfl
@[simp] theorem modCtx_port (i : Nat) (f : Ctx → Ctx) (j : Nat) : (s.modCtx i f).port j = s.port j := rfl
@[simp] theorem modCtx_now (i : Nat) (f : Ctx → Ctx) : (s.modCtx i f).now  = s.now := rfl
@[simp] theorem modCtx_myId (i : Nat) (f : Ctx → Ctx) : (s.modCtx i f).myId  = s.myId := rfl
@[simp] theorem modCtx_isReady (i : Nat) (f : Ctx → Ctx) : (s.modCtx i f).isReady  = s.isReady := rfl
@[simp] theorem modCtx_released (i : Nat) (f : Ctx → Ctx) : (s.modCtx i f).released  = s.released := rfl
@[simp] theorem modCtx_life (i : Nat) (f : Ctx → Ctx) : (s.modCtx i f).life  = s.life := rfl
@[simp] theorem modCtx_cmd_get (i : Nat) (f : Ctx → Ctx) (j : Nat) : (s.modCtx i f).cmd? j = s.cmd? j := rfl
@[simp] theorem modCtx_launch_get (i : Nat) (f : Ctx → Ctx) (j : Nat) : (s.modCtx i f).launch? j = s.launch? j := rfl
@[simp] theorem modCtx_job_get (i : Nat) (f : Ctx → Ctx) (j : Nat) : (s.modCtx i f).job? j = s.job? j := rfl
@[simp] theorem modCtx_search_get (i : Nat) (f : Ctx → Ctx) (j : Nat) : (s.modCtx i f).search? j = s.search? j := rfl
@[simp] theorem modCtx_fill_get (i : Nat) (f : Ctx → Ctx) (j : Nat) : (s.modCtx i f).fill? j = s.fill? j := rfl
@[simp] theorem modCtx_unit_get (i : Nat) (f : Ctx → Ctx) (v : EngineUnit) : (s.modCtx i f).unit? v = s.unit? v := rfl

/-! ### modLaunch -/

@[simp] theorem modLaunch_power (i : Nat) (f : Launch → Launch) : (s.modLaunch i f).power = s.power := rfl
@[simp] theorem modLaunch_boot (i : Nat) (f : Launch → Launch) : (s.modLaunch i f).boot = s.boot := rfl
@[simp] theorem modLaunch_fuses (i : Nat) (f : Launch → Launch) : (s.modLaunch i f).fuses = s.fuses := rfl
@[simp] theorem modLaunch_flash (i : Nat) (f : Launch → Launch) : (s.modLaunch i f).flash = s.flash := rfl
@[simp] theorem modLaunch_sec (i : Nat) (f : Launch → Launch) : (s.modLaunch i f).sec = s.sec := rfl
@[simp] theorem modLaunch_ident (i : Nat) (f : Launch → Launch) : (s.modLaunch i f).ident = s.ident := rfl
@[simp] theorem modLaunch_sb (i : Nat) (f : Launch → Launch) : (s.modLaunch i f).sb = s.sb := rfl
@[simp] theorem modLaunch_lc (i : Nat) (f : Launch → Launch) : (s.modLaunch i f).lc = s.lc := rfl
@[simp] theorem modLaunch_lcLatch (i : Nat) (f : Launch → Launch) : (s.modLaunch i f).lcLatch = s.lcLatch := rfl
@[simp] theorem modLaunch_landing (i : Nat) (f : Launch → Launch) : (s.modLaunch i f).landing = s.landing := rfl
@[simp] theorem modLaunch_zeroing (i : Nat) (f : Launch → Launch) : (s.modLaunch i f).zeroing = s.zeroing := rfl
@[simp] theorem modLaunch_segRetired (i : Nat) (f : Launch → Launch) : (s.modLaunch i f).segRetired = s.segRetired := rfl
@[simp] theorem modLaunch_segErrs (i : Nat) (f : Launch → Launch) : (s.modLaunch i f).segErrs = s.segErrs := rfl
@[simp] theorem modLaunch_sparesUsed (i : Nat) (f : Launch → Launch) : (s.modLaunch i f).sparesUsed = s.sparesUsed := rfl
@[simp] theorem modLaunch_t1 (i : Nat) (f : Launch → Launch) : (s.modLaunch i f).t1 = s.t1 := rfl
@[simp] theorem modLaunch_pairs (i : Nat) (f : Launch → Launch) : (s.modLaunch i f).pairs = s.pairs := rfl
@[simp] theorem modLaunch_parts (i : Nat) (f : Launch → Launch) : (s.modLaunch i f).parts = s.parts := rfl
@[simp] theorem modLaunch_cmds (i : Nat) (f : Launch → Launch) : (s.modLaunch i f).cmds = s.cmds := rfl
@[simp] theorem modLaunch_ctxs (i : Nat) (f : Launch → Launch) : (s.modLaunch i f).ctxs = s.ctxs := rfl
@[simp] theorem modLaunch_stands (i : Nat) (f : Launch → Launch) : (s.modLaunch i f).stands = s.stands := rfl
@[simp] theorem modLaunch_units (i : Nat) (f : Launch → Launch) : (s.modLaunch i f).units = s.units := rfl
@[simp] theorem modLaunch_fills (i : Nat) (f : Launch → Launch) : (s.modLaunch i f).fills = s.fills := rfl
@[simp] theorem modLaunch_jobs (i : Nat) (f : Launch → Launch) : (s.modLaunch i f).jobs = s.jobs := rfl
@[simp] theorem modLaunch_searches (i : Nat) (f : Launch → Launch) : (s.modLaunch i f).searches = s.searches := rfl
@[simp] theorem modLaunch_calls (i : Nat) (f : Launch → Launch) : (s.modLaunch i f).calls = s.calls := rfl
@[simp] theorem modLaunch_fetched (i : Nat) (f : Launch → Launch) : (s.modLaunch i f).fetched = s.fetched := rfl
@[simp] theorem modLaunch_cut (i : Nat) (f : Launch → Launch) : (s.modLaunch i f).cut = s.cut := rfl
@[simp] theorem modLaunch_ports (i : Nat) (f : Launch → Launch) : (s.modLaunch i f).ports = s.ports := rfl
@[simp] theorem modLaunch_vectors (i : Nat) (f : Launch → Launch) : (s.modLaunch i f).vectors = s.vectors := rfl
@[simp] theorem modLaunch_flowTx (i : Nat) (f : Launch → Launch) : (s.modLaunch i f).flowTx = s.flowTx := rfl
@[simp] theorem modLaunch_flowRx (i : Nat) (f : Launch → Launch) : (s.modLaunch i f).flowRx = s.flowRx := rfl
@[simp] theorem modLaunch_early (i : Nat) (f : Launch → Launch) : (s.modLaunch i f).early = s.early := rfl
@[simp] theorem modLaunch_lost (i : Nat) (f : Launch → Launch) : (s.modLaunch i f).lost = s.lost := rfl
@[simp] theorem modLaunch_unreach (i : Nat) (f : Launch → Launch) : (s.modLaunch i f).unreach = s.unreach := rfl
@[simp] theorem modLaunch_bridge (i : Nat) (f : Launch → Launch) : (s.modLaunch i f).bridge = s.bridge := rfl
@[simp] theorem modLaunch_ctr (i : Nat) (f : Launch → Launch) : (s.modLaunch i f).ctr = s.ctr := rfl
@[simp] theorem modLaunch_readOut (i : Nat) (f : Launch → Launch) : (s.modLaunch i f).readOut = s.readOut := rfl
@[simp] theorem modLaunch_hostOut (i : Nat) (f : Launch → Launch) : (s.modLaunch i f).hostOut = s.hostOut := rfl
@[simp] theorem modLaunch_nextId (i : Nat) (f : Launch → Launch) : (s.modLaunch i f).nextId = s.nextId := rfl
@[simp] theorem modLaunch_freeIdx (i : Nat) (f : Launch → Launch) : (s.modLaunch i f).freeIdx = s.freeIdx := rfl
@[simp] theorem modLaunch_pending (i : Nat) (f : Launch → Launch) : (s.modLaunch i f).pending = s.pending := rfl
@[simp] theorem modLaunch_pair (i : Nat) (f : Launch → Launch) (j : Nat) : (s.modLaunch i f).pair j = s.pair j := rfl
@[simp] theorem modLaunch_part (i : Nat) (f : Launch → Launch) (j : Nat) : (s.modLaunch i f).part j = s.part j := rfl
@[simp] theorem modLaunch_port (i : Nat) (f : Launch → Launch) (j : Nat) : (s.modLaunch i f).port j = s.port j := rfl
@[simp] theorem modLaunch_now (i : Nat) (f : Launch → Launch) : (s.modLaunch i f).now  = s.now := rfl
@[simp] theorem modLaunch_myId (i : Nat) (f : Launch → Launch) : (s.modLaunch i f).myId  = s.myId := rfl
@[simp] theorem modLaunch_isReady (i : Nat) (f : Launch → Launch) : (s.modLaunch i f).isReady  = s.isReady := rfl
@[simp] theorem modLaunch_released (i : Nat) (f : Launch → Launch) : (s.modLaunch i f).released  = s.released := rfl
@[simp] theorem modLaunch_life (i : Nat) (f : Launch → Launch) : (s.modLaunch i f).life  = s.life := rfl
@[simp] theorem modLaunch_cmd_get (i : Nat) (f : Launch → Launch) (j : Nat) : (s.modLaunch i f).cmd? j = s.cmd? j := rfl
@[simp] theorem modLaunch_ctx_get (i : Nat) (f : Launch → Launch) (j : Nat) : (s.modLaunch i f).ctx? j = s.ctx? j := rfl
@[simp] theorem modLaunch_job_get (i : Nat) (f : Launch → Launch) (j : Nat) : (s.modLaunch i f).job? j = s.job? j := rfl
@[simp] theorem modLaunch_search_get (i : Nat) (f : Launch → Launch) (j : Nat) : (s.modLaunch i f).search? j = s.search? j := rfl
@[simp] theorem modLaunch_fill_get (i : Nat) (f : Launch → Launch) (j : Nat) : (s.modLaunch i f).fill? j = s.fill? j := rfl
@[simp] theorem modLaunch_unit_get (i : Nat) (f : Launch → Launch) (v : EngineUnit) : (s.modLaunch i f).unit? v = s.unit? v := rfl

/-! ### modJob -/

@[simp] theorem modJob_power (i : Nat) (f : Job → Job) : (s.modJob i f).power = s.power := rfl
@[simp] theorem modJob_boot (i : Nat) (f : Job → Job) : (s.modJob i f).boot = s.boot := rfl
@[simp] theorem modJob_fuses (i : Nat) (f : Job → Job) : (s.modJob i f).fuses = s.fuses := rfl
@[simp] theorem modJob_flash (i : Nat) (f : Job → Job) : (s.modJob i f).flash = s.flash := rfl
@[simp] theorem modJob_sec (i : Nat) (f : Job → Job) : (s.modJob i f).sec = s.sec := rfl
@[simp] theorem modJob_ident (i : Nat) (f : Job → Job) : (s.modJob i f).ident = s.ident := rfl
@[simp] theorem modJob_sb (i : Nat) (f : Job → Job) : (s.modJob i f).sb = s.sb := rfl
@[simp] theorem modJob_lc (i : Nat) (f : Job → Job) : (s.modJob i f).lc = s.lc := rfl
@[simp] theorem modJob_lcLatch (i : Nat) (f : Job → Job) : (s.modJob i f).lcLatch = s.lcLatch := rfl
@[simp] theorem modJob_landing (i : Nat) (f : Job → Job) : (s.modJob i f).landing = s.landing := rfl
@[simp] theorem modJob_zeroing (i : Nat) (f : Job → Job) : (s.modJob i f).zeroing = s.zeroing := rfl
@[simp] theorem modJob_segRetired (i : Nat) (f : Job → Job) : (s.modJob i f).segRetired = s.segRetired := rfl
@[simp] theorem modJob_segErrs (i : Nat) (f : Job → Job) : (s.modJob i f).segErrs = s.segErrs := rfl
@[simp] theorem modJob_sparesUsed (i : Nat) (f : Job → Job) : (s.modJob i f).sparesUsed = s.sparesUsed := rfl
@[simp] theorem modJob_t1 (i : Nat) (f : Job → Job) : (s.modJob i f).t1 = s.t1 := rfl
@[simp] theorem modJob_pairs (i : Nat) (f : Job → Job) : (s.modJob i f).pairs = s.pairs := rfl
@[simp] theorem modJob_parts (i : Nat) (f : Job → Job) : (s.modJob i f).parts = s.parts := rfl
@[simp] theorem modJob_cmds (i : Nat) (f : Job → Job) : (s.modJob i f).cmds = s.cmds := rfl
@[simp] theorem modJob_ctxs (i : Nat) (f : Job → Job) : (s.modJob i f).ctxs = s.ctxs := rfl
@[simp] theorem modJob_stands (i : Nat) (f : Job → Job) : (s.modJob i f).stands = s.stands := rfl
@[simp] theorem modJob_units (i : Nat) (f : Job → Job) : (s.modJob i f).units = s.units := rfl
@[simp] theorem modJob_launches (i : Nat) (f : Job → Job) : (s.modJob i f).launches = s.launches := rfl
@[simp] theorem modJob_fills (i : Nat) (f : Job → Job) : (s.modJob i f).fills = s.fills := rfl
@[simp] theorem modJob_searches (i : Nat) (f : Job → Job) : (s.modJob i f).searches = s.searches := rfl
@[simp] theorem modJob_calls (i : Nat) (f : Job → Job) : (s.modJob i f).calls = s.calls := rfl
@[simp] theorem modJob_fetched (i : Nat) (f : Job → Job) : (s.modJob i f).fetched = s.fetched := rfl
@[simp] theorem modJob_cut (i : Nat) (f : Job → Job) : (s.modJob i f).cut = s.cut := rfl
@[simp] theorem modJob_ports (i : Nat) (f : Job → Job) : (s.modJob i f).ports = s.ports := rfl
@[simp] theorem modJob_vectors (i : Nat) (f : Job → Job) : (s.modJob i f).vectors = s.vectors := rfl
@[simp] theorem modJob_flowTx (i : Nat) (f : Job → Job) : (s.modJob i f).flowTx = s.flowTx := rfl
@[simp] theorem modJob_flowRx (i : Nat) (f : Job → Job) : (s.modJob i f).flowRx = s.flowRx := rfl
@[simp] theorem modJob_early (i : Nat) (f : Job → Job) : (s.modJob i f).early = s.early := rfl
@[simp] theorem modJob_lost (i : Nat) (f : Job → Job) : (s.modJob i f).lost = s.lost := rfl
@[simp] theorem modJob_unreach (i : Nat) (f : Job → Job) : (s.modJob i f).unreach = s.unreach := rfl
@[simp] theorem modJob_bridge (i : Nat) (f : Job → Job) : (s.modJob i f).bridge = s.bridge := rfl
@[simp] theorem modJob_ctr (i : Nat) (f : Job → Job) : (s.modJob i f).ctr = s.ctr := rfl
@[simp] theorem modJob_readOut (i : Nat) (f : Job → Job) : (s.modJob i f).readOut = s.readOut := rfl
@[simp] theorem modJob_hostOut (i : Nat) (f : Job → Job) : (s.modJob i f).hostOut = s.hostOut := rfl
@[simp] theorem modJob_nextId (i : Nat) (f : Job → Job) : (s.modJob i f).nextId = s.nextId := rfl
@[simp] theorem modJob_freeIdx (i : Nat) (f : Job → Job) : (s.modJob i f).freeIdx = s.freeIdx := rfl
@[simp] theorem modJob_pending (i : Nat) (f : Job → Job) : (s.modJob i f).pending = s.pending := rfl
@[simp] theorem modJob_pair (i : Nat) (f : Job → Job) (j : Nat) : (s.modJob i f).pair j = s.pair j := rfl
@[simp] theorem modJob_part (i : Nat) (f : Job → Job) (j : Nat) : (s.modJob i f).part j = s.part j := rfl
@[simp] theorem modJob_port (i : Nat) (f : Job → Job) (j : Nat) : (s.modJob i f).port j = s.port j := rfl
@[simp] theorem modJob_now (i : Nat) (f : Job → Job) : (s.modJob i f).now  = s.now := rfl
@[simp] theorem modJob_myId (i : Nat) (f : Job → Job) : (s.modJob i f).myId  = s.myId := rfl
@[simp] theorem modJob_isReady (i : Nat) (f : Job → Job) : (s.modJob i f).isReady  = s.isReady := rfl
@[simp] theorem modJob_released (i : Nat) (f : Job → Job) : (s.modJob i f).released  = s.released := rfl
@[simp] theorem modJob_life (i : Nat) (f : Job → Job) : (s.modJob i f).life  = s.life := rfl
@[simp] theorem modJob_cmd_get (i : Nat) (f : Job → Job) (j : Nat) : (s.modJob i f).cmd? j = s.cmd? j := rfl
@[simp] theorem modJob_ctx_get (i : Nat) (f : Job → Job) (j : Nat) : (s.modJob i f).ctx? j = s.ctx? j := rfl
@[simp] theorem modJob_launch_get (i : Nat) (f : Job → Job) (j : Nat) : (s.modJob i f).launch? j = s.launch? j := rfl
@[simp] theorem modJob_search_get (i : Nat) (f : Job → Job) (j : Nat) : (s.modJob i f).search? j = s.search? j := rfl
@[simp] theorem modJob_fill_get (i : Nat) (f : Job → Job) (j : Nat) : (s.modJob i f).fill? j = s.fill? j := rfl
@[simp] theorem modJob_unit_get (i : Nat) (f : Job → Job) (v : EngineUnit) : (s.modJob i f).unit? v = s.unit? v := rfl

/-! ### dropJob -/

theorem dropJob_eq (i : Nat) : ∃ j u l c p,
    s.dropJob i = { s with jobs := j, units := u, launches := l, cut := c, parts := p } := by
  unfold State.dropJob dropJobs unride dropTurns dropLaunches freeWork
  exact ⟨_, _, _, _, _, rfl⟩

@[simp] theorem dropJob_power (i : Nat) : (s.dropJob i).power = s.power := by obtain ⟨j, u, l, c, p, h⟩ := dropJob_eq s i; rw [h]
@[simp] theorem dropJob_boot (i : Nat) : (s.dropJob i).boot = s.boot := by obtain ⟨j, u, l, c, p, h⟩ := dropJob_eq s i; rw [h]
@[simp] theorem dropJob_fuses (i : Nat) : (s.dropJob i).fuses = s.fuses := by obtain ⟨j, u, l, c, p, h⟩ := dropJob_eq s i; rw [h]
@[simp] theorem dropJob_flash (i : Nat) : (s.dropJob i).flash = s.flash := by obtain ⟨j, u, l, c, p, h⟩ := dropJob_eq s i; rw [h]
@[simp] theorem dropJob_sec (i : Nat) : (s.dropJob i).sec = s.sec := by obtain ⟨j, u, l, c, p, h⟩ := dropJob_eq s i; rw [h]
@[simp] theorem dropJob_ident (i : Nat) : (s.dropJob i).ident = s.ident := by obtain ⟨j, u, l, c, p, h⟩ := dropJob_eq s i; rw [h]
@[simp] theorem dropJob_sb (i : Nat) : (s.dropJob i).sb = s.sb := by obtain ⟨j, u, l, c, p, h⟩ := dropJob_eq s i; rw [h]
@[simp] theorem dropJob_lc (i : Nat) : (s.dropJob i).lc = s.lc := by obtain ⟨j, u, l, c, p, h⟩ := dropJob_eq s i; rw [h]
@[simp] theorem dropJob_lcLatch (i : Nat) : (s.dropJob i).lcLatch = s.lcLatch := by obtain ⟨j, u, l, c, p, h⟩ := dropJob_eq s i; rw [h]
@[simp] theorem dropJob_landing (i : Nat) : (s.dropJob i).landing = s.landing := by obtain ⟨j, u, l, c, p, h⟩ := dropJob_eq s i; rw [h]
@[simp] theorem dropJob_zeroing (i : Nat) : (s.dropJob i).zeroing = s.zeroing := by obtain ⟨j, u, l, c, p, h⟩ := dropJob_eq s i; rw [h]
@[simp] theorem dropJob_segRetired (i : Nat) : (s.dropJob i).segRetired = s.segRetired := by obtain ⟨j, u, l, c, p, h⟩ := dropJob_eq s i; rw [h]
@[simp] theorem dropJob_segErrs (i : Nat) : (s.dropJob i).segErrs = s.segErrs := by obtain ⟨j, u, l, c, p, h⟩ := dropJob_eq s i; rw [h]
@[simp] theorem dropJob_sparesUsed (i : Nat) : (s.dropJob i).sparesUsed = s.sparesUsed := by obtain ⟨j, u, l, c, p, h⟩ := dropJob_eq s i; rw [h]
@[simp] theorem dropJob_t1 (i : Nat) : (s.dropJob i).t1 = s.t1 := by obtain ⟨j, u, l, c, p, h⟩ := dropJob_eq s i; rw [h]
@[simp] theorem dropJob_pairs (i : Nat) : (s.dropJob i).pairs = s.pairs := by obtain ⟨j, u, l, c, p, h⟩ := dropJob_eq s i; rw [h]
@[simp] theorem dropJob_cmds (i : Nat) : (s.dropJob i).cmds = s.cmds := by obtain ⟨j, u, l, c, p, h⟩ := dropJob_eq s i; rw [h]
@[simp] theorem dropJob_ctxs (i : Nat) : (s.dropJob i).ctxs = s.ctxs := by obtain ⟨j, u, l, c, p, h⟩ := dropJob_eq s i; rw [h]
@[simp] theorem dropJob_stands (i : Nat) : (s.dropJob i).stands = s.stands := by obtain ⟨j, u, l, c, p, h⟩ := dropJob_eq s i; rw [h]
@[simp] theorem dropJob_fills (i : Nat) : (s.dropJob i).fills = s.fills := by obtain ⟨j, u, l, c, p, h⟩ := dropJob_eq s i; rw [h]
@[simp] theorem dropJob_searches (i : Nat) : (s.dropJob i).searches = s.searches := by obtain ⟨j, u, l, c, p, h⟩ := dropJob_eq s i; rw [h]
@[simp] theorem dropJob_calls (i : Nat) : (s.dropJob i).calls = s.calls := by obtain ⟨j, u, l, c, p, h⟩ := dropJob_eq s i; rw [h]
@[simp] theorem dropJob_fetched (i : Nat) : (s.dropJob i).fetched = s.fetched := by obtain ⟨j, u, l, c, p, h⟩ := dropJob_eq s i; rw [h]
@[simp] theorem dropJob_ports (i : Nat) : (s.dropJob i).ports = s.ports := by obtain ⟨j, u, l, c, p, h⟩ := dropJob_eq s i; rw [h]
@[simp] theorem dropJob_vectors (i : Nat) : (s.dropJob i).vectors = s.vectors := by obtain ⟨j, u, l, c, p, h⟩ := dropJob_eq s i; rw [h]
@[simp] theorem dropJob_flowTx (i : Nat) : (s.dropJob i).flowTx = s.flowTx := by obtain ⟨j, u, l, c, p, h⟩ := dropJob_eq s i; rw [h]
@[simp] theorem dropJob_flowRx (i : Nat) : (s.dropJob i).flowRx = s.flowRx := by obtain ⟨j, u, l, c, p, h⟩ := dropJob_eq s i; rw [h]
@[simp] theorem dropJob_early (i : Nat) : (s.dropJob i).early = s.early := by obtain ⟨j, u, l, c, p, h⟩ := dropJob_eq s i; rw [h]
@[simp] theorem dropJob_lost (i : Nat) : (s.dropJob i).lost = s.lost := by obtain ⟨j, u, l, c, p, h⟩ := dropJob_eq s i; rw [h]
@[simp] theorem dropJob_unreach (i : Nat) : (s.dropJob i).unreach = s.unreach := by obtain ⟨j, u, l, c, p, h⟩ := dropJob_eq s i; rw [h]
@[simp] theorem dropJob_bridge (i : Nat) : (s.dropJob i).bridge = s.bridge := by obtain ⟨j, u, l, c, p, h⟩ := dropJob_eq s i; rw [h]
@[simp] theorem dropJob_ctr (i : Nat) : (s.dropJob i).ctr = s.ctr := by obtain ⟨j, u, l, c, p, h⟩ := dropJob_eq s i; rw [h]
@[simp] theorem dropJob_readOut (i : Nat) : (s.dropJob i).readOut = s.readOut := by obtain ⟨j, u, l, c, p, h⟩ := dropJob_eq s i; rw [h]
@[simp] theorem dropJob_hostOut (i : Nat) : (s.dropJob i).hostOut = s.hostOut := by obtain ⟨j, u, l, c, p, h⟩ := dropJob_eq s i; rw [h]
@[simp] theorem dropJob_nextId (i : Nat) : (s.dropJob i).nextId = s.nextId := by obtain ⟨j, u, l, c, p, h⟩ := dropJob_eq s i; rw [h]
@[simp] theorem dropJob_freeIdx (i : Nat) : (s.dropJob i).freeIdx = s.freeIdx := by obtain ⟨j, u, l, c, p, h⟩ := dropJob_eq s i; rw [h]
@[simp] theorem dropJob_pending (i : Nat) : (s.dropJob i).pending = s.pending := by obtain ⟨j, u, l, c, p, h⟩ := dropJob_eq s i; rw [h]
@[simp] theorem dropJob_pair (i : Nat) (j : Nat) : (s.dropJob i).pair j = s.pair j := by obtain ⟨j, u, l, c, p, h⟩ := dropJob_eq s i; rw [h]; rfl
@[simp] theorem dropJob_port (i : Nat) (j : Nat) : (s.dropJob i).port j = s.port j := by obtain ⟨j, u, l, c, p, h⟩ := dropJob_eq s i; rw [h]; rfl
@[simp] theorem dropJob_now (i : Nat) : (s.dropJob i).now  = s.now := by obtain ⟨j, u, l, c, p, h⟩ := dropJob_eq s i; rw [h]; rfl
@[simp] theorem dropJob_myId (i : Nat) : (s.dropJob i).myId  = s.myId := by obtain ⟨j, u, l, c, p, h⟩ := dropJob_eq s i; rw [h]; rfl
@[simp] theorem dropJob_isReady (i : Nat) : (s.dropJob i).isReady  = s.isReady := by obtain ⟨j, u, l, c, p, h⟩ := dropJob_eq s i; rw [h]; rfl
@[simp] theorem dropJob_released (i : Nat) : (s.dropJob i).released  = s.released := by obtain ⟨j, u, l, c, p, h⟩ := dropJob_eq s i; rw [h]; rfl
@[simp] theorem dropJob_life (i : Nat) : (s.dropJob i).life  = s.life := by obtain ⟨j, u, l, c, p, h⟩ := dropJob_eq s i; rw [h]; rfl
@[simp] theorem dropJob_cmd_get (i : Nat) (j : Nat) : (s.dropJob i).cmd? j = s.cmd? j := by obtain ⟨j, u, l, c, p, h⟩ := dropJob_eq s i; rw [h]; rfl
@[simp] theorem dropJob_ctx_get (i : Nat) (j : Nat) : (s.dropJob i).ctx? j = s.ctx? j := by obtain ⟨j, u, l, c, p, h⟩ := dropJob_eq s i; rw [h]; rfl
@[simp] theorem dropJob_search_get (i : Nat) (j : Nat) : (s.dropJob i).search? j = s.search? j := by obtain ⟨j, u, l, c, p, h⟩ := dropJob_eq s i; rw [h]; rfl
@[simp] theorem dropJob_fill_get (i : Nat) (j : Nat) : (s.dropJob i).fill? j = s.fill? j := by obtain ⟨j, u, l, c, p, h⟩ := dropJob_eq s i; rw [h]; rfl

/-! ### modSearch -/

@[simp] theorem modSearch_power (i : Nat) (f : Search → Search) : (s.modSearch i f).power = s.power := rfl
@[simp] theorem modSearch_boot (i : Nat) (f : Search → Search) : (s.modSearch i f).boot = s.boot := rfl
@[simp] theorem modSearch_fuses (i : Nat) (f : Search → Search) : (s.modSearch i f).fuses = s.fuses := rfl
@[simp] theorem modSearch_flash (i : Nat) (f : Search → Search) : (s.modSearch i f).flash = s.flash := rfl
@[simp] theorem modSearch_sec (i : Nat) (f : Search → Search) : (s.modSearch i f).sec = s.sec := rfl
@[simp] theorem modSearch_ident (i : Nat) (f : Search → Search) : (s.modSearch i f).ident = s.ident := rfl
@[simp] theorem modSearch_sb (i : Nat) (f : Search → Search) : (s.modSearch i f).sb = s.sb := rfl
@[simp] theorem modSearch_lc (i : Nat) (f : Search → Search) : (s.modSearch i f).lc = s.lc := rfl
@[simp] theorem modSearch_lcLatch (i : Nat) (f : Search → Search) : (s.modSearch i f).lcLatch = s.lcLatch := rfl
@[simp] theorem modSearch_landing (i : Nat) (f : Search → Search) : (s.modSearch i f).landing = s.landing := rfl
@[simp] theorem modSearch_zeroing (i : Nat) (f : Search → Search) : (s.modSearch i f).zeroing = s.zeroing := rfl
@[simp] theorem modSearch_segRetired (i : Nat) (f : Search → Search) : (s.modSearch i f).segRetired = s.segRetired := rfl
@[simp] theorem modSearch_segErrs (i : Nat) (f : Search → Search) : (s.modSearch i f).segErrs = s.segErrs := rfl
@[simp] theorem modSearch_sparesUsed (i : Nat) (f : Search → Search) : (s.modSearch i f).sparesUsed = s.sparesUsed := rfl
@[simp] theorem modSearch_t1 (i : Nat) (f : Search → Search) : (s.modSearch i f).t1 = s.t1 := rfl
@[simp] theorem modSearch_pairs (i : Nat) (f : Search → Search) : (s.modSearch i f).pairs = s.pairs := rfl
@[simp] theorem modSearch_parts (i : Nat) (f : Search → Search) : (s.modSearch i f).parts = s.parts := rfl
@[simp] theorem modSearch_cmds (i : Nat) (f : Search → Search) : (s.modSearch i f).cmds = s.cmds := rfl
@[simp] theorem modSearch_ctxs (i : Nat) (f : Search → Search) : (s.modSearch i f).ctxs = s.ctxs := rfl
@[simp] theorem modSearch_stands (i : Nat) (f : Search → Search) : (s.modSearch i f).stands = s.stands := rfl
@[simp] theorem modSearch_units (i : Nat) (f : Search → Search) : (s.modSearch i f).units = s.units := rfl
@[simp] theorem modSearch_launches (i : Nat) (f : Search → Search) : (s.modSearch i f).launches = s.launches := rfl
@[simp] theorem modSearch_fills (i : Nat) (f : Search → Search) : (s.modSearch i f).fills = s.fills := rfl
@[simp] theorem modSearch_jobs (i : Nat) (f : Search → Search) : (s.modSearch i f).jobs = s.jobs := rfl
@[simp] theorem modSearch_calls (i : Nat) (f : Search → Search) : (s.modSearch i f).calls = s.calls := rfl
@[simp] theorem modSearch_fetched (i : Nat) (f : Search → Search) : (s.modSearch i f).fetched = s.fetched := rfl
@[simp] theorem modSearch_cut (i : Nat) (f : Search → Search) : (s.modSearch i f).cut = s.cut := rfl
@[simp] theorem modSearch_ports (i : Nat) (f : Search → Search) : (s.modSearch i f).ports = s.ports := rfl
@[simp] theorem modSearch_vectors (i : Nat) (f : Search → Search) : (s.modSearch i f).vectors = s.vectors := rfl
@[simp] theorem modSearch_flowTx (i : Nat) (f : Search → Search) : (s.modSearch i f).flowTx = s.flowTx := rfl
@[simp] theorem modSearch_flowRx (i : Nat) (f : Search → Search) : (s.modSearch i f).flowRx = s.flowRx := rfl
@[simp] theorem modSearch_early (i : Nat) (f : Search → Search) : (s.modSearch i f).early = s.early := rfl
@[simp] theorem modSearch_lost (i : Nat) (f : Search → Search) : (s.modSearch i f).lost = s.lost := rfl
@[simp] theorem modSearch_unreach (i : Nat) (f : Search → Search) : (s.modSearch i f).unreach = s.unreach := rfl
@[simp] theorem modSearch_bridge (i : Nat) (f : Search → Search) : (s.modSearch i f).bridge = s.bridge := rfl
@[simp] theorem modSearch_ctr (i : Nat) (f : Search → Search) : (s.modSearch i f).ctr = s.ctr := rfl
@[simp] theorem modSearch_readOut (i : Nat) (f : Search → Search) : (s.modSearch i f).readOut = s.readOut := rfl
@[simp] theorem modSearch_hostOut (i : Nat) (f : Search → Search) : (s.modSearch i f).hostOut = s.hostOut := rfl
@[simp] theorem modSearch_nextId (i : Nat) (f : Search → Search) : (s.modSearch i f).nextId = s.nextId := rfl
@[simp] theorem modSearch_freeIdx (i : Nat) (f : Search → Search) : (s.modSearch i f).freeIdx = s.freeIdx := rfl
@[simp] theorem modSearch_pending (i : Nat) (f : Search → Search) : (s.modSearch i f).pending = s.pending := rfl
@[simp] theorem modSearch_pair (i : Nat) (f : Search → Search) (j : Nat) : (s.modSearch i f).pair j = s.pair j := rfl
@[simp] theorem modSearch_part (i : Nat) (f : Search → Search) (j : Nat) : (s.modSearch i f).part j = s.part j := rfl
@[simp] theorem modSearch_port (i : Nat) (f : Search → Search) (j : Nat) : (s.modSearch i f).port j = s.port j := rfl
@[simp] theorem modSearch_now (i : Nat) (f : Search → Search) : (s.modSearch i f).now  = s.now := rfl
@[simp] theorem modSearch_myId (i : Nat) (f : Search → Search) : (s.modSearch i f).myId  = s.myId := rfl
@[simp] theorem modSearch_isReady (i : Nat) (f : Search → Search) : (s.modSearch i f).isReady  = s.isReady := rfl
@[simp] theorem modSearch_released (i : Nat) (f : Search → Search) : (s.modSearch i f).released  = s.released := rfl
@[simp] theorem modSearch_life (i : Nat) (f : Search → Search) : (s.modSearch i f).life  = s.life := rfl
@[simp] theorem modSearch_cmd_get (i : Nat) (f : Search → Search) (j : Nat) : (s.modSearch i f).cmd? j = s.cmd? j := rfl
@[simp] theorem modSearch_ctx_get (i : Nat) (f : Search → Search) (j : Nat) : (s.modSearch i f).ctx? j = s.ctx? j := rfl
@[simp] theorem modSearch_launch_get (i : Nat) (f : Search → Search) (j : Nat) : (s.modSearch i f).launch? j = s.launch? j := rfl
@[simp] theorem modSearch_job_get (i : Nat) (f : Search → Search) (j : Nat) : (s.modSearch i f).job? j = s.job? j := rfl
@[simp] theorem modSearch_fill_get (i : Nat) (f : Search → Search) (j : Nat) : (s.modSearch i f).fill? j = s.fill? j := rfl
@[simp] theorem modSearch_unit_get (i : Nat) (f : Search → Search) (v : EngineUnit) : (s.modSearch i f).unit? v = s.unit? v := rfl

/-! ### dropSearch -/

@[simp] theorem dropSearch_power (i : Nat) : (s.dropSearch i).power = s.power := rfl
@[simp] theorem dropSearch_boot (i : Nat) : (s.dropSearch i).boot = s.boot := rfl
@[simp] theorem dropSearch_fuses (i : Nat) : (s.dropSearch i).fuses = s.fuses := rfl
@[simp] theorem dropSearch_flash (i : Nat) : (s.dropSearch i).flash = s.flash := rfl
@[simp] theorem dropSearch_sec (i : Nat) : (s.dropSearch i).sec = s.sec := rfl
@[simp] theorem dropSearch_ident (i : Nat) : (s.dropSearch i).ident = s.ident := rfl
@[simp] theorem dropSearch_sb (i : Nat) : (s.dropSearch i).sb = s.sb := rfl
@[simp] theorem dropSearch_lc (i : Nat) : (s.dropSearch i).lc = s.lc := rfl
@[simp] theorem dropSearch_lcLatch (i : Nat) : (s.dropSearch i).lcLatch = s.lcLatch := rfl
@[simp] theorem dropSearch_landing (i : Nat) : (s.dropSearch i).landing = s.landing := rfl
@[simp] theorem dropSearch_zeroing (i : Nat) : (s.dropSearch i).zeroing = s.zeroing := rfl
@[simp] theorem dropSearch_segRetired (i : Nat) : (s.dropSearch i).segRetired = s.segRetired := rfl
@[simp] theorem dropSearch_segErrs (i : Nat) : (s.dropSearch i).segErrs = s.segErrs := rfl
@[simp] theorem dropSearch_sparesUsed (i : Nat) : (s.dropSearch i).sparesUsed = s.sparesUsed := rfl
@[simp] theorem dropSearch_t1 (i : Nat) : (s.dropSearch i).t1 = s.t1 := rfl
@[simp] theorem dropSearch_pairs (i : Nat) : (s.dropSearch i).pairs = s.pairs := rfl
@[simp] theorem dropSearch_parts (i : Nat) : (s.dropSearch i).parts = s.parts := rfl
@[simp] theorem dropSearch_cmds (i : Nat) : (s.dropSearch i).cmds = s.cmds := rfl
@[simp] theorem dropSearch_ctxs (i : Nat) : (s.dropSearch i).ctxs = s.ctxs := rfl
@[simp] theorem dropSearch_stands (i : Nat) : (s.dropSearch i).stands = s.stands := rfl
@[simp] theorem dropSearch_units (i : Nat) : (s.dropSearch i).units = s.units := rfl
@[simp] theorem dropSearch_launches (i : Nat) : (s.dropSearch i).launches = s.launches := rfl
@[simp] theorem dropSearch_fills (i : Nat) : (s.dropSearch i).fills = s.fills := rfl
@[simp] theorem dropSearch_jobs (i : Nat) : (s.dropSearch i).jobs = s.jobs := rfl
@[simp] theorem dropSearch_calls (i : Nat) : (s.dropSearch i).calls = s.calls := rfl
@[simp] theorem dropSearch_fetched (i : Nat) : (s.dropSearch i).fetched = s.fetched := rfl
@[simp] theorem dropSearch_cut (i : Nat) : (s.dropSearch i).cut = s.cut := rfl
@[simp] theorem dropSearch_ports (i : Nat) : (s.dropSearch i).ports = s.ports := rfl
@[simp] theorem dropSearch_vectors (i : Nat) : (s.dropSearch i).vectors = s.vectors := rfl
@[simp] theorem dropSearch_flowTx (i : Nat) : (s.dropSearch i).flowTx = s.flowTx := rfl
@[simp] theorem dropSearch_flowRx (i : Nat) : (s.dropSearch i).flowRx = s.flowRx := rfl
@[simp] theorem dropSearch_early (i : Nat) : (s.dropSearch i).early = s.early := rfl
@[simp] theorem dropSearch_lost (i : Nat) : (s.dropSearch i).lost = s.lost := rfl
@[simp] theorem dropSearch_unreach (i : Nat) : (s.dropSearch i).unreach = s.unreach := rfl
@[simp] theorem dropSearch_bridge (i : Nat) : (s.dropSearch i).bridge = s.bridge := rfl
@[simp] theorem dropSearch_ctr (i : Nat) : (s.dropSearch i).ctr = s.ctr := rfl
@[simp] theorem dropSearch_readOut (i : Nat) : (s.dropSearch i).readOut = s.readOut := rfl
@[simp] theorem dropSearch_hostOut (i : Nat) : (s.dropSearch i).hostOut = s.hostOut := rfl
@[simp] theorem dropSearch_nextId (i : Nat) : (s.dropSearch i).nextId = s.nextId := rfl
@[simp] theorem dropSearch_freeIdx (i : Nat) : (s.dropSearch i).freeIdx = s.freeIdx := rfl
@[simp] theorem dropSearch_pending (i : Nat) : (s.dropSearch i).pending = s.pending := rfl
@[simp] theorem dropSearch_pair (i : Nat) (j : Nat) : (s.dropSearch i).pair j = s.pair j := rfl
@[simp] theorem dropSearch_part (i : Nat) (j : Nat) : (s.dropSearch i).part j = s.part j := rfl
@[simp] theorem dropSearch_port (i : Nat) (j : Nat) : (s.dropSearch i).port j = s.port j := rfl
@[simp] theorem dropSearch_now (i : Nat) : (s.dropSearch i).now  = s.now := rfl
@[simp] theorem dropSearch_myId (i : Nat) : (s.dropSearch i).myId  = s.myId := rfl
@[simp] theorem dropSearch_isReady (i : Nat) : (s.dropSearch i).isReady  = s.isReady := rfl
@[simp] theorem dropSearch_released (i : Nat) : (s.dropSearch i).released  = s.released := rfl
@[simp] theorem dropSearch_life (i : Nat) : (s.dropSearch i).life  = s.life := rfl
@[simp] theorem dropSearch_cmd_get (i : Nat) (j : Nat) : (s.dropSearch i).cmd? j = s.cmd? j := rfl
@[simp] theorem dropSearch_ctx_get (i : Nat) (j : Nat) : (s.dropSearch i).ctx? j = s.ctx? j := rfl
@[simp] theorem dropSearch_launch_get (i : Nat) (j : Nat) : (s.dropSearch i).launch? j = s.launch? j := rfl
@[simp] theorem dropSearch_job_get (i : Nat) (j : Nat) : (s.dropSearch i).job? j = s.job? j := rfl
@[simp] theorem dropSearch_fill_get (i : Nat) (j : Nat) : (s.dropSearch i).fill? j = s.fill? j := rfl
@[simp] theorem dropSearch_unit_get (i : Nat) (v : EngineUnit) : (s.dropSearch i).unit? v = s.unit? v := rfl

/-! ### dropCall -/

@[simp] theorem dropCall_power (t : Nat) : (s.dropCall t).power = s.power := rfl
@[simp] theorem dropCall_boot (t : Nat) : (s.dropCall t).boot = s.boot := rfl
@[simp] theorem dropCall_fuses (t : Nat) : (s.dropCall t).fuses = s.fuses := rfl
@[simp] theorem dropCall_flash (t : Nat) : (s.dropCall t).flash = s.flash := rfl
@[simp] theorem dropCall_sec (t : Nat) : (s.dropCall t).sec = s.sec := rfl
@[simp] theorem dropCall_ident (t : Nat) : (s.dropCall t).ident = s.ident := rfl
@[simp] theorem dropCall_sb (t : Nat) : (s.dropCall t).sb = s.sb := rfl
@[simp] theorem dropCall_lc (t : Nat) : (s.dropCall t).lc = s.lc := rfl
@[simp] theorem dropCall_lcLatch (t : Nat) : (s.dropCall t).lcLatch = s.lcLatch := rfl
@[simp] theorem dropCall_landing (t : Nat) : (s.dropCall t).landing = s.landing := rfl
@[simp] theorem dropCall_zeroing (t : Nat) : (s.dropCall t).zeroing = s.zeroing := rfl
@[simp] theorem dropCall_segRetired (t : Nat) : (s.dropCall t).segRetired = s.segRetired := rfl
@[simp] theorem dropCall_segErrs (t : Nat) : (s.dropCall t).segErrs = s.segErrs := rfl
@[simp] theorem dropCall_sparesUsed (t : Nat) : (s.dropCall t).sparesUsed = s.sparesUsed := rfl
@[simp] theorem dropCall_t1 (t : Nat) : (s.dropCall t).t1 = s.t1 := rfl
@[simp] theorem dropCall_pairs (t : Nat) : (s.dropCall t).pairs = s.pairs := rfl
@[simp] theorem dropCall_parts (t : Nat) : (s.dropCall t).parts = s.parts := rfl
@[simp] theorem dropCall_cmds (t : Nat) : (s.dropCall t).cmds = s.cmds := rfl
@[simp] theorem dropCall_ctxs (t : Nat) : (s.dropCall t).ctxs = s.ctxs := rfl
@[simp] theorem dropCall_stands (t : Nat) : (s.dropCall t).stands = s.stands := rfl
@[simp] theorem dropCall_units (t : Nat) : (s.dropCall t).units = s.units := rfl
@[simp] theorem dropCall_launches (t : Nat) : (s.dropCall t).launches = s.launches := rfl
@[simp] theorem dropCall_fills (t : Nat) : (s.dropCall t).fills = s.fills := rfl
@[simp] theorem dropCall_jobs (t : Nat) : (s.dropCall t).jobs = s.jobs := rfl
@[simp] theorem dropCall_searches (t : Nat) : (s.dropCall t).searches = s.searches := rfl
@[simp] theorem dropCall_fetched (t : Nat) : (s.dropCall t).fetched = s.fetched := rfl
@[simp] theorem dropCall_cut (t : Nat) : (s.dropCall t).cut = s.cut := rfl
@[simp] theorem dropCall_ports (t : Nat) : (s.dropCall t).ports = s.ports := rfl
@[simp] theorem dropCall_vectors (t : Nat) : (s.dropCall t).vectors = s.vectors := rfl
@[simp] theorem dropCall_flowTx (t : Nat) : (s.dropCall t).flowTx = s.flowTx := rfl
@[simp] theorem dropCall_flowRx (t : Nat) : (s.dropCall t).flowRx = s.flowRx := rfl
@[simp] theorem dropCall_early (t : Nat) : (s.dropCall t).early = s.early := rfl
@[simp] theorem dropCall_lost (t : Nat) : (s.dropCall t).lost = s.lost := rfl
@[simp] theorem dropCall_unreach (t : Nat) : (s.dropCall t).unreach = s.unreach := rfl
@[simp] theorem dropCall_bridge (t : Nat) : (s.dropCall t).bridge = s.bridge := rfl
@[simp] theorem dropCall_ctr (t : Nat) : (s.dropCall t).ctr = s.ctr := rfl
@[simp] theorem dropCall_readOut (t : Nat) : (s.dropCall t).readOut = s.readOut := rfl
@[simp] theorem dropCall_hostOut (t : Nat) : (s.dropCall t).hostOut = s.hostOut := rfl
@[simp] theorem dropCall_nextId (t : Nat) : (s.dropCall t).nextId = s.nextId := rfl
@[simp] theorem dropCall_freeIdx (t : Nat) : (s.dropCall t).freeIdx = s.freeIdx := rfl
@[simp] theorem dropCall_pending (t : Nat) : (s.dropCall t).pending = s.pending := rfl
@[simp] theorem dropCall_pair (t : Nat) (j : Nat) : (s.dropCall t).pair j = s.pair j := rfl
@[simp] theorem dropCall_part (t : Nat) (j : Nat) : (s.dropCall t).part j = s.part j := rfl
@[simp] theorem dropCall_port (t : Nat) (j : Nat) : (s.dropCall t).port j = s.port j := rfl
@[simp] theorem dropCall_now (t : Nat) : (s.dropCall t).now  = s.now := rfl
@[simp] theorem dropCall_myId (t : Nat) : (s.dropCall t).myId  = s.myId := rfl
@[simp] theorem dropCall_isReady (t : Nat) : (s.dropCall t).isReady  = s.isReady := rfl
@[simp] theorem dropCall_released (t : Nat) : (s.dropCall t).released  = s.released := rfl
@[simp] theorem dropCall_life (t : Nat) : (s.dropCall t).life  = s.life := rfl
@[simp] theorem dropCall_cmd_get (t : Nat) (j : Nat) : (s.dropCall t).cmd? j = s.cmd? j := rfl
@[simp] theorem dropCall_ctx_get (t : Nat) (j : Nat) : (s.dropCall t).ctx? j = s.ctx? j := rfl
@[simp] theorem dropCall_launch_get (t : Nat) (j : Nat) : (s.dropCall t).launch? j = s.launch? j := rfl
@[simp] theorem dropCall_job_get (t : Nat) (j : Nat) : (s.dropCall t).job? j = s.job? j := rfl
@[simp] theorem dropCall_search_get (t : Nat) (j : Nat) : (s.dropCall t).search? j = s.search? j := rfl
@[simp] theorem dropCall_fill_get (t : Nat) (j : Nat) : (s.dropCall t).fill? j = s.fill? j := rfl
@[simp] theorem dropCall_unit_get (t : Nat) (v : EngineUnit) : (s.dropCall t).unit? v = s.unit? v := rfl

/-! ### dropFill -/

@[simp] theorem dropFill_power (i : Nat) : (s.dropFill i).power = s.power := rfl
@[simp] theorem dropFill_boot (i : Nat) : (s.dropFill i).boot = s.boot := rfl
@[simp] theorem dropFill_fuses (i : Nat) : (s.dropFill i).fuses = s.fuses := rfl
@[simp] theorem dropFill_flash (i : Nat) : (s.dropFill i).flash = s.flash := rfl
@[simp] theorem dropFill_sec (i : Nat) : (s.dropFill i).sec = s.sec := rfl
@[simp] theorem dropFill_ident (i : Nat) : (s.dropFill i).ident = s.ident := rfl
@[simp] theorem dropFill_sb (i : Nat) : (s.dropFill i).sb = s.sb := rfl
@[simp] theorem dropFill_lc (i : Nat) : (s.dropFill i).lc = s.lc := rfl
@[simp] theorem dropFill_lcLatch (i : Nat) : (s.dropFill i).lcLatch = s.lcLatch := rfl
@[simp] theorem dropFill_landing (i : Nat) : (s.dropFill i).landing = s.landing := rfl
@[simp] theorem dropFill_zeroing (i : Nat) : (s.dropFill i).zeroing = s.zeroing := rfl
@[simp] theorem dropFill_segRetired (i : Nat) : (s.dropFill i).segRetired = s.segRetired := rfl
@[simp] theorem dropFill_segErrs (i : Nat) : (s.dropFill i).segErrs = s.segErrs := rfl
@[simp] theorem dropFill_sparesUsed (i : Nat) : (s.dropFill i).sparesUsed = s.sparesUsed := rfl
@[simp] theorem dropFill_t1 (i : Nat) : (s.dropFill i).t1 = s.t1 := rfl
@[simp] theorem dropFill_pairs (i : Nat) : (s.dropFill i).pairs = s.pairs := rfl
@[simp] theorem dropFill_parts (i : Nat) : (s.dropFill i).parts = s.parts := rfl
@[simp] theorem dropFill_cmds (i : Nat) : (s.dropFill i).cmds = s.cmds := rfl
@[simp] theorem dropFill_ctxs (i : Nat) : (s.dropFill i).ctxs = s.ctxs := rfl
@[simp] theorem dropFill_stands (i : Nat) : (s.dropFill i).stands = s.stands := rfl
@[simp] theorem dropFill_units (i : Nat) : (s.dropFill i).units = s.units := rfl
@[simp] theorem dropFill_launches (i : Nat) : (s.dropFill i).launches = s.launches := rfl
@[simp] theorem dropFill_jobs (i : Nat) : (s.dropFill i).jobs = s.jobs := rfl
@[simp] theorem dropFill_searches (i : Nat) : (s.dropFill i).searches = s.searches := rfl
@[simp] theorem dropFill_calls (i : Nat) : (s.dropFill i).calls = s.calls := rfl
@[simp] theorem dropFill_fetched (i : Nat) : (s.dropFill i).fetched = s.fetched := rfl
@[simp] theorem dropFill_cut (i : Nat) : (s.dropFill i).cut = s.cut := rfl
@[simp] theorem dropFill_ports (i : Nat) : (s.dropFill i).ports = s.ports := rfl
@[simp] theorem dropFill_vectors (i : Nat) : (s.dropFill i).vectors = s.vectors := rfl
@[simp] theorem dropFill_flowTx (i : Nat) : (s.dropFill i).flowTx = s.flowTx := rfl
@[simp] theorem dropFill_flowRx (i : Nat) : (s.dropFill i).flowRx = s.flowRx := rfl
@[simp] theorem dropFill_early (i : Nat) : (s.dropFill i).early = s.early := rfl
@[simp] theorem dropFill_lost (i : Nat) : (s.dropFill i).lost = s.lost := rfl
@[simp] theorem dropFill_unreach (i : Nat) : (s.dropFill i).unreach = s.unreach := rfl
@[simp] theorem dropFill_bridge (i : Nat) : (s.dropFill i).bridge = s.bridge := rfl
@[simp] theorem dropFill_ctr (i : Nat) : (s.dropFill i).ctr = s.ctr := rfl
@[simp] theorem dropFill_readOut (i : Nat) : (s.dropFill i).readOut = s.readOut := rfl
@[simp] theorem dropFill_hostOut (i : Nat) : (s.dropFill i).hostOut = s.hostOut := rfl
@[simp] theorem dropFill_nextId (i : Nat) : (s.dropFill i).nextId = s.nextId := rfl
@[simp] theorem dropFill_freeIdx (i : Nat) : (s.dropFill i).freeIdx = s.freeIdx := rfl
@[simp] theorem dropFill_pending (i : Nat) : (s.dropFill i).pending = s.pending := rfl
@[simp] theorem dropFill_pair (i : Nat) (j : Nat) : (s.dropFill i).pair j = s.pair j := rfl
@[simp] theorem dropFill_part (i : Nat) (j : Nat) : (s.dropFill i).part j = s.part j := rfl
@[simp] theorem dropFill_port (i : Nat) (j : Nat) : (s.dropFill i).port j = s.port j := rfl
@[simp] theorem dropFill_now (i : Nat) : (s.dropFill i).now  = s.now := rfl
@[simp] theorem dropFill_myId (i : Nat) : (s.dropFill i).myId  = s.myId := rfl
@[simp] theorem dropFill_isReady (i : Nat) : (s.dropFill i).isReady  = s.isReady := rfl
@[simp] theorem dropFill_released (i : Nat) : (s.dropFill i).released  = s.released := rfl
@[simp] theorem dropFill_life (i : Nat) : (s.dropFill i).life  = s.life := rfl
@[simp] theorem dropFill_cmd_get (i : Nat) (j : Nat) : (s.dropFill i).cmd? j = s.cmd? j := rfl
@[simp] theorem dropFill_ctx_get (i : Nat) (j : Nat) : (s.dropFill i).ctx? j = s.ctx? j := rfl
@[simp] theorem dropFill_launch_get (i : Nat) (j : Nat) : (s.dropFill i).launch? j = s.launch? j := rfl
@[simp] theorem dropFill_job_get (i : Nat) (j : Nat) : (s.dropFill i).job? j = s.job? j := rfl
@[simp] theorem dropFill_search_get (i : Nat) (j : Nat) : (s.dropFill i).search? j = s.search? j := rfl
@[simp] theorem dropFill_unit_get (i : Nat) (v : EngineUnit) : (s.dropFill i).unit? v = s.unit? v := rfl

/-! ### modStand -/

@[simp] theorem modStand_power (k : Nat) (f : Stand → Stand) : (s.modStand k f).power = s.power := rfl
@[simp] theorem modStand_boot (k : Nat) (f : Stand → Stand) : (s.modStand k f).boot = s.boot := rfl
@[simp] theorem modStand_fuses (k : Nat) (f : Stand → Stand) : (s.modStand k f).fuses = s.fuses := rfl
@[simp] theorem modStand_flash (k : Nat) (f : Stand → Stand) : (s.modStand k f).flash = s.flash := rfl
@[simp] theorem modStand_sec (k : Nat) (f : Stand → Stand) : (s.modStand k f).sec = s.sec := rfl
@[simp] theorem modStand_ident (k : Nat) (f : Stand → Stand) : (s.modStand k f).ident = s.ident := rfl
@[simp] theorem modStand_sb (k : Nat) (f : Stand → Stand) : (s.modStand k f).sb = s.sb := rfl
@[simp] theorem modStand_lc (k : Nat) (f : Stand → Stand) : (s.modStand k f).lc = s.lc := rfl
@[simp] theorem modStand_lcLatch (k : Nat) (f : Stand → Stand) : (s.modStand k f).lcLatch = s.lcLatch := rfl
@[simp] theorem modStand_landing (k : Nat) (f : Stand → Stand) : (s.modStand k f).landing = s.landing := rfl
@[simp] theorem modStand_zeroing (k : Nat) (f : Stand → Stand) : (s.modStand k f).zeroing = s.zeroing := rfl
@[simp] theorem modStand_segRetired (k : Nat) (f : Stand → Stand) : (s.modStand k f).segRetired = s.segRetired := rfl
@[simp] theorem modStand_segErrs (k : Nat) (f : Stand → Stand) : (s.modStand k f).segErrs = s.segErrs := rfl
@[simp] theorem modStand_sparesUsed (k : Nat) (f : Stand → Stand) : (s.modStand k f).sparesUsed = s.sparesUsed := rfl
@[simp] theorem modStand_t1 (k : Nat) (f : Stand → Stand) : (s.modStand k f).t1 = s.t1 := rfl
@[simp] theorem modStand_pairs (k : Nat) (f : Stand → Stand) : (s.modStand k f).pairs = s.pairs := rfl
@[simp] theorem modStand_parts (k : Nat) (f : Stand → Stand) : (s.modStand k f).parts = s.parts := rfl
@[simp] theorem modStand_cmds (k : Nat) (f : Stand → Stand) : (s.modStand k f).cmds = s.cmds := rfl
@[simp] theorem modStand_ctxs (k : Nat) (f : Stand → Stand) : (s.modStand k f).ctxs = s.ctxs := rfl
@[simp] theorem modStand_units (k : Nat) (f : Stand → Stand) : (s.modStand k f).units = s.units := rfl
@[simp] theorem modStand_launches (k : Nat) (f : Stand → Stand) : (s.modStand k f).launches = s.launches := rfl
@[simp] theorem modStand_fills (k : Nat) (f : Stand → Stand) : (s.modStand k f).fills = s.fills := rfl
@[simp] theorem modStand_jobs (k : Nat) (f : Stand → Stand) : (s.modStand k f).jobs = s.jobs := rfl
@[simp] theorem modStand_searches (k : Nat) (f : Stand → Stand) : (s.modStand k f).searches = s.searches := rfl
@[simp] theorem modStand_calls (k : Nat) (f : Stand → Stand) : (s.modStand k f).calls = s.calls := rfl
@[simp] theorem modStand_fetched (k : Nat) (f : Stand → Stand) : (s.modStand k f).fetched = s.fetched := rfl
@[simp] theorem modStand_cut (k : Nat) (f : Stand → Stand) : (s.modStand k f).cut = s.cut := rfl
@[simp] theorem modStand_ports (k : Nat) (f : Stand → Stand) : (s.modStand k f).ports = s.ports := rfl
@[simp] theorem modStand_vectors (k : Nat) (f : Stand → Stand) : (s.modStand k f).vectors = s.vectors := rfl
@[simp] theorem modStand_flowTx (k : Nat) (f : Stand → Stand) : (s.modStand k f).flowTx = s.flowTx := rfl
@[simp] theorem modStand_flowRx (k : Nat) (f : Stand → Stand) : (s.modStand k f).flowRx = s.flowRx := rfl
@[simp] theorem modStand_early (k : Nat) (f : Stand → Stand) : (s.modStand k f).early = s.early := rfl
@[simp] theorem modStand_lost (k : Nat) (f : Stand → Stand) : (s.modStand k f).lost = s.lost := rfl
@[simp] theorem modStand_unreach (k : Nat) (f : Stand → Stand) : (s.modStand k f).unreach = s.unreach := rfl
@[simp] theorem modStand_bridge (k : Nat) (f : Stand → Stand) : (s.modStand k f).bridge = s.bridge := rfl
@[simp] theorem modStand_ctr (k : Nat) (f : Stand → Stand) : (s.modStand k f).ctr = s.ctr := rfl
@[simp] theorem modStand_readOut (k : Nat) (f : Stand → Stand) : (s.modStand k f).readOut = s.readOut := rfl
@[simp] theorem modStand_hostOut (k : Nat) (f : Stand → Stand) : (s.modStand k f).hostOut = s.hostOut := rfl
@[simp] theorem modStand_nextId (k : Nat) (f : Stand → Stand) : (s.modStand k f).nextId = s.nextId := rfl
@[simp] theorem modStand_freeIdx (k : Nat) (f : Stand → Stand) : (s.modStand k f).freeIdx = s.freeIdx := rfl
@[simp] theorem modStand_pending (k : Nat) (f : Stand → Stand) : (s.modStand k f).pending = s.pending := rfl
@[simp] theorem modStand_pair (k : Nat) (f : Stand → Stand) (j : Nat) : (s.modStand k f).pair j = s.pair j := rfl
@[simp] theorem modStand_part (k : Nat) (f : Stand → Stand) (j : Nat) : (s.modStand k f).part j = s.part j := rfl
@[simp] theorem modStand_port (k : Nat) (f : Stand → Stand) (j : Nat) : (s.modStand k f).port j = s.port j := rfl
@[simp] theorem modStand_now (k : Nat) (f : Stand → Stand) : (s.modStand k f).now  = s.now := rfl
@[simp] theorem modStand_myId (k : Nat) (f : Stand → Stand) : (s.modStand k f).myId  = s.myId := rfl
@[simp] theorem modStand_isReady (k : Nat) (f : Stand → Stand) : (s.modStand k f).isReady  = s.isReady := rfl
@[simp] theorem modStand_released (k : Nat) (f : Stand → Stand) : (s.modStand k f).released  = s.released := rfl
@[simp] theorem modStand_life (k : Nat) (f : Stand → Stand) : (s.modStand k f).life  = s.life := rfl
@[simp] theorem modStand_cmd_get (k : Nat) (f : Stand → Stand) (j : Nat) : (s.modStand k f).cmd? j = s.cmd? j := rfl
@[simp] theorem modStand_ctx_get (k : Nat) (f : Stand → Stand) (j : Nat) : (s.modStand k f).ctx? j = s.ctx? j := rfl
@[simp] theorem modStand_launch_get (k : Nat) (f : Stand → Stand) (j : Nat) : (s.modStand k f).launch? j = s.launch? j := rfl
@[simp] theorem modStand_job_get (k : Nat) (f : Stand → Stand) (j : Nat) : (s.modStand k f).job? j = s.job? j := rfl
@[simp] theorem modStand_search_get (k : Nat) (f : Stand → Stand) (j : Nat) : (s.modStand k f).search? j = s.search? j := rfl
@[simp] theorem modStand_fill_get (k : Nat) (f : Stand → Stand) (j : Nat) : (s.modStand k f).fill? j = s.fill? j := rfl
@[simp] theorem modStand_unit_get (k : Nat) (f : Stand → Stand) (v : EngineUnit) : (s.modStand k f).unit? v = s.unit? v := rfl

/-! ### modUnit -/

@[simp] theorem modUnit_power (u : EngineUnit) (f : EngineSt → EngineSt) : (s.modUnit u f).power = s.power := rfl
@[simp] theorem modUnit_boot (u : EngineUnit) (f : EngineSt → EngineSt) : (s.modUnit u f).boot = s.boot := rfl
@[simp] theorem modUnit_fuses (u : EngineUnit) (f : EngineSt → EngineSt) : (s.modUnit u f).fuses = s.fuses := rfl
@[simp] theorem modUnit_flash (u : EngineUnit) (f : EngineSt → EngineSt) : (s.modUnit u f).flash = s.flash := rfl
@[simp] theorem modUnit_sec (u : EngineUnit) (f : EngineSt → EngineSt) : (s.modUnit u f).sec = s.sec := rfl
@[simp] theorem modUnit_ident (u : EngineUnit) (f : EngineSt → EngineSt) : (s.modUnit u f).ident = s.ident := rfl
@[simp] theorem modUnit_sb (u : EngineUnit) (f : EngineSt → EngineSt) : (s.modUnit u f).sb = s.sb := rfl
@[simp] theorem modUnit_lc (u : EngineUnit) (f : EngineSt → EngineSt) : (s.modUnit u f).lc = s.lc := rfl
@[simp] theorem modUnit_lcLatch (u : EngineUnit) (f : EngineSt → EngineSt) : (s.modUnit u f).lcLatch = s.lcLatch := rfl
@[simp] theorem modUnit_landing (u : EngineUnit) (f : EngineSt → EngineSt) : (s.modUnit u f).landing = s.landing := rfl
@[simp] theorem modUnit_zeroing (u : EngineUnit) (f : EngineSt → EngineSt) : (s.modUnit u f).zeroing = s.zeroing := rfl
@[simp] theorem modUnit_segRetired (u : EngineUnit) (f : EngineSt → EngineSt) : (s.modUnit u f).segRetired = s.segRetired := rfl
@[simp] theorem modUnit_segErrs (u : EngineUnit) (f : EngineSt → EngineSt) : (s.modUnit u f).segErrs = s.segErrs := rfl
@[simp] theorem modUnit_sparesUsed (u : EngineUnit) (f : EngineSt → EngineSt) : (s.modUnit u f).sparesUsed = s.sparesUsed := rfl
@[simp] theorem modUnit_t1 (u : EngineUnit) (f : EngineSt → EngineSt) : (s.modUnit u f).t1 = s.t1 := rfl
@[simp] theorem modUnit_pairs (u : EngineUnit) (f : EngineSt → EngineSt) : (s.modUnit u f).pairs = s.pairs := rfl
@[simp] theorem modUnit_parts (u : EngineUnit) (f : EngineSt → EngineSt) : (s.modUnit u f).parts = s.parts := rfl
@[simp] theorem modUnit_cmds (u : EngineUnit) (f : EngineSt → EngineSt) : (s.modUnit u f).cmds = s.cmds := rfl
@[simp] theorem modUnit_ctxs (u : EngineUnit) (f : EngineSt → EngineSt) : (s.modUnit u f).ctxs = s.ctxs := rfl
@[simp] theorem modUnit_stands (u : EngineUnit) (f : EngineSt → EngineSt) : (s.modUnit u f).stands = s.stands := rfl
@[simp] theorem modUnit_launches (u : EngineUnit) (f : EngineSt → EngineSt) : (s.modUnit u f).launches = s.launches := rfl
@[simp] theorem modUnit_fills (u : EngineUnit) (f : EngineSt → EngineSt) : (s.modUnit u f).fills = s.fills := rfl
@[simp] theorem modUnit_jobs (u : EngineUnit) (f : EngineSt → EngineSt) : (s.modUnit u f).jobs = s.jobs := rfl
@[simp] theorem modUnit_searches (u : EngineUnit) (f : EngineSt → EngineSt) : (s.modUnit u f).searches = s.searches := rfl
@[simp] theorem modUnit_calls (u : EngineUnit) (f : EngineSt → EngineSt) : (s.modUnit u f).calls = s.calls := rfl
@[simp] theorem modUnit_fetched (u : EngineUnit) (f : EngineSt → EngineSt) : (s.modUnit u f).fetched = s.fetched := rfl
@[simp] theorem modUnit_cut (u : EngineUnit) (f : EngineSt → EngineSt) : (s.modUnit u f).cut = s.cut := rfl
@[simp] theorem modUnit_ports (u : EngineUnit) (f : EngineSt → EngineSt) : (s.modUnit u f).ports = s.ports := rfl
@[simp] theorem modUnit_vectors (u : EngineUnit) (f : EngineSt → EngineSt) : (s.modUnit u f).vectors = s.vectors := rfl
@[simp] theorem modUnit_flowTx (u : EngineUnit) (f : EngineSt → EngineSt) : (s.modUnit u f).flowTx = s.flowTx := rfl
@[simp] theorem modUnit_flowRx (u : EngineUnit) (f : EngineSt → EngineSt) : (s.modUnit u f).flowRx = s.flowRx := rfl
@[simp] theorem modUnit_early (u : EngineUnit) (f : EngineSt → EngineSt) : (s.modUnit u f).early = s.early := rfl
@[simp] theorem modUnit_lost (u : EngineUnit) (f : EngineSt → EngineSt) : (s.modUnit u f).lost = s.lost := rfl
@[simp] theorem modUnit_unreach (u : EngineUnit) (f : EngineSt → EngineSt) : (s.modUnit u f).unreach = s.unreach := rfl
@[simp] theorem modUnit_bridge (u : EngineUnit) (f : EngineSt → EngineSt) : (s.modUnit u f).bridge = s.bridge := rfl
@[simp] theorem modUnit_ctr (u : EngineUnit) (f : EngineSt → EngineSt) : (s.modUnit u f).ctr = s.ctr := rfl
@[simp] theorem modUnit_readOut (u : EngineUnit) (f : EngineSt → EngineSt) : (s.modUnit u f).readOut = s.readOut := rfl
@[simp] theorem modUnit_hostOut (u : EngineUnit) (f : EngineSt → EngineSt) : (s.modUnit u f).hostOut = s.hostOut := rfl
@[simp] theorem modUnit_nextId (u : EngineUnit) (f : EngineSt → EngineSt) : (s.modUnit u f).nextId = s.nextId := rfl
@[simp] theorem modUnit_freeIdx (u : EngineUnit) (f : EngineSt → EngineSt) : (s.modUnit u f).freeIdx = s.freeIdx := rfl
@[simp] theorem modUnit_pending (u : EngineUnit) (f : EngineSt → EngineSt) : (s.modUnit u f).pending = s.pending := rfl
@[simp] theorem modUnit_pair (u : EngineUnit) (f : EngineSt → EngineSt) (j : Nat) : (s.modUnit u f).pair j = s.pair j := rfl
@[simp] theorem modUnit_part (u : EngineUnit) (f : EngineSt → EngineSt) (j : Nat) : (s.modUnit u f).part j = s.part j := rfl
@[simp] theorem modUnit_port (u : EngineUnit) (f : EngineSt → EngineSt) (j : Nat) : (s.modUnit u f).port j = s.port j := rfl
@[simp] theorem modUnit_now (u : EngineUnit) (f : EngineSt → EngineSt) : (s.modUnit u f).now  = s.now := rfl
@[simp] theorem modUnit_myId (u : EngineUnit) (f : EngineSt → EngineSt) : (s.modUnit u f).myId  = s.myId := rfl
@[simp] theorem modUnit_isReady (u : EngineUnit) (f : EngineSt → EngineSt) : (s.modUnit u f).isReady  = s.isReady := rfl
@[simp] theorem modUnit_released (u : EngineUnit) (f : EngineSt → EngineSt) : (s.modUnit u f).released  = s.released := rfl
@[simp] theorem modUnit_life (u : EngineUnit) (f : EngineSt → EngineSt) : (s.modUnit u f).life  = s.life := rfl
@[simp] theorem modUnit_cmd_get (u : EngineUnit) (f : EngineSt → EngineSt) (j : Nat) : (s.modUnit u f).cmd? j = s.cmd? j := rfl
@[simp] theorem modUnit_ctx_get (u : EngineUnit) (f : EngineSt → EngineSt) (j : Nat) : (s.modUnit u f).ctx? j = s.ctx? j := rfl
@[simp] theorem modUnit_launch_get (u : EngineUnit) (f : EngineSt → EngineSt) (j : Nat) : (s.modUnit u f).launch? j = s.launch? j := rfl
@[simp] theorem modUnit_job_get (u : EngineUnit) (f : EngineSt → EngineSt) (j : Nat) : (s.modUnit u f).job? j = s.job? j := rfl
@[simp] theorem modUnit_search_get (u : EngineUnit) (f : EngineSt → EngineSt) (j : Nat) : (s.modUnit u f).search? j = s.search? j := rfl
@[simp] theorem modUnit_fill_get (u : EngineUnit) (f : EngineSt → EngineSt) (j : Nat) : (s.modUnit u f).fill? j = s.fill? j := rfl

/-! ### landStore -/

@[simp] theorem landStore_power (i a : Nat) (bs : List Byte) : (s.landStore i a bs).power = s.power := rfl
@[simp] theorem landStore_boot (i a : Nat) (bs : List Byte) : (s.landStore i a bs).boot = s.boot := rfl
@[simp] theorem landStore_fuses (i a : Nat) (bs : List Byte) : (s.landStore i a bs).fuses = s.fuses := rfl
@[simp] theorem landStore_flash (i a : Nat) (bs : List Byte) : (s.landStore i a bs).flash = s.flash := rfl
@[simp] theorem landStore_sec (i a : Nat) (bs : List Byte) : (s.landStore i a bs).sec = s.sec := rfl
@[simp] theorem landStore_ident (i a : Nat) (bs : List Byte) : (s.landStore i a bs).ident = s.ident := rfl
@[simp] theorem landStore_sb (i a : Nat) (bs : List Byte) : (s.landStore i a bs).sb = s.sb := rfl
@[simp] theorem landStore_lc (i a : Nat) (bs : List Byte) : (s.landStore i a bs).lc = s.lc := rfl
@[simp] theorem landStore_lcLatch (i a : Nat) (bs : List Byte) : (s.landStore i a bs).lcLatch = s.lcLatch := rfl
@[simp] theorem landStore_zeroing (i a : Nat) (bs : List Byte) : (s.landStore i a bs).zeroing = s.zeroing := rfl
@[simp] theorem landStore_segRetired (i a : Nat) (bs : List Byte) : (s.landStore i a bs).segRetired = s.segRetired := rfl
@[simp] theorem landStore_segErrs (i a : Nat) (bs : List Byte) : (s.landStore i a bs).segErrs = s.segErrs := rfl
@[simp] theorem landStore_sparesUsed (i a : Nat) (bs : List Byte) : (s.landStore i a bs).sparesUsed = s.sparesUsed := rfl
@[simp] theorem landStore_t1 (i a : Nat) (bs : List Byte) : (s.landStore i a bs).t1 = s.t1 := rfl
@[simp] theorem landStore_pairs (i a : Nat) (bs : List Byte) : (s.landStore i a bs).pairs = s.pairs := rfl
@[simp] theorem landStore_parts (i a : Nat) (bs : List Byte) : (s.landStore i a bs).parts = s.parts := rfl
@[simp] theorem landStore_cmds (i a : Nat) (bs : List Byte) : (s.landStore i a bs).cmds = s.cmds := rfl
@[simp] theorem landStore_ctxs (i a : Nat) (bs : List Byte) : (s.landStore i a bs).ctxs = s.ctxs := rfl
@[simp] theorem landStore_stands (i a : Nat) (bs : List Byte) : (s.landStore i a bs).stands = s.stands := rfl
@[simp] theorem landStore_units (i a : Nat) (bs : List Byte) : (s.landStore i a bs).units = s.units := rfl
@[simp] theorem landStore_launches (i a : Nat) (bs : List Byte) : (s.landStore i a bs).launches = s.launches := rfl
@[simp] theorem landStore_fills (i a : Nat) (bs : List Byte) : (s.landStore i a bs).fills = s.fills := rfl
@[simp] theorem landStore_jobs (i a : Nat) (bs : List Byte) : (s.landStore i a bs).jobs = s.jobs := rfl
@[simp] theorem landStore_searches (i a : Nat) (bs : List Byte) : (s.landStore i a bs).searches = s.searches := rfl
@[simp] theorem landStore_calls (i a : Nat) (bs : List Byte) : (s.landStore i a bs).calls = s.calls := rfl
@[simp] theorem landStore_fetched (i a : Nat) (bs : List Byte) : (s.landStore i a bs).fetched = s.fetched := rfl
@[simp] theorem landStore_cut (i a : Nat) (bs : List Byte) : (s.landStore i a bs).cut = s.cut := rfl
@[simp] theorem landStore_ports (i a : Nat) (bs : List Byte) : (s.landStore i a bs).ports = s.ports := rfl
@[simp] theorem landStore_vectors (i a : Nat) (bs : List Byte) : (s.landStore i a bs).vectors = s.vectors := rfl
@[simp] theorem landStore_flowTx (i a : Nat) (bs : List Byte) : (s.landStore i a bs).flowTx = s.flowTx := rfl
@[simp] theorem landStore_flowRx (i a : Nat) (bs : List Byte) : (s.landStore i a bs).flowRx = s.flowRx := rfl
@[simp] theorem landStore_early (i a : Nat) (bs : List Byte) : (s.landStore i a bs).early = s.early := rfl
@[simp] theorem landStore_lost (i a : Nat) (bs : List Byte) : (s.landStore i a bs).lost = s.lost := rfl
@[simp] theorem landStore_unreach (i a : Nat) (bs : List Byte) : (s.landStore i a bs).unreach = s.unreach := rfl
@[simp] theorem landStore_bridge (i a : Nat) (bs : List Byte) : (s.landStore i a bs).bridge = s.bridge := rfl
@[simp] theorem landStore_ctr (i a : Nat) (bs : List Byte) : (s.landStore i a bs).ctr = s.ctr := rfl
@[simp] theorem landStore_readOut (i a : Nat) (bs : List Byte) : (s.landStore i a bs).readOut = s.readOut := rfl
@[simp] theorem landStore_hostOut (i a : Nat) (bs : List Byte) : (s.landStore i a bs).hostOut = s.hostOut := rfl
@[simp] theorem landStore_nextId (i a : Nat) (bs : List Byte) : (s.landStore i a bs).nextId = s.nextId := rfl
@[simp] theorem landStore_freeIdx (i a : Nat) (bs : List Byte) : (s.landStore i a bs).freeIdx = s.freeIdx := rfl
@[simp] theorem landStore_pending (i a : Nat) (bs : List Byte) : (s.landStore i a bs).pending = s.pending := rfl
@[simp] theorem landStore_pair (i a : Nat) (bs : List Byte) (j : Nat) : (s.landStore i a bs).pair j = s.pair j := rfl
@[simp] theorem landStore_part (i a : Nat) (bs : List Byte) (j : Nat) : (s.landStore i a bs).part j = s.part j := rfl
@[simp] theorem landStore_port (i a : Nat) (bs : List Byte) (j : Nat) : (s.landStore i a bs).port j = s.port j := rfl
@[simp] theorem landStore_now (i a : Nat) (bs : List Byte) : (s.landStore i a bs).now  = s.now := rfl
@[simp] theorem landStore_myId (i a : Nat) (bs : List Byte) : (s.landStore i a bs).myId  = s.myId := rfl
@[simp] theorem landStore_isReady (i a : Nat) (bs : List Byte) : (s.landStore i a bs).isReady  = s.isReady := rfl
@[simp] theorem landStore_released (i a : Nat) (bs : List Byte) : (s.landStore i a bs).released  = s.released := rfl
@[simp] theorem landStore_life (i a : Nat) (bs : List Byte) : (s.landStore i a bs).life  = s.life := rfl
@[simp] theorem landStore_cmd_get (i a : Nat) (bs : List Byte) (j : Nat) : (s.landStore i a bs).cmd? j = s.cmd? j := rfl
@[simp] theorem landStore_ctx_get (i a : Nat) (bs : List Byte) (j : Nat) : (s.landStore i a bs).ctx? j = s.ctx? j := rfl
@[simp] theorem landStore_launch_get (i a : Nat) (bs : List Byte) (j : Nat) : (s.landStore i a bs).launch? j = s.launch? j := rfl
@[simp] theorem landStore_job_get (i a : Nat) (bs : List Byte) (j : Nat) : (s.landStore i a bs).job? j = s.job? j := rfl
@[simp] theorem landStore_search_get (i a : Nat) (bs : List Byte) (j : Nat) : (s.landStore i a bs).search? j = s.search? j := rfl
@[simp] theorem landStore_fill_get (i a : Nat) (bs : List Byte) (j : Nat) : (s.landStore i a bs).fill? j = s.fill? j := rfl
@[simp] theorem landStore_unit_get (i a : Nat) (bs : List Byte) (v : EngineUnit) : (s.landStore i a bs).unit? v = s.unit? v := rfl

/-! ### t1Store -/

@[simp] theorem t1Store_power (i a : Nat) (bs : List Byte) : (s.t1Store i a bs).power = s.power := rfl
@[simp] theorem t1Store_boot (i a : Nat) (bs : List Byte) : (s.t1Store i a bs).boot = s.boot := rfl
@[simp] theorem t1Store_fuses (i a : Nat) (bs : List Byte) : (s.t1Store i a bs).fuses = s.fuses := rfl
@[simp] theorem t1Store_flash (i a : Nat) (bs : List Byte) : (s.t1Store i a bs).flash = s.flash := rfl
@[simp] theorem t1Store_sec (i a : Nat) (bs : List Byte) : (s.t1Store i a bs).sec = s.sec := rfl
@[simp] theorem t1Store_ident (i a : Nat) (bs : List Byte) : (s.t1Store i a bs).ident = s.ident := rfl
@[simp] theorem t1Store_sb (i a : Nat) (bs : List Byte) : (s.t1Store i a bs).sb = s.sb := rfl
@[simp] theorem t1Store_lc (i a : Nat) (bs : List Byte) : (s.t1Store i a bs).lc = s.lc := rfl
@[simp] theorem t1Store_lcLatch (i a : Nat) (bs : List Byte) : (s.t1Store i a bs).lcLatch = s.lcLatch := rfl
@[simp] theorem t1Store_landing (i a : Nat) (bs : List Byte) : (s.t1Store i a bs).landing = s.landing := rfl
@[simp] theorem t1Store_zeroing (i a : Nat) (bs : List Byte) : (s.t1Store i a bs).zeroing = s.zeroing := rfl
@[simp] theorem t1Store_segRetired (i a : Nat) (bs : List Byte) : (s.t1Store i a bs).segRetired = s.segRetired := rfl
@[simp] theorem t1Store_segErrs (i a : Nat) (bs : List Byte) : (s.t1Store i a bs).segErrs = s.segErrs := rfl
@[simp] theorem t1Store_sparesUsed (i a : Nat) (bs : List Byte) : (s.t1Store i a bs).sparesUsed = s.sparesUsed := rfl
@[simp] theorem t1Store_pairs (i a : Nat) (bs : List Byte) : (s.t1Store i a bs).pairs = s.pairs := rfl
@[simp] theorem t1Store_parts (i a : Nat) (bs : List Byte) : (s.t1Store i a bs).parts = s.parts := rfl
@[simp] theorem t1Store_cmds (i a : Nat) (bs : List Byte) : (s.t1Store i a bs).cmds = s.cmds := rfl
@[simp] theorem t1Store_ctxs (i a : Nat) (bs : List Byte) : (s.t1Store i a bs).ctxs = s.ctxs := rfl
@[simp] theorem t1Store_stands (i a : Nat) (bs : List Byte) : (s.t1Store i a bs).stands = s.stands := rfl
@[simp] theorem t1Store_units (i a : Nat) (bs : List Byte) : (s.t1Store i a bs).units = s.units := rfl
@[simp] theorem t1Store_launches (i a : Nat) (bs : List Byte) : (s.t1Store i a bs).launches = s.launches := rfl
@[simp] theorem t1Store_fills (i a : Nat) (bs : List Byte) : (s.t1Store i a bs).fills = s.fills := rfl
@[simp] theorem t1Store_jobs (i a : Nat) (bs : List Byte) : (s.t1Store i a bs).jobs = s.jobs := rfl
@[simp] theorem t1Store_searches (i a : Nat) (bs : List Byte) : (s.t1Store i a bs).searches = s.searches := rfl
@[simp] theorem t1Store_calls (i a : Nat) (bs : List Byte) : (s.t1Store i a bs).calls = s.calls := rfl
@[simp] theorem t1Store_fetched (i a : Nat) (bs : List Byte) : (s.t1Store i a bs).fetched = s.fetched := rfl
@[simp] theorem t1Store_cut (i a : Nat) (bs : List Byte) : (s.t1Store i a bs).cut = s.cut := rfl
@[simp] theorem t1Store_ports (i a : Nat) (bs : List Byte) : (s.t1Store i a bs).ports = s.ports := rfl
@[simp] theorem t1Store_vectors (i a : Nat) (bs : List Byte) : (s.t1Store i a bs).vectors = s.vectors := rfl
@[simp] theorem t1Store_flowTx (i a : Nat) (bs : List Byte) : (s.t1Store i a bs).flowTx = s.flowTx := rfl
@[simp] theorem t1Store_flowRx (i a : Nat) (bs : List Byte) : (s.t1Store i a bs).flowRx = s.flowRx := rfl
@[simp] theorem t1Store_early (i a : Nat) (bs : List Byte) : (s.t1Store i a bs).early = s.early := rfl
@[simp] theorem t1Store_lost (i a : Nat) (bs : List Byte) : (s.t1Store i a bs).lost = s.lost := rfl
@[simp] theorem t1Store_unreach (i a : Nat) (bs : List Byte) : (s.t1Store i a bs).unreach = s.unreach := rfl
@[simp] theorem t1Store_bridge (i a : Nat) (bs : List Byte) : (s.t1Store i a bs).bridge = s.bridge := rfl
@[simp] theorem t1Store_ctr (i a : Nat) (bs : List Byte) : (s.t1Store i a bs).ctr = s.ctr := rfl
@[simp] theorem t1Store_readOut (i a : Nat) (bs : List Byte) : (s.t1Store i a bs).readOut = s.readOut := rfl
@[simp] theorem t1Store_hostOut (i a : Nat) (bs : List Byte) : (s.t1Store i a bs).hostOut = s.hostOut := rfl
@[simp] theorem t1Store_nextId (i a : Nat) (bs : List Byte) : (s.t1Store i a bs).nextId = s.nextId := rfl
@[simp] theorem t1Store_freeIdx (i a : Nat) (bs : List Byte) : (s.t1Store i a bs).freeIdx = s.freeIdx := rfl
@[simp] theorem t1Store_pending (i a : Nat) (bs : List Byte) : (s.t1Store i a bs).pending = s.pending := rfl
@[simp] theorem t1Store_pair (i a : Nat) (bs : List Byte) (j : Nat) : (s.t1Store i a bs).pair j = s.pair j := rfl
@[simp] theorem t1Store_part (i a : Nat) (bs : List Byte) (j : Nat) : (s.t1Store i a bs).part j = s.part j := rfl
@[simp] theorem t1Store_port (i a : Nat) (bs : List Byte) (j : Nat) : (s.t1Store i a bs).port j = s.port j := rfl
@[simp] theorem t1Store_now (i a : Nat) (bs : List Byte) : (s.t1Store i a bs).now  = s.now := rfl
@[simp] theorem t1Store_myId (i a : Nat) (bs : List Byte) : (s.t1Store i a bs).myId  = s.myId := rfl
@[simp] theorem t1Store_isReady (i a : Nat) (bs : List Byte) : (s.t1Store i a bs).isReady  = s.isReady := rfl
@[simp] theorem t1Store_released (i a : Nat) (bs : List Byte) : (s.t1Store i a bs).released  = s.released := rfl
@[simp] theorem t1Store_life (i a : Nat) (bs : List Byte) : (s.t1Store i a bs).life  = s.life := rfl
@[simp] theorem t1Store_cmd_get (i a : Nat) (bs : List Byte) (j : Nat) : (s.t1Store i a bs).cmd? j = s.cmd? j := rfl
@[simp] theorem t1Store_ctx_get (i a : Nat) (bs : List Byte) (j : Nat) : (s.t1Store i a bs).ctx? j = s.ctx? j := rfl
@[simp] theorem t1Store_launch_get (i a : Nat) (bs : List Byte) (j : Nat) : (s.t1Store i a bs).launch? j = s.launch? j := rfl
@[simp] theorem t1Store_job_get (i a : Nat) (bs : List Byte) (j : Nat) : (s.t1Store i a bs).job? j = s.job? j := rfl
@[simp] theorem t1Store_search_get (i a : Nat) (bs : List Byte) (j : Nat) : (s.t1Store i a bs).search? j = s.search? j := rfl
@[simp] theorem t1Store_fill_get (i a : Nat) (bs : List Byte) (j : Nat) : (s.t1Store i a bs).fill? j = s.fill? j := rfl
@[simp] theorem t1Store_unit_get (i a : Nat) (bs : List Byte) (v : EngineUnit) : (s.t1Store i a bs).unit? v = s.unit? v := rfl

/-! ### degrade -/

@[simp] theorem degrade_power : (degrade s).power = s.power := rfl
@[simp] theorem degrade_boot : (degrade s).boot = s.boot := rfl
@[simp] theorem degrade_fuses : (degrade s).fuses = s.fuses := rfl
@[simp] theorem degrade_flash : (degrade s).flash = s.flash := rfl
@[simp] theorem degrade_sec : (degrade s).sec = s.sec := rfl
@[simp] theorem degrade_sb : (degrade s).sb = s.sb := rfl
@[simp] theorem degrade_lc : (degrade s).lc = s.lc := rfl
@[simp] theorem degrade_lcLatch : (degrade s).lcLatch = s.lcLatch := rfl
@[simp] theorem degrade_landing : (degrade s).landing = s.landing := rfl
@[simp] theorem degrade_zeroing : (degrade s).zeroing = s.zeroing := rfl
@[simp] theorem degrade_segRetired : (degrade s).segRetired = s.segRetired := rfl
@[simp] theorem degrade_segErrs : (degrade s).segErrs = s.segErrs := rfl
@[simp] theorem degrade_sparesUsed : (degrade s).sparesUsed = s.sparesUsed := rfl
@[simp] theorem degrade_t1 : (degrade s).t1 = s.t1 := rfl
@[simp] theorem degrade_pairs : (degrade s).pairs = s.pairs := rfl
@[simp] theorem degrade_parts : (degrade s).parts = s.parts := rfl
@[simp] theorem degrade_cmds : (degrade s).cmds = s.cmds := rfl
@[simp] theorem degrade_ctxs : (degrade s).ctxs = s.ctxs := rfl
@[simp] theorem degrade_stands : (degrade s).stands = s.stands := rfl
@[simp] theorem degrade_units : (degrade s).units = s.units := rfl
@[simp] theorem degrade_launches : (degrade s).launches = s.launches := rfl
@[simp] theorem degrade_fills : (degrade s).fills = s.fills := rfl
@[simp] theorem degrade_jobs : (degrade s).jobs = s.jobs := rfl
@[simp] theorem degrade_searches : (degrade s).searches = s.searches := rfl
@[simp] theorem degrade_calls : (degrade s).calls = s.calls := rfl
@[simp] theorem degrade_fetched : (degrade s).fetched = s.fetched := rfl
@[simp] theorem degrade_cut : (degrade s).cut = s.cut := rfl
@[simp] theorem degrade_ports : (degrade s).ports = s.ports := rfl
@[simp] theorem degrade_vectors : (degrade s).vectors = s.vectors := rfl
@[simp] theorem degrade_flowTx : (degrade s).flowTx = s.flowTx := rfl
@[simp] theorem degrade_flowRx : (degrade s).flowRx = s.flowRx := rfl
@[simp] theorem degrade_early : (degrade s).early = s.early := rfl
@[simp] theorem degrade_lost : (degrade s).lost = s.lost := rfl
@[simp] theorem degrade_unreach : (degrade s).unreach = s.unreach := rfl
@[simp] theorem degrade_bridge : (degrade s).bridge = s.bridge := rfl
@[simp] theorem degrade_ctr : (degrade s).ctr = s.ctr := rfl
@[simp] theorem degrade_readOut : (degrade s).readOut = s.readOut := rfl
@[simp] theorem degrade_hostOut : (degrade s).hostOut = s.hostOut := rfl
@[simp] theorem degrade_nextId : (degrade s).nextId = s.nextId := rfl
@[simp] theorem degrade_freeIdx : (degrade s).freeIdx = s.freeIdx := rfl
@[simp] theorem degrade_pending : (degrade s).pending = s.pending := rfl
@[simp] theorem degrade_pair (j : Nat) : (degrade s).pair j = s.pair j := rfl
@[simp] theorem degrade_part (j : Nat) : (degrade s).part j = s.part j := rfl
@[simp] theorem degrade_port (j : Nat) : (degrade s).port j = s.port j := rfl
@[simp] theorem degrade_now : (degrade s).now  = s.now := rfl
@[simp] theorem degrade_isReady : (degrade s).isReady  = s.isReady := rfl
@[simp] theorem degrade_released : (degrade s).released  = s.released := rfl
@[simp] theorem degrade_life : (degrade s).life  = s.life := rfl
@[simp] theorem degrade_cmd_get (j : Nat) : (degrade s).cmd? j = s.cmd? j := rfl
@[simp] theorem degrade_ctx_get (j : Nat) : (degrade s).ctx? j = s.ctx? j := rfl
@[simp] theorem degrade_launch_get (j : Nat) : (degrade s).launch? j = s.launch? j := rfl
@[simp] theorem degrade_job_get (j : Nat) : (degrade s).job? j = s.job? j := rfl
@[simp] theorem degrade_search_get (j : Nat) : (degrade s).search? j = s.search? j := rfl
@[simp] theorem degrade_fill_get (j : Nat) : (degrade s).fill? j = s.fill? j := rfl
@[simp] theorem degrade_unit_get (v : EngineUnit) : (degrade s).unit? v = s.unit? v := rfl

/-! ### setEvent -/

@[simp] theorem setEvent_power (n : Nat) : (setEvent s n).power = s.power := rfl
@[simp] theorem setEvent_boot (n : Nat) : (setEvent s n).boot = s.boot := rfl
@[simp] theorem setEvent_fuses (n : Nat) : (setEvent s n).fuses = s.fuses := rfl
@[simp] theorem setEvent_flash (n : Nat) : (setEvent s n).flash = s.flash := rfl
@[simp] theorem setEvent_sec (n : Nat) : (setEvent s n).sec = s.sec := rfl
@[simp] theorem setEvent_sb (n : Nat) : (setEvent s n).sb = s.sb := rfl
@[simp] theorem setEvent_lc (n : Nat) : (setEvent s n).lc = s.lc := rfl
@[simp] theorem setEvent_lcLatch (n : Nat) : (setEvent s n).lcLatch = s.lcLatch := rfl
@[simp] theorem setEvent_landing (n : Nat) : (setEvent s n).landing = s.landing := rfl
@[simp] theorem setEvent_zeroing (n : Nat) : (setEvent s n).zeroing = s.zeroing := rfl
@[simp] theorem setEvent_segRetired (n : Nat) : (setEvent s n).segRetired = s.segRetired := rfl
@[simp] theorem setEvent_segErrs (n : Nat) : (setEvent s n).segErrs = s.segErrs := rfl
@[simp] theorem setEvent_sparesUsed (n : Nat) : (setEvent s n).sparesUsed = s.sparesUsed := rfl
@[simp] theorem setEvent_t1 (n : Nat) : (setEvent s n).t1 = s.t1 := rfl
@[simp] theorem setEvent_pairs (n : Nat) : (setEvent s n).pairs = s.pairs := rfl
@[simp] theorem setEvent_parts (n : Nat) : (setEvent s n).parts = s.parts := rfl
@[simp] theorem setEvent_cmds (n : Nat) : (setEvent s n).cmds = s.cmds := rfl
@[simp] theorem setEvent_ctxs (n : Nat) : (setEvent s n).ctxs = s.ctxs := rfl
@[simp] theorem setEvent_stands (n : Nat) : (setEvent s n).stands = s.stands := rfl
@[simp] theorem setEvent_units (n : Nat) : (setEvent s n).units = s.units := rfl
@[simp] theorem setEvent_launches (n : Nat) : (setEvent s n).launches = s.launches := rfl
@[simp] theorem setEvent_fills (n : Nat) : (setEvent s n).fills = s.fills := rfl
@[simp] theorem setEvent_jobs (n : Nat) : (setEvent s n).jobs = s.jobs := rfl
@[simp] theorem setEvent_searches (n : Nat) : (setEvent s n).searches = s.searches := rfl
@[simp] theorem setEvent_calls (n : Nat) : (setEvent s n).calls = s.calls := rfl
@[simp] theorem setEvent_fetched (n : Nat) : (setEvent s n).fetched = s.fetched := rfl
@[simp] theorem setEvent_cut (n : Nat) : (setEvent s n).cut = s.cut := rfl
@[simp] theorem setEvent_ports (n : Nat) : (setEvent s n).ports = s.ports := rfl
@[simp] theorem setEvent_vectors (n : Nat) : (setEvent s n).vectors = s.vectors := rfl
@[simp] theorem setEvent_flowTx (n : Nat) : (setEvent s n).flowTx = s.flowTx := rfl
@[simp] theorem setEvent_flowRx (n : Nat) : (setEvent s n).flowRx = s.flowRx := rfl
@[simp] theorem setEvent_early (n : Nat) : (setEvent s n).early = s.early := rfl
@[simp] theorem setEvent_lost (n : Nat) : (setEvent s n).lost = s.lost := rfl
@[simp] theorem setEvent_unreach (n : Nat) : (setEvent s n).unreach = s.unreach := rfl
@[simp] theorem setEvent_bridge (n : Nat) : (setEvent s n).bridge = s.bridge := rfl
@[simp] theorem setEvent_ctr (n : Nat) : (setEvent s n).ctr = s.ctr := rfl
@[simp] theorem setEvent_readOut (n : Nat) : (setEvent s n).readOut = s.readOut := rfl
@[simp] theorem setEvent_hostOut (n : Nat) : (setEvent s n).hostOut = s.hostOut := rfl
@[simp] theorem setEvent_nextId (n : Nat) : (setEvent s n).nextId = s.nextId := rfl
@[simp] theorem setEvent_freeIdx (n : Nat) : (setEvent s n).freeIdx = s.freeIdx := rfl
@[simp] theorem setEvent_pending (n : Nat) : (setEvent s n).pending = s.pending := rfl
@[simp] theorem setEvent_pair (n : Nat) (j : Nat) : (setEvent s n).pair j = s.pair j := rfl
@[simp] theorem setEvent_part (n : Nat) (j : Nat) : (setEvent s n).part j = s.part j := rfl
@[simp] theorem setEvent_port (n : Nat) (j : Nat) : (setEvent s n).port j = s.port j := rfl
@[simp] theorem setEvent_now (n : Nat) : (setEvent s n).now  = s.now := rfl
@[simp] theorem setEvent_isReady (n : Nat) : (setEvent s n).isReady  = s.isReady := rfl
@[simp] theorem setEvent_released (n : Nat) : (setEvent s n).released  = s.released := rfl
@[simp] theorem setEvent_life (n : Nat) : (setEvent s n).life  = s.life := rfl
@[simp] theorem setEvent_cmd_get (n : Nat) (j : Nat) : (setEvent s n).cmd? j = s.cmd? j := rfl
@[simp] theorem setEvent_ctx_get (n : Nat) (j : Nat) : (setEvent s n).ctx? j = s.ctx? j := rfl
@[simp] theorem setEvent_launch_get (n : Nat) (j : Nat) : (setEvent s n).launch? j = s.launch? j := rfl
@[simp] theorem setEvent_job_get (n : Nat) (j : Nat) : (setEvent s n).job? j = s.job? j := rfl
@[simp] theorem setEvent_search_get (n : Nat) (j : Nat) : (setEvent s n).search? j = s.search? j := rfl
@[simp] theorem setEvent_fill_get (n : Nat) (j : Nat) : (setEvent s n).fill? j = s.fill? j := rfl
@[simp] theorem setEvent_unit_get (n : Nat) (v : EngineUnit) : (setEvent s n).unit? v = s.unit? v := rfl

/-! ### bump -/

theorem bump_eq (c : Ctr) (p i n : Nat) : ∃ l, bump s c p i n = { s with ctr := l } := by
  simp only [bump]; split <;> exact ⟨_, rfl⟩

@[simp] theorem bump_power (c : Ctr) (p i n : Nat) : (bump s c p i n).power = s.power := by obtain ⟨l, h⟩ := bump_eq s c p i n; rw [h]
@[simp] theorem bump_boot (c : Ctr) (p i n : Nat) : (bump s c p i n).boot = s.boot := by obtain ⟨l, h⟩ := bump_eq s c p i n; rw [h]
@[simp] theorem bump_fuses (c : Ctr) (p i n : Nat) : (bump s c p i n).fuses = s.fuses := by obtain ⟨l, h⟩ := bump_eq s c p i n; rw [h]
@[simp] theorem bump_flash (c : Ctr) (p i n : Nat) : (bump s c p i n).flash = s.flash := by obtain ⟨l, h⟩ := bump_eq s c p i n; rw [h]
@[simp] theorem bump_sec (c : Ctr) (p i n : Nat) : (bump s c p i n).sec = s.sec := by obtain ⟨l, h⟩ := bump_eq s c p i n; rw [h]
@[simp] theorem bump_ident (c : Ctr) (p i n : Nat) : (bump s c p i n).ident = s.ident := by obtain ⟨l, h⟩ := bump_eq s c p i n; rw [h]
@[simp] theorem bump_sb (c : Ctr) (p i n : Nat) : (bump s c p i n).sb = s.sb := by obtain ⟨l, h⟩ := bump_eq s c p i n; rw [h]
@[simp] theorem bump_lc (c : Ctr) (p i n : Nat) : (bump s c p i n).lc = s.lc := by obtain ⟨l, h⟩ := bump_eq s c p i n; rw [h]
@[simp] theorem bump_lcLatch (c : Ctr) (p i n : Nat) : (bump s c p i n).lcLatch = s.lcLatch := by obtain ⟨l, h⟩ := bump_eq s c p i n; rw [h]
@[simp] theorem bump_landing (c : Ctr) (p i n : Nat) : (bump s c p i n).landing = s.landing := by obtain ⟨l, h⟩ := bump_eq s c p i n; rw [h]
@[simp] theorem bump_zeroing (c : Ctr) (p i n : Nat) : (bump s c p i n).zeroing = s.zeroing := by obtain ⟨l, h⟩ := bump_eq s c p i n; rw [h]
@[simp] theorem bump_segRetired (c : Ctr) (p i n : Nat) : (bump s c p i n).segRetired = s.segRetired := by obtain ⟨l, h⟩ := bump_eq s c p i n; rw [h]
@[simp] theorem bump_segErrs (c : Ctr) (p i n : Nat) : (bump s c p i n).segErrs = s.segErrs := by obtain ⟨l, h⟩ := bump_eq s c p i n; rw [h]
@[simp] theorem bump_sparesUsed (c : Ctr) (p i n : Nat) : (bump s c p i n).sparesUsed = s.sparesUsed := by obtain ⟨l, h⟩ := bump_eq s c p i n; rw [h]
@[simp] theorem bump_t1 (c : Ctr) (p i n : Nat) : (bump s c p i n).t1 = s.t1 := by obtain ⟨l, h⟩ := bump_eq s c p i n; rw [h]
@[simp] theorem bump_pairs (c : Ctr) (p i n : Nat) : (bump s c p i n).pairs = s.pairs := by obtain ⟨l, h⟩ := bump_eq s c p i n; rw [h]
@[simp] theorem bump_parts (c : Ctr) (p i n : Nat) : (bump s c p i n).parts = s.parts := by obtain ⟨l, h⟩ := bump_eq s c p i n; rw [h]
@[simp] theorem bump_cmds (c : Ctr) (p i n : Nat) : (bump s c p i n).cmds = s.cmds := by obtain ⟨l, h⟩ := bump_eq s c p i n; rw [h]
@[simp] theorem bump_ctxs (c : Ctr) (p i n : Nat) : (bump s c p i n).ctxs = s.ctxs := by obtain ⟨l, h⟩ := bump_eq s c p i n; rw [h]
@[simp] theorem bump_stands (c : Ctr) (p i n : Nat) : (bump s c p i n).stands = s.stands := by obtain ⟨l, h⟩ := bump_eq s c p i n; rw [h]
@[simp] theorem bump_units (c : Ctr) (p i n : Nat) : (bump s c p i n).units = s.units := by obtain ⟨l, h⟩ := bump_eq s c p i n; rw [h]
@[simp] theorem bump_launches (c : Ctr) (p i n : Nat) : (bump s c p i n).launches = s.launches := by obtain ⟨l, h⟩ := bump_eq s c p i n; rw [h]
@[simp] theorem bump_fills (c : Ctr) (p i n : Nat) : (bump s c p i n).fills = s.fills := by obtain ⟨l, h⟩ := bump_eq s c p i n; rw [h]
@[simp] theorem bump_jobs (c : Ctr) (p i n : Nat) : (bump s c p i n).jobs = s.jobs := by obtain ⟨l, h⟩ := bump_eq s c p i n; rw [h]
@[simp] theorem bump_searches (c : Ctr) (p i n : Nat) : (bump s c p i n).searches = s.searches := by obtain ⟨l, h⟩ := bump_eq s c p i n; rw [h]
@[simp] theorem bump_calls (c : Ctr) (p i n : Nat) : (bump s c p i n).calls = s.calls := by obtain ⟨l, h⟩ := bump_eq s c p i n; rw [h]
@[simp] theorem bump_fetched (c : Ctr) (p i n : Nat) : (bump s c p i n).fetched = s.fetched := by obtain ⟨l, h⟩ := bump_eq s c p i n; rw [h]
@[simp] theorem bump_cut (c : Ctr) (p i n : Nat) : (bump s c p i n).cut = s.cut := by obtain ⟨l, h⟩ := bump_eq s c p i n; rw [h]
@[simp] theorem bump_ports (c : Ctr) (p i n : Nat) : (bump s c p i n).ports = s.ports := by obtain ⟨l, h⟩ := bump_eq s c p i n; rw [h]
@[simp] theorem bump_vectors (c : Ctr) (p i n : Nat) : (bump s c p i n).vectors = s.vectors := by obtain ⟨l, h⟩ := bump_eq s c p i n; rw [h]
@[simp] theorem bump_flowTx (c : Ctr) (p i n : Nat) : (bump s c p i n).flowTx = s.flowTx := by obtain ⟨l, h⟩ := bump_eq s c p i n; rw [h]
@[simp] theorem bump_flowRx (c : Ctr) (p i n : Nat) : (bump s c p i n).flowRx = s.flowRx := by obtain ⟨l, h⟩ := bump_eq s c p i n; rw [h]
@[simp] theorem bump_early (c : Ctr) (p i n : Nat) : (bump s c p i n).early = s.early := by obtain ⟨l, h⟩ := bump_eq s c p i n; rw [h]
@[simp] theorem bump_lost (c : Ctr) (p i n : Nat) : (bump s c p i n).lost = s.lost := by obtain ⟨l, h⟩ := bump_eq s c p i n; rw [h]
@[simp] theorem bump_unreach (c : Ctr) (p i n : Nat) : (bump s c p i n).unreach = s.unreach := by obtain ⟨l, h⟩ := bump_eq s c p i n; rw [h]
@[simp] theorem bump_bridge (c : Ctr) (p i n : Nat) : (bump s c p i n).bridge = s.bridge := by obtain ⟨l, h⟩ := bump_eq s c p i n; rw [h]
@[simp] theorem bump_readOut (c : Ctr) (p i n : Nat) : (bump s c p i n).readOut = s.readOut := by obtain ⟨l, h⟩ := bump_eq s c p i n; rw [h]
@[simp] theorem bump_hostOut (c : Ctr) (p i n : Nat) : (bump s c p i n).hostOut = s.hostOut := by obtain ⟨l, h⟩ := bump_eq s c p i n; rw [h]
@[simp] theorem bump_nextId (c : Ctr) (p i n : Nat) : (bump s c p i n).nextId = s.nextId := by obtain ⟨l, h⟩ := bump_eq s c p i n; rw [h]
@[simp] theorem bump_freeIdx (c : Ctr) (p i n : Nat) : (bump s c p i n).freeIdx = s.freeIdx := by obtain ⟨l, h⟩ := bump_eq s c p i n; rw [h]
@[simp] theorem bump_pending (c : Ctr) (p i n : Nat) : (bump s c p i n).pending = s.pending := by obtain ⟨l, h⟩ := bump_eq s c p i n; rw [h]
@[simp] theorem bump_pair (c : Ctr) (p i n : Nat) (j : Nat) : (bump s c p i n).pair j = s.pair j := by obtain ⟨l, h⟩ := bump_eq s c p i n; rw [h]; rfl
@[simp] theorem bump_part (c : Ctr) (p i n : Nat) (j : Nat) : (bump s c p i n).part j = s.part j := by obtain ⟨l, h⟩ := bump_eq s c p i n; rw [h]; rfl
@[simp] theorem bump_port (c : Ctr) (p i n : Nat) (j : Nat) : (bump s c p i n).port j = s.port j := by obtain ⟨l, h⟩ := bump_eq s c p i n; rw [h]; rfl
@[simp] theorem bump_now (c : Ctr) (p i n : Nat) : (bump s c p i n).now  = s.now := by obtain ⟨l, h⟩ := bump_eq s c p i n; rw [h]; rfl
@[simp] theorem bump_myId (c : Ctr) (p i n : Nat) : (bump s c p i n).myId  = s.myId := by obtain ⟨l, h⟩ := bump_eq s c p i n; rw [h]; rfl
@[simp] theorem bump_isReady (c : Ctr) (p i n : Nat) : (bump s c p i n).isReady  = s.isReady := by obtain ⟨l, h⟩ := bump_eq s c p i n; rw [h]; rfl
@[simp] theorem bump_released (c : Ctr) (p i n : Nat) : (bump s c p i n).released  = s.released := by obtain ⟨l, h⟩ := bump_eq s c p i n; rw [h]; rfl
@[simp] theorem bump_life (c : Ctr) (p i n : Nat) : (bump s c p i n).life  = s.life := by obtain ⟨l, h⟩ := bump_eq s c p i n; rw [h]; rfl
@[simp] theorem bump_cmd_get (c : Ctr) (p i n : Nat) (j : Nat) : (bump s c p i n).cmd? j = s.cmd? j := by obtain ⟨l, h⟩ := bump_eq s c p i n; rw [h]; rfl
@[simp] theorem bump_ctx_get (c : Ctr) (p i n : Nat) (j : Nat) : (bump s c p i n).ctx? j = s.ctx? j := by obtain ⟨l, h⟩ := bump_eq s c p i n; rw [h]; rfl
@[simp] theorem bump_launch_get (c : Ctr) (p i n : Nat) (j : Nat) : (bump s c p i n).launch? j = s.launch? j := by obtain ⟨l, h⟩ := bump_eq s c p i n; rw [h]; rfl
@[simp] theorem bump_job_get (c : Ctr) (p i n : Nat) (j : Nat) : (bump s c p i n).job? j = s.job? j := by obtain ⟨l, h⟩ := bump_eq s c p i n; rw [h]; rfl
@[simp] theorem bump_search_get (c : Ctr) (p i n : Nat) (j : Nat) : (bump s c p i n).search? j = s.search? j := by obtain ⟨l, h⟩ := bump_eq s c p i n; rw [h]; rfl
@[simp] theorem bump_fill_get (c : Ctr) (p i n : Nat) (j : Nat) : (bump s c p i n).fill? j = s.fill? j := by obtain ⟨l, h⟩ := bump_eq s c p i n; rw [h]; rfl
@[simp] theorem bump_unit_get (c : Ctr) (p i n : Nat) (v : EngineUnit) : (bump s c p i n).unit? v = s.unit? v := by obtain ⟨l, h⟩ := bump_eq s c p i n; rw [h]; rfl

/-! ### bumpMax -/

theorem bumpMax_eq (c : Ctr) (p i n : Nat) : ∃ l, bumpMax s c p i n = { s with ctr := l } := by
  simp only [bumpMax]; split <;> exact ⟨_, rfl⟩

@[simp] theorem bumpMax_power (c : Ctr) (p i n : Nat) : (bumpMax s c p i n).power = s.power := by obtain ⟨l, h⟩ := bumpMax_eq s c p i n; rw [h]
@[simp] theorem bumpMax_boot (c : Ctr) (p i n : Nat) : (bumpMax s c p i n).boot = s.boot := by obtain ⟨l, h⟩ := bumpMax_eq s c p i n; rw [h]
@[simp] theorem bumpMax_fuses (c : Ctr) (p i n : Nat) : (bumpMax s c p i n).fuses = s.fuses := by obtain ⟨l, h⟩ := bumpMax_eq s c p i n; rw [h]
@[simp] theorem bumpMax_flash (c : Ctr) (p i n : Nat) : (bumpMax s c p i n).flash = s.flash := by obtain ⟨l, h⟩ := bumpMax_eq s c p i n; rw [h]
@[simp] theorem bumpMax_sec (c : Ctr) (p i n : Nat) : (bumpMax s c p i n).sec = s.sec := by obtain ⟨l, h⟩ := bumpMax_eq s c p i n; rw [h]
@[simp] theorem bumpMax_ident (c : Ctr) (p i n : Nat) : (bumpMax s c p i n).ident = s.ident := by obtain ⟨l, h⟩ := bumpMax_eq s c p i n; rw [h]
@[simp] theorem bumpMax_sb (c : Ctr) (p i n : Nat) : (bumpMax s c p i n).sb = s.sb := by obtain ⟨l, h⟩ := bumpMax_eq s c p i n; rw [h]
@[simp] theorem bumpMax_lc (c : Ctr) (p i n : Nat) : (bumpMax s c p i n).lc = s.lc := by obtain ⟨l, h⟩ := bumpMax_eq s c p i n; rw [h]
@[simp] theorem bumpMax_lcLatch (c : Ctr) (p i n : Nat) : (bumpMax s c p i n).lcLatch = s.lcLatch := by obtain ⟨l, h⟩ := bumpMax_eq s c p i n; rw [h]
@[simp] theorem bumpMax_landing (c : Ctr) (p i n : Nat) : (bumpMax s c p i n).landing = s.landing := by obtain ⟨l, h⟩ := bumpMax_eq s c p i n; rw [h]
@[simp] theorem bumpMax_zeroing (c : Ctr) (p i n : Nat) : (bumpMax s c p i n).zeroing = s.zeroing := by obtain ⟨l, h⟩ := bumpMax_eq s c p i n; rw [h]
@[simp] theorem bumpMax_segRetired (c : Ctr) (p i n : Nat) : (bumpMax s c p i n).segRetired = s.segRetired := by obtain ⟨l, h⟩ := bumpMax_eq s c p i n; rw [h]
@[simp] theorem bumpMax_segErrs (c : Ctr) (p i n : Nat) : (bumpMax s c p i n).segErrs = s.segErrs := by obtain ⟨l, h⟩ := bumpMax_eq s c p i n; rw [h]
@[simp] theorem bumpMax_sparesUsed (c : Ctr) (p i n : Nat) : (bumpMax s c p i n).sparesUsed = s.sparesUsed := by obtain ⟨l, h⟩ := bumpMax_eq s c p i n; rw [h]
@[simp] theorem bumpMax_t1 (c : Ctr) (p i n : Nat) : (bumpMax s c p i n).t1 = s.t1 := by obtain ⟨l, h⟩ := bumpMax_eq s c p i n; rw [h]
@[simp] theorem bumpMax_pairs (c : Ctr) (p i n : Nat) : (bumpMax s c p i n).pairs = s.pairs := by obtain ⟨l, h⟩ := bumpMax_eq s c p i n; rw [h]
@[simp] theorem bumpMax_parts (c : Ctr) (p i n : Nat) : (bumpMax s c p i n).parts = s.parts := by obtain ⟨l, h⟩ := bumpMax_eq s c p i n; rw [h]
@[simp] theorem bumpMax_cmds (c : Ctr) (p i n : Nat) : (bumpMax s c p i n).cmds = s.cmds := by obtain ⟨l, h⟩ := bumpMax_eq s c p i n; rw [h]
@[simp] theorem bumpMax_ctxs (c : Ctr) (p i n : Nat) : (bumpMax s c p i n).ctxs = s.ctxs := by obtain ⟨l, h⟩ := bumpMax_eq s c p i n; rw [h]
@[simp] theorem bumpMax_stands (c : Ctr) (p i n : Nat) : (bumpMax s c p i n).stands = s.stands := by obtain ⟨l, h⟩ := bumpMax_eq s c p i n; rw [h]
@[simp] theorem bumpMax_units (c : Ctr) (p i n : Nat) : (bumpMax s c p i n).units = s.units := by obtain ⟨l, h⟩ := bumpMax_eq s c p i n; rw [h]
@[simp] theorem bumpMax_launches (c : Ctr) (p i n : Nat) : (bumpMax s c p i n).launches = s.launches := by obtain ⟨l, h⟩ := bumpMax_eq s c p i n; rw [h]
@[simp] theorem bumpMax_fills (c : Ctr) (p i n : Nat) : (bumpMax s c p i n).fills = s.fills := by obtain ⟨l, h⟩ := bumpMax_eq s c p i n; rw [h]
@[simp] theorem bumpMax_jobs (c : Ctr) (p i n : Nat) : (bumpMax s c p i n).jobs = s.jobs := by obtain ⟨l, h⟩ := bumpMax_eq s c p i n; rw [h]
@[simp] theorem bumpMax_searches (c : Ctr) (p i n : Nat) : (bumpMax s c p i n).searches = s.searches := by obtain ⟨l, h⟩ := bumpMax_eq s c p i n; rw [h]
@[simp] theorem bumpMax_calls (c : Ctr) (p i n : Nat) : (bumpMax s c p i n).calls = s.calls := by obtain ⟨l, h⟩ := bumpMax_eq s c p i n; rw [h]
@[simp] theorem bumpMax_fetched (c : Ctr) (p i n : Nat) : (bumpMax s c p i n).fetched = s.fetched := by obtain ⟨l, h⟩ := bumpMax_eq s c p i n; rw [h]
@[simp] theorem bumpMax_cut (c : Ctr) (p i n : Nat) : (bumpMax s c p i n).cut = s.cut := by obtain ⟨l, h⟩ := bumpMax_eq s c p i n; rw [h]
@[simp] theorem bumpMax_ports (c : Ctr) (p i n : Nat) : (bumpMax s c p i n).ports = s.ports := by obtain ⟨l, h⟩ := bumpMax_eq s c p i n; rw [h]
@[simp] theorem bumpMax_vectors (c : Ctr) (p i n : Nat) : (bumpMax s c p i n).vectors = s.vectors := by obtain ⟨l, h⟩ := bumpMax_eq s c p i n; rw [h]
@[simp] theorem bumpMax_flowTx (c : Ctr) (p i n : Nat) : (bumpMax s c p i n).flowTx = s.flowTx := by obtain ⟨l, h⟩ := bumpMax_eq s c p i n; rw [h]
@[simp] theorem bumpMax_flowRx (c : Ctr) (p i n : Nat) : (bumpMax s c p i n).flowRx = s.flowRx := by obtain ⟨l, h⟩ := bumpMax_eq s c p i n; rw [h]
@[simp] theorem bumpMax_early (c : Ctr) (p i n : Nat) : (bumpMax s c p i n).early = s.early := by obtain ⟨l, h⟩ := bumpMax_eq s c p i n; rw [h]
@[simp] theorem bumpMax_lost (c : Ctr) (p i n : Nat) : (bumpMax s c p i n).lost = s.lost := by obtain ⟨l, h⟩ := bumpMax_eq s c p i n; rw [h]
@[simp] theorem bumpMax_unreach (c : Ctr) (p i n : Nat) : (bumpMax s c p i n).unreach = s.unreach := by obtain ⟨l, h⟩ := bumpMax_eq s c p i n; rw [h]
@[simp] theorem bumpMax_bridge (c : Ctr) (p i n : Nat) : (bumpMax s c p i n).bridge = s.bridge := by obtain ⟨l, h⟩ := bumpMax_eq s c p i n; rw [h]
@[simp] theorem bumpMax_readOut (c : Ctr) (p i n : Nat) : (bumpMax s c p i n).readOut = s.readOut := by obtain ⟨l, h⟩ := bumpMax_eq s c p i n; rw [h]
@[simp] theorem bumpMax_hostOut (c : Ctr) (p i n : Nat) : (bumpMax s c p i n).hostOut = s.hostOut := by obtain ⟨l, h⟩ := bumpMax_eq s c p i n; rw [h]
@[simp] theorem bumpMax_nextId (c : Ctr) (p i n : Nat) : (bumpMax s c p i n).nextId = s.nextId := by obtain ⟨l, h⟩ := bumpMax_eq s c p i n; rw [h]
@[simp] theorem bumpMax_freeIdx (c : Ctr) (p i n : Nat) : (bumpMax s c p i n).freeIdx = s.freeIdx := by obtain ⟨l, h⟩ := bumpMax_eq s c p i n; rw [h]
@[simp] theorem bumpMax_pending (c : Ctr) (p i n : Nat) : (bumpMax s c p i n).pending = s.pending := by obtain ⟨l, h⟩ := bumpMax_eq s c p i n; rw [h]
@[simp] theorem bumpMax_pair (c : Ctr) (p i n : Nat) (j : Nat) : (bumpMax s c p i n).pair j = s.pair j := by obtain ⟨l, h⟩ := bumpMax_eq s c p i n; rw [h]; rfl
@[simp] theorem bumpMax_part (c : Ctr) (p i n : Nat) (j : Nat) : (bumpMax s c p i n).part j = s.part j := by obtain ⟨l, h⟩ := bumpMax_eq s c p i n; rw [h]; rfl
@[simp] theorem bumpMax_port (c : Ctr) (p i n : Nat) (j : Nat) : (bumpMax s c p i n).port j = s.port j := by obtain ⟨l, h⟩ := bumpMax_eq s c p i n; rw [h]; rfl
@[simp] theorem bumpMax_now (c : Ctr) (p i n : Nat) : (bumpMax s c p i n).now  = s.now := by obtain ⟨l, h⟩ := bumpMax_eq s c p i n; rw [h]; rfl
@[simp] theorem bumpMax_myId (c : Ctr) (p i n : Nat) : (bumpMax s c p i n).myId  = s.myId := by obtain ⟨l, h⟩ := bumpMax_eq s c p i n; rw [h]; rfl
@[simp] theorem bumpMax_isReady (c : Ctr) (p i n : Nat) : (bumpMax s c p i n).isReady  = s.isReady := by obtain ⟨l, h⟩ := bumpMax_eq s c p i n; rw [h]; rfl
@[simp] theorem bumpMax_released (c : Ctr) (p i n : Nat) : (bumpMax s c p i n).released  = s.released := by obtain ⟨l, h⟩ := bumpMax_eq s c p i n; rw [h]; rfl
@[simp] theorem bumpMax_life (c : Ctr) (p i n : Nat) : (bumpMax s c p i n).life  = s.life := by obtain ⟨l, h⟩ := bumpMax_eq s c p i n; rw [h]; rfl
@[simp] theorem bumpMax_cmd_get (c : Ctr) (p i n : Nat) (j : Nat) : (bumpMax s c p i n).cmd? j = s.cmd? j := by obtain ⟨l, h⟩ := bumpMax_eq s c p i n; rw [h]; rfl
@[simp] theorem bumpMax_ctx_get (c : Ctr) (p i n : Nat) (j : Nat) : (bumpMax s c p i n).ctx? j = s.ctx? j := by obtain ⟨l, h⟩ := bumpMax_eq s c p i n; rw [h]; rfl
@[simp] theorem bumpMax_launch_get (c : Ctr) (p i n : Nat) (j : Nat) : (bumpMax s c p i n).launch? j = s.launch? j := by obtain ⟨l, h⟩ := bumpMax_eq s c p i n; rw [h]; rfl
@[simp] theorem bumpMax_job_get (c : Ctr) (p i n : Nat) (j : Nat) : (bumpMax s c p i n).job? j = s.job? j := by obtain ⟨l, h⟩ := bumpMax_eq s c p i n; rw [h]; rfl
@[simp] theorem bumpMax_search_get (c : Ctr) (p i n : Nat) (j : Nat) : (bumpMax s c p i n).search? j = s.search? j := by obtain ⟨l, h⟩ := bumpMax_eq s c p i n; rw [h]; rfl
@[simp] theorem bumpMax_fill_get (c : Ctr) (p i n : Nat) (j : Nat) : (bumpMax s c p i n).fill? j = s.fill? j := by obtain ⟨l, h⟩ := bumpMax_eq s c p i n; rw [h]; rfl
@[simp] theorem bumpMax_unit_get (c : Ctr) (p i n : Nat) (v : EngineUnit) : (bumpMax s c p i n).unit? v = s.unit? v := by obtain ⟨l, h⟩ := bumpMax_eq s c p i n; rw [h]; rfl

/-! ### Read after update -/

@[simp] theorem pair_modPair_self {i : Nat} (h : i < s.pairs.length) (f : Pair → Pair) : (s.modPair i f).pair i = f (s.pair i) := by
  simp [State.pair, State.modPair, List.getD, h]

theorem pair_modPair_ne {i j : Nat} (h : i ≠ j) (f : Pair → Pair) : (s.modPair i f).pair j = s.pair j := by
  simp [State.pair, State.modPair, List.getD, List.getElem?_set_ne h]

@[simp] theorem part_modPart_self {i : Nat} (h : i < s.parts.length) (f : Partition → Partition) :
 (s.modPart i f).part i = f (s.part i) := by
  simp [State.part, State.modPart, List.getD, h]

theorem part_modPart_ne {i j : Nat} (h : i ≠ j) (f : Partition → Partition) : (s.modPart i f).part j = s.part j := by
  simp [State.part, State.modPart, List.getD, List.getElem?_set_ne h]

@[simp] theorem port_modPort_self {i : Nat} (h : i < s.ports.length) (f : Port → Port) : (s.modPort i f).port i = f (s.port i) := by
  simp [State.port, State.modPort, List.getD, h]

theorem port_modPort_ne {i j : Nat} (h : i ≠ j) (f : Port → Port) : (s.modPort i f).port j = s.port j := by
  simp [State.port, State.modPort, List.getD, List.getElem?_set_ne h]

@[simp] theorem modPair_pairs_length (i : Nat) (f : Pair → Pair) : (s.modPair i f).pairs.length = s.pairs.length := by
  simp [State.modPair]

@[simp] theorem modPart_parts_length (i : Nat) (f : Partition → Partition) : (s.modPart i f).parts.length = s.parts.length := by
  simp [State.modPart]

@[simp] theorem modPort_ports_length (i : Nat) (f : Port → Port) : (s.modPort i f).ports.length = s.ports.length := by
  simp [State.modPort]

@[simp] theorem modStand_stands_length (k : Nat) (f : Stand → Stand) : (s.modStand k f).stands.length = s.stands.length := by
  unfold State.modStand; split <;> simp

end Sys2Proof.Laws
end

