-- ==== Sys2Proof/WellFormed.lean ====
section
/-! DEFINITION. Which commands can be sent at all: every number within the range that the spec gives the thing it names. A
command outside these ranges names nothing; where it is run all the same, the model's accessors read a reset value and write
nothing. -/

namespace Sys2Proof

/-- A pair of the 96 (02 R23), and a payload as long as its header's PayLen says (02 R37; log 43). -/
def Req.wellFormed (r : Req) : Bool := decide (r.pair < 96) && decide (r.pay.length = r.hdr.payLen.toNat)

/-- A request on a peer pair (02 R23, R25). -/
def Req.onPeer (r : Req) : Bool := r.wellFormed && decide (64 ≤ r.pair)

/-- A frame of a kind: hops 0 to 7 (14 R369), and at most 20 flits (14 R371): 4,480 payload bytes. -/
def Frame.wellFormed (k : FrameKind) (f : Frame) : Bool :=
  f.kind == k && decide (f.hops < 8) &&
    if f.kind = .blaze then decide (192 ≤ f.data.length ∧ f.data.length ≤ 4448) else decide (f.data.length ≤ 4464)

/-- The units of 13 R344: 8 traversal units, 2 Tally pipes, 16 lanes, the Yarder and the Skidder. -/
def EngineUnit.wellFormed : EngineUnit → Bool
  | .traversal i => decide (i < 8)
  | .tally i => decide (i < 2)
  | .lane i => decide (i < 16)
  | .yarder => true
  | .skidder => true

/-- A stand by its logical number, 0 to 63 (04 R88), or a shared unit. -/
def TestUnit.wellFormed : TestUnit → Bool
  | .stand n => decide (n < 64)
  | .engine u => u.wellFormed

/-- Functions 0 to 32 (14 R390). -/
def CfgWrite.wellFormed : CfgWrite → Bool
  | .numVFs n => decide (n ≤ 32)
  | .busMaster fn _ => decide (fn ≤ 32)
  | .msixEnable fn _ => decide (fn ≤ 32)
  | .maxPayload n => [128, 256, 512].contains n
  | .maxRead n => [128, 256, 512, 1024, 2048, 4096].contains n
  | .aerClear fn _ => decide (fn ≤ 32)

/-- A register of a slot page or page 0, at a multiple of 4 below 4 KiB (02 R61), or of the side-band space (18 R475). -/
def RegSpace.wellFormed (off : Nat) : RegSpace → Bool
  | .slot pair => decide (pair < 96) && decide (off < 0x1000) && off % 4 == 0
  | .page0 fn => decide (fn ≤ 32) && decide (off < 0x1000) && off % 4 == 0
  | .sideband => decide (off < 0x10000) && off % 4 == 0

/-- Sixteen ports (14 R367). -/
def portNo (i : Nat) : Bool := decide (i < 16)
/-- Thirty-two partitions (13 R344). -/
def partNo (i : Nat) : Bool := decide (i < 32)

/-- Is the command one that can be sent? -/
def Instr.wellFormed : Instr → Bool
  | .powerOn _ => true
  | .powerLoss => true
  | .resetInput _ => true
  | .resetRelease _ => true
  | .pcieDetectEnd _ => true
  | .moduleReady => true
  | .firmwareWatchdog => true
  | .coreRetire core _ _ => decide (core < 8)
  | .lifecycleReset => true
  | .doorbell pair _ => decide (pair < 64)
  | .fencedCommandStart pair => decide (pair < 96)
  | .imgCplHeadWrite pair _ => decide (pair < 64)
  | .pendingRecordPost pair => decide (pair < 96)
  | .resultRoomWaitEnd _ => true
  | .lcCountRead _ => true
  | .sbLcCountRead _ n => decide (1 ≤ n ∧ n ≤ 4)
  | .pwrMeasRead n => decide (1 ≤ n ∧ n ≤ 4)
  | .pwrLimitWrite _ => true
  | .sbModuleIdWrite _ => true
  | .gateSwitchArm port v => portNo port && v.getLsbD 31
  | .gateSwitchCancel port v => portNo port && !v.getLsbD 31
  | .gateBankSwitch port => portNo port
  | .flashRead => true
  | .flashProgram => true
  | .flashErase => true
  | .flashOpDone _ => true
  | .registerWrite space off _ => space.wellFormed off
  | .nop r => r.wellFormed
  | .resultRelease r => r.wellFormed
  | .moduleQuery r => r.wellFormed
  | .healthRead r => r.wellFormed
  | .powerSet r => r.wellFormed
  | .partitionBind r => r.wellFormed
  | .partitionUnbind r => r.wellFormed
  | .partitionRebind r => r.wellFormed
  | .lifecycleAdvance r _ => r.wellFormed
  | .attestGet r => r.wellFormed
  | .configExport r => r.wellFormed
  | .configImport r => r.wellFormed
  | .bridgeMap r => r.wellFormed
  | .serveStart r => r.wellFormed
  | .warmupEnd part => partNo part
  | .serveStop r => r.wellFormed
  | .partitionStatus r => r.wellFormed
  | .digestRead r => r.wellFormed
  | .partitionRecover r => r.wellFormed
  | .modelSwapIn r => r.wellFormed
  | .modelSwapOut r => r.wellFormed
  | .indexLoad r => r.wellFormed
  | .indexUnload r => r.wellFormed
  | .tableLoad r => r.wellFormed
  | .tokenizerLoad r => r.wellFormed
  | .grammarLoad r => r.wellFormed
  | .contentUnload r => r.wellFormed
  | .querySubmit r => r.wellFormed
  | .generateSubmit r => r.wellFormed
  | .requestCancel r => r.wellFormed
  | .requestPause r => r.wellFormed
  | .requestResume r => r.wellFormed
  | .searchSubmit r => r.wellFormed
  | .gatherSubmit r => r.wellFormed
  | .updateSubmit r => r.wellFormed
  | .tallySubmit r => r.wellFormed
  | .tokenizeSubmit r => r.wellFormed
  | .detokenizeSubmit r => r.wellFormed
  | .searchInsert r => r.wellFormed
  | .searchDelete r => r.wellFormed
  | .plantStart r => r.wellFormed
  | .plantingDone part _ => partNo part
  | .barrierJoin r => r.wellFormed
  | .broadcastSend r => r.wellFormed
  | .snapshotTake r => r.wellFormed
  | .groupReset r => r.wellFormed
  | .globalDeferredStart part _ => partNo part
  | .loopbackSet r => r.wellFormed
  | .selftestRun r => r.wellFormed
  | .peerSearch r => r.onPeer
  | .peerFetch r => r.onPeer
  | .peerGather r => r.onPeer
  | .peerUpdate r => r.onPeer
  | .stepForm part => partNo part
  | .stepBoundary part => partNo part
  | .changeBoundary part => partNo part
  | .launchFire _ => true
  | .standTaskComplete stand => decide (stand < 64)
  | .arrayResidueFault stand => decide (stand < 64)
  | .taskWatchdog stand => decide (stand < 64)
  | .engineSliceEnd u _ => u.wellFormed
  | .sliceWatchdog u => u.wellFormed
  | .engineFault u => u.wellFormed
  | .tallyFault pipe => decide (pipe < 2)
  | .sapwoodBudgetExpiry _ => true
  | .unitSelftestDone u _ => u.wellFormed
  | .spareSelftestDone _ => true
  | .moveDescriptorStart _ => true
  | .fillComplete _ _ => true
  | .fillFailed _ _ => true
  | .t2FillTimeout _ => true
  | .landingUe segment _ _ => decide (segment < 6144)
  | .segmentZeroed segment => decide (segment < 6144)
  | .patrolScrub page _ => decide (page < 351561600)
  | .channelRetire channel _ => decide (channel < 128)
  | .channelCopyComplete channel => decide (channel < 128)
  | .cacheCountHalve part => partNo part
  | .cutMainRound => true
  | .cutLateRound => true
  | .epochBoundary => true
  | .budgetUpdate _ _ => true
  | .thermalSample temps _ _ _ => decide (temps.length = 8)
  | .hostWindowWrite fn bar _ _ => decide (fn ≤ 32) && (bar == 0 || bar == 2)
  | .hostWindowRead fn bar _ _ => decide (fn ≤ 32) && (bar == 0 || bar == 2)
  | .relayReadTimeout _ => true
  | .functionLevelReset fn => decide (fn ≤ 32)
  | .pcieLinkDown => true
  | .mboxWrite port f => portNo port && f.wellFormed .mboxWrite
  | .mboxRead port f => portNo port && f.wellFormed .mboxRead
  | .readData port f => portNo port && f.wellFormed .readData
  | .peerReq port f => portNo port && f.wellFormed .peerReq
  | .peerData port f => portNo port && f.wellFormed .peerData
  | .message port f => portNo port && f.wellFormed .message
  | .hostWrite port f => portNo port && f.wellFormed .hostWrite
  | .hostRead port f => portNo port && f.wellFormed .hostRead
  | .blazeUp port f => portNo port && f.wellFormed .blaze
  | .blazeDown port f => portNo port && f.wellFormed .blaze
  | .blazeChildTimeout part _ => partNo part
  | .blazeDownTimeout part _ => partNo part
  | .frameTransmit port => portNo port
  | .nak port _ => portNo port
  | .hello link _ theirPort lanes => portNo link.port && portNo theirPort && decide (lanes ≤ 4)
  | .distanceVector link _ => portNo link.port
  | .distanceVectorSend => true
  | .laneRetire port lane => portNo port && decide (lane < 4)
  | .retire link lane => portNo link.port && decide (lane < 4)
  | .portUp port => portNo port
  | .peerLost _ => true
  | .peerReinstated _ => true
  | .flitDiscard port _ => portNo port
  | .creditReturn port _ channel hop flits => portNo port && decide (channel < 3 ∧ hop < 8 ∧ flits < 2048)
  | .loopbackTestEnd part _ => partNo part
  | .selftestRunEnd part _ => partNo part
  | .configurationSpaceWrite w => w.wellFormed
  | .pcieLinkUp _ width => width == 16 || width == 8 || width == 4
  | .hostCompletion tag _ _ => decide (tag < 16384)
  | .setdasa _ => true

end Sys2Proof
end

