-- ==== Sys2Proof/Tests/Slice0.lean ====
section
/-! SUPPORT. Tests: terms that the well-formedness checks refuse, and for every statement with hypotheses a state and operands
that meet them. Expected values are those of the spec's tables or worked out from them by hand. -/

set_option Elab.async false

namespace Sys2Proof.Tests

open Sys2Proof.Machine

/-! ### States and operands -/

/-- Little-endian fields, each with its size, as a payload. -/
def fields (l : List (Nat × Nat)) : List Byte := l.flatMap fun e => leBytes e.1 e.2

/-- A request on a pair with the first sequence number. -/
def req (pair : Nat) (pay : List Byte) : Req :=
  { pair, hdr := ⟨0, 0, 0, 0xFFFF, if pay.length ≤ 448 then 0 else 1, 0, BitVec.ofNat 32 pay.length, 0, 0, 0, 0⟩
    pay, src := 0, tag := 0 }

/-- A module that is READY, with id 5. -/
def ready : State :=
  { State.reset with
    power := { State.reset.power with resetHigh := true }
    boot := { Boot.reset .powerOn with phase := .ready, checked := true, pcieDone := true }
    ident := { Ident.reset with moduleId := 5 } }

/-- A partition with the lowest 64 segments: 16 for mailboxes, 16 of staging, 16 of tiles, 16 of control. -/
def part (st : PState) : Partition :=
  { Partition.unbound with
    state := st, segs := List.range 64, runs := [(0, 16, 0), (16, 16, 1), (32, 16, 2), (48, 16, 4)]
    frames := (List.range 16).map fun k => (k, 1), pairs := [1], linkWeight := 1, peers := [(0, 0xFFFE)] }

/-- A pair of partition 0. -/
def pairOf (segs : List Nat) : Pair :=
  { Pair.reset with bound := true, part := some 0, geom := ⟨3, 3, 1, 1, 0⟩, segs }

/-- A READY module whose partition 0, with pair 1, its peer pair and stands 0 and 1, is `p`. -/
def serving (p : Partition) : State :=
  { ready with
    parts := ready.parts.set 0 p
    pairs := (ready.pairs.set 1 (pairOf (List.range 5))).set 64 (pairOf ((List.range 5).map (· + 5)))
    stands := ready.stands.map fun x => if x.logical == some 0 || x.logical == some 1 then { x with part := some 0 } else x }

/-- `Accepted` as a Bool, so that one decision covers many commands. -/
def accepted (c : Code) (r : Req) (s : State) : Bool := decide (Accepted c r s)

theorem accepted_iff (c : Code) (r : Req) (s : State) : accepted c r s = true ↔ Accepted c r s := decide_eq_true_iff

/-! ### Well-formedness -/

def frame (k : FrameKind) : Frame :=
  { kind := k, dest := 5, src := 7, flowSeq := 0, hops := 0, dstPart := 0, srcPart := 0, address := 0, length := 0, tag := 0,
    data := [], linkSeq := 0 }

/-- One ill-formed command for each check. -/
theorem test_ill_formed_refused :
    ([.nop (req 96 []), .nop { req 0 [] with pay := [1] }, .peerFetch (req 1 []),
      .mboxWrite 0 (frame .mboxRead), .mboxWrite 0 { frame .mboxWrite with hops := 8 },
      .mboxWrite 16 (frame .mboxWrite), .blazeUp 0 (frame .blaze), .hello ⟨0, 0⟩ 1 16 4, .hello ⟨0, 0⟩ 1 0 5,
      .coreRetire 8 [] [], .doorbell 64 0, .fencedCommandStart 96, .imgCplHeadWrite 64 0, .pendingRecordPost 96,
      .sbLcCountRead true 0, .sbLcCountRead true 5, .pwrMeasRead 5, .gateSwitchArm 0 0, .gateSwitchCancel 0 0x80000000,
      .gateBankSwitch 16, .registerWrite .sideband 2 0, .registerWrite (.slot 96) 0 0, .registerWrite (.page0 33) 0 0,
      .warmupEnd 32, .standTaskComplete 64, .engineFault (.traversal 8), .engineFault (.tally 2), .engineFault (.lane 16),
      .tallyFault 2, .unitSelftestDone (.stand 64) true, .landingUe 6144 0 true, .segmentZeroed 6144,
      .patrolScrub 351561600 .clean, .channelRetire 128 true, .channelCopyComplete 128, .thermalSample [] 0 0 0,
      .hostWindowWrite 33 0 0 [], .hostWindowRead 0 1 0 4, .functionLevelReset 33, .laneRetire 0 4, .retire ⟨16, 0⟩ 0,
      .creditReturn 0 0 3 0 0, .configurationSpaceWrite (.numVFs 33), .pcieLinkUp 64 2, .hostCompletion 16384 true []]
      : List Instr).all (fun i => !i.wellFormed) = true := by decide

/-- Commands at the ends of their ranges. -/
theorem test_well_formed_taken :
    ([.nop (req 95 []), .peerFetch (req 64 []), .mboxWrite 15 { frame .mboxWrite with hops := 7 }, .coreRetire 7 [] [],
      .doorbell 63 0, .sbLcCountRead true 4, .gateSwitchArm 15 0x80000000, .registerWrite .sideband 0xFFFC 0,
      .standTaskComplete 63, .engineFault (.lane 15), .landingUe 6143 0 true, .patrolScrub 351561599 .clean,
      .hostWindowRead 32 2 0 4, .creditReturn 15 0 2 7 2047, .hostCompletion 16383 true []] : List Instr).all
      Instr.wellFormed = true := by decide

/-! ### The queue, the supply, resets -/

theorem witness_StepRunsFrontCommand :
    { ready with pending := [.powerLoss, .flashRead] }.pending = .powerLoss :: [.flashRead] := rfl

theorem witness_IdleStepIsOneCount :
    (State.reset.pending = [] ∧ State.reset.boot.phase = .held) ∧
    ready.pending = [] ∧ ¬(ready.boot.phase = .off ∨ ready.boot.phase = .held ∨ ready.power.railTripped = true) := by decide

/-- A module whose core rail heat has turned off (15 R400). -/
def tripped : State := { ready with power := { ready.power with railTripped := true } }

theorem witness_CommandsComplete :
    ready.power.railTripped = false ∧
    (tripped.power.railTripped = true ∧ (∀ x, Instr.flashRead ≠ .powerOn x) ∧ Instr.flashRead ≠ .powerLoss) := by
  refine ⟨rfl, rfl, ?_, ?_⟩ <;> intros <;> nofun

/-- A module without power, one with an erase in progress. -/
def noPower : State := { ready with power := { ready.power with inputOn := false } }
def erasing : State := { ready with flash := { ready.flash with op := some (.erase, 0), busy := true } }

theorem witness_SupplyOnAndOff :
    ready.power.inputOn = true ∧ noPower.power.inputOn = false ∧
    (∀ a, ready.flash.op ≠ some (.program, a) ∧ ready.flash.op ≠ some (.erase, a)) ∧
    (erasing.power.inputOn = true ∧ erasing.flash.op = some (.erase, 0) ∧ (0 < 0 ∨ 0 + 65536 ≤ 65536)) := by
  refine ⟨rfl, rfl, fun a => ⟨nofun, nofun⟩, rfl, rfl, ?_⟩
  decide

/-- A module that is about to reset after a transition, and one with five cores. -/
def scrapped : State := { ready with sec := { ready.sec with transition := some (some 0) }, lc := 10000000 }
def fiveCores : State := { ready with boot := { ready.boot with coreMask := 0x1F } }

theorem witness_Resets :
    (ready.power.railTripped = false ∧ ready.power.inputOn = true ∧ ready.power.pwrgd = true ∧ 10000 ≤ 10000) ∧
    9999 < 10000 ∧ ready.released = true ∧
    (scrapped.sec.transition = some (some 0) ∧ 0 + 10000000 ≤ scrapped.now) ∧
    (4 < 8 ∧ fiveCores.released = true ∧ fiveCores.boot.coreMask.getLsbD 4 = true ∧
      (List.range 8).countP ((withoutCore fiveCores.boot.coreMask 4).getLsbD ·) < 5) := by decide

theorem witness_CoreRetired :
    ready.power.railTripped = false ∧ 7 < 8 ∧ ready.released = true ∧ ready.boot.coreMask.getLsbD 7 = true ∧
    5 ≤ (List.range 8).countP ((withoutCore ready.boot.coreMask 7).getLsbD ·) ∧ 0 ≠ 7 := by decide

theorem witness_ResetRelease :
    State.reset.power.railTripped = false ∧ State.reset.power.inputOn = true ∧ State.reset.power.pwrgd = true ∧
    State.reset.boot.phase = .held ∧ State.reset.flash.busy = false ∧
    (let s := { State.reset with flash := { State.reset.flash with busy := true, op := some (.erase, 0) } }
     s.boot.phase = .held ∧ s.flash.busy = true) := by decide

/-- A module in its wipe, before and after detection. -/
def wiping (done : Bool) : State := { ready with boot := { ready.boot with phase := .wiping, pcieDone := done } }

theorem witness_DetectionAndReady :
    ((wiping false).power.railTripped = false ∧ (wiping false).boot.phase = .wiping ∧ (wiping false).boot.pcieDone = false) ∧
    ((wiping true).boot.phase = .wiping ∧ (wiping true).boot.pcieDone = true ∧ (wiping true).sec.record = none) := by decide

/-- A boot that waits for an id. -/
def waiting : State := { ready with boot := { ready.boot with phase := .waitId } }

theorem witness_ModuleIdentityWrites :
    (ready.power.railTripped = false ∧ ready.power.inputOn = true ∧ ready.boot.phase ≠ .waitId) ∧
    (waiting.boot.phase = .waitId ∧ (7 : W32).toNat % 2 ^ 16 ≠ 0xFFFF ∧ storedRecord waiting = none) ∧
    (ready.released = true ∧ 600 ≤ (600 : W32).toNat % 2 ^ 11 ∧ (1200 : W32).toNat % 2 ^ 11 ≤ 1200 ∧
      1200 < (1201 : W32).toNat % 2 ^ 11) := by decide +kernel

/-! ### Registers, rings, records -/

theorem witness_SideBandReads :
    (ready.power.railTripped = false ∧ ready.power.inputOn = true ∧ ready.released = true ∧ 4 ≤ 4 ∧ 3 < 4) ∧
    State.reset.released = false := by decide +kernel

/-- Port 4 with a switch of bank 1 pending at count 1,000, and the same port once that count is there. -/
def gatePort : Port :=
  { Port.reset with gates := [(64, 0xFFFFFFFFFFFFFFFF)], gateBase := 1000, pendCount := 0, pending := true }
def gated (now : Nat) : State := { ready with ports := ready.ports.set 4 gatePort, lc := BitVec.ofNat 64 now }

theorem witness_GateSwitch :
    ((gated 0).power.railTripped = false ∧ (gated 0).power.inputOn = true ∧ (gated 0).released = true ∧
      (gated 0).ident.bridge = false) ∧
    switchOk (gated 0) gatePort = true ∧
    ((1 : Nat) ≤ 1000 ∧ gatePort.gateBase.toNat < (gated 1).now + 1000 ∧ switchOk (gated 1) gatePort = false) ∧
    (((gated 1000).port 4).pending = true ∧ ((gated 1000).port 4).gateBase.toNat ≤ (gated 1000).now ∧
      ((gated 1000).port 4).busyUntil ≤ (gated 1000).now) ∧
    (ready.port 4).pending = false := by decide +kernel

/-- A module with a flash address. -/
def flashAt (a : W32) (busy : Bool) : State := { ready with flash := { ready.flash with addr := a, busy } }
/-- A module with a flash operation in progress. -/
def flashOp (op : FlashOp) : State := { ready with flash := { ready.flash with busy := true, op := some (op, 0x10000) } }

theorem witness_FlashOperations :
    ((flashAt 0x0EFF0000 false).power.railTripped = false ∧ (flashAt 0x0EFF0000 false).power.inputOn = true ∧
      (flashAt 0x0EFF0000 false).flash.addr.toNat % 65536 = 0 ∧ (flashAt 0x0EFF0000 false).flash.addr.toNat < 0x0F000000) ∧
    0x0F000000 ≤ (flashAt 0x0F000000 false).flash.addr.toNat ∧
    ((flashAt 4096 true).flash.busy = true ∧ (flashAt 4096 true).flash.addr.toNat < 0x0F000000) ∧
    ((flashAt 4095 false).flash.addr.toNat % 4096 ≠ 0 ∧ (flashAt 4096 false).flash.addr.toNat % 65536 ≠ 0) ∧
    ([FlashOp.read, .program, .erase].all fun op => (flashOp op).flash.op == some (op, 0x10000) &&
      (flashOp op).boot.phase != .booting && Mem.wf 0xFF (flashOp op).flash.mem && Mem.wf 0 (flashOp op).flash.buf &&
      !(flashOp op).flash.tainted) = true := by decide +kernel

theorem witness_RegisterWrites :
    (ready.power.railTripped = false ∧ ready.power.inputOn = true ∧ ready.released = true ∧ ready.ident.bridge = false) ∧
    0x008 ∈ [0x008, 0x00C, 0x014, 0x018, 0x800, 0x804, 0x810, 0x814] ∧ 15 < 16 := by decide +kernel

/-- A module whose pair 1 has taken all of a ring of 8 requests, and has posted 3 records. -/
def ringFull : State :=
  { serving (part .bound) with
    pairs := (serving (part .bound)).pairs.set 1
      { pairOf (List.range 5) with reqTail := 10, reqHead := 2, cplTail := 3, cplHead := 0 } }

theorem witness_IgnoredIndexWrites :
    (ringFull.power.railTripped = false ∧ 1 < 64 ∧ (ringFull.pair 2).bound = false ∧ (ringFull.pair 1).bound = true) ∧
    2 ^ (ringFull.pair 1).geom.reqLog2 < (((11 : W32).setWidth 16 : W16) - (ringFull.pair 1).reqHead).toNat ∧
    ((((9 : W32).setWidth 16 : W16) - (ringFull.pair 1).reqHead).toNat <
      ((ringFull.pair 1).reqTail - (ringFull.pair 1).reqHead).toNat) ∧
    ((ringFull.pair 1).cplTail - (ringFull.pair 1).cplHead).toNat <
      (((4 : W32).setWidth 16 : W16) - (ringFull.pair 1).cplHead).toNat := by decide +kernel

def notReady : State := { ringFull with boot := { ringFull.boot with phase := .wiping } }

theorem witness_IndexWritesTaken :
    (((3 : W32).setWidth 16 : W16) - (ringFull.pair 1).cplHead).toNat ≤
      ((ringFull.pair 1).cplTail - (ringFull.pair 1).cplHead).toNat ∧
    (((10 : W32).setWidth 16 : W16) - (ringFull.pair 1).reqHead).toNat ≤ 2 ^ (ringFull.pair 1).geom.reqLog2 ∧
    ((ringFull.pair 1).reqTail - (ringFull.pair 1).reqHead).toNat ≤
      (((10 : W32).setWidth 16 : W16) - (ringFull.pair 1).reqHead).toNat ∧
    (notReady.isReady = false ∧ (notReady.pair 1).bound = true) := by decide +kernel

/-- A record without result, request or interrupt. -/
def plainRecord : Record := mkRecord ready 0 false (some 0) .ok 0 0

theorem witness_RecordsPosted :
    (plainRecord.handle = none ∧ plainRecord.owner = none ∧ plainRecord.irq = false ∧ plainRecord.dest = none) ∧
    (ready.pair 1).bound = false ∧
    ((ringFull.pair 1).bound = true ∧ (ringFull.pair 1).waiting = [] ∧ cplFull (ringFull.pair 1) = false) ∧
    ({ pairOf [] with cplTail := 8 }.bound = true ∧ cplFull { pairOf [] with cplTail := 8 } = true) := by decide +kernel

/-- A command of pair 1 whose result waits for room, and one that a fence holds. -/
def roomCmd : Cmd := { mkCmd .moduleQuery none (req 1 []) 4 with roomWait := some (.ok, 0, [1, 2]) }
def roomWaiting : State := { serving (part .bound) with cmds := [roomCmd] }
def withWaiting (ws : List Record) : State :=
  { serving (part .bound) with
    pairs := (serving (part .bound)).pairs.set 1
      { pairOf (List.range 5) with waiting := ws, fenced := [(3, .nop, req 1 [])] } }

theorem witness_RingEvents :
    (((withWaiting [plainRecord]).pair 1).waiting = [plainRecord] ∧ cplFull ((withWaiting [plainRecord]).pair 1) = false) ∧
    ((withWaiting []).pair 1).waiting = [] ∧
    ((withWaiting []).pair 1).fenced = (3, .nop, req 1 []) :: [] ∧
    (roomWaiting.cmd? 4 = some roomCmd ∧ roomCmd.pair < 64 ∧ roomCmd.roomWait = some (.ok, 0, [1, 2]) ∧
      (roomWaiters roomWaiting roomCmd.pair).head?.map (·.ticket) = some 4 ∧
      (allocResult roomWaiting roomCmd.pair 2 true).isSome = true ∧ 2 ≤ resBytes (roomWaiting.pair roomCmd.pair)) := by
  decide +kernel

/-! ### Commands in common -/

/-- Requests with header fields changed: sequence number and FENCE, priority, a digest to check. -/
def fencedReq (seq : W32) : Req := { req 0 [] with hdr := { (req 0 []).hdr with seq, flags := 2 } }
def badPrio : Req := { req 0 [] with hdr := { (req 0 []).hdr with prio := 1 } }
def withDigest : Req := { req 1 [] with hdr := { (req 1 []).hdr with flags := 4, expDigest := 1 } }
def oneBefore : State := { ready with nextId := 1, cmds := [mkCmd .healthRead none (req 0 []) 0] }
def bound : State := serving (part .bound)

theorem witness_CommandsTaken :
    (commandOf (.nop (req 0 [])) = some (.nop, req 0 []) ∧ ready.power.railTripped = false) ∧
    (State.reset.isReady = false ∧ (ready.pair 1).bound = false ∧ 96 ≤ 96) ∧
    (Taken (fencedReq 1) ready ∧ (fencedReq 1).hdr.seq ≠ (ready.pair 0).expSeq) ∧
    (Taken (fencedReq 0) oneBefore ∧ (fencedReq 0).hdr.seq = (oneBefore.pair 0).expSeq ∧
      bit (fencedReq 0).hdr.flags.toNat 1 = true ∧ earlierDone oneBefore 0 oneBefore.nextId = false) := by
  decide +kernel

theorem witness_ChecksInOrder :
    (commandOf (.nop (req 0 [])) = some (.nop, req 0 []) ∧ InTurn (req 0 []) ready ∧
      permitted ready .nop (req 0 []) = true ∧ headerForm ready .nop (req 0 []) = true) ∧
    (InTurn (req 0 []) ready ∧ permitted ready .querySubmit (req 0 []) = false) ∧
    (InTurn badPrio ready ∧ permitted ready .nop badPrio = true ∧ headerForm ready .nop badPrio = false) ∧
    (ready.cmd? 0 = none ∧ Need.pass.form = true ∧ digestOk ready (req 0 []) = true ∧ Need.pass.state = true ∧
      Need.pass.found = true ∧ Need.pass.room = none ∧ { Need.pass with room := some .busy }.room = some .busy) ∧
    (digestOk bound withDigest = false ∧ (bound.pair 1).part = some 0 ∧
      permitted bound .nop withDigest = true ∧ headerForm bound .nop withDigest = true) := by
  decide +kernel

/-- Modules with a command in progress on pair 1 and on peer pair 64. -/
def inProgress (pair : Nat) (live : List ResultPayload) : State :=
  { serving (part .bound) with
    cmds := [mkCmd .nop (some 0) (req pair []) 0]
    pairs := (serving (part .bound)).pairs.set 1 { pairOf (List.range 5) with results := live } }

theorem witness_FinalRecords :
    ((inProgress 1 []).cmd? 0 = some (mkCmd .nop (some 0) (req 1 []) 0) ∧ 1 < 64 ∧
      resBytes ((inProgress 1 []).pair 1) < 65537 ∧ 65536 ≤ resBytes ((inProgress 1 []).pair 1)) ∧
    ((inProgress 64 []).cmd? 0 = some (mkCmd .nop (some 0) (req 64 []) 0) ∧ 64 ≤ 64) ∧
    (allocResult (inProgress 1 []) 1 1 true).isSome = true ∧
    allocResult (inProgress 1 [⟨0, 0, 65536, true⟩]) 1 1 true = none ∧
    ((inProgress 1 []).pair 1).results.length < 65536 := by decide +kernel

/-- The lowest handle and one that names nothing. -/
def withResult : State :=
  { serving (part .bound) with
    pairs := (serving (part .bound)).pairs.set 1 { pairOf (List.range 5) with results := [⟨7, 0, 64, true⟩] } }
def release (hs : List Nat) : Req := req 1 (fields ((2, hs.length) :: (2, 0) :: hs.map fun h => (4, h)))

def modulePart : List Byte := fields [(1, 0xFF), (7, 0)]

theorem witness_MailboxAndQueries :
    (accepted .nop (req 0 []) ready = true ∧ (req 0 []).pay = [] ∧ pairUsable ready (req 0 []) = true) ∧
    (accepted .resultRelease (release [7]) withResult = true ∧ releaseForm (release [7]) = true ∧
      pairUsable withResult (release [7]) = true ∧
      noneUnfinished (releaseHandles (release [7])) (withResult.pair 1).results = true ∧
      allLive (releaseHandles (release [7])) (withResult.pair 1).results = true) ∧
    (accepted .resultRelease (release [7, 7]) withResult = true ∧ releaseForm (release [7, 7]) = true ∧
      noneUnfinished (releaseHandles (release [7, 7])) (withResult.pair 1).results = true ∧
      allLive (releaseHandles (release [7, 7])) (withResult.pair 1).results = false) ∧
    accepted .moduleQuery (req 0 []) ready = true ∧
    (accepted .healthRead (req 0 modulePart) ready = true ∧ 8 ≤ modulePart.length ∧ zeroAt modulePart 1 7 = true ∧
      fld modulePart 0 1 = 0xFF) ∧
    (accepted .partitionStatus (req 1 []) bound = true ∧ (reqPart bound (req 1 [])).state ≠ .unbound) ∧
    accepted .digestRead (req 1 []) bound = true := by
  decide +kernel

/-! ### Settings, security -/

def powerPay : List Byte := fields ([(2, 600), (2, 1), (4, 0)] ++ List.replicate 32 (2, 24))
def mapPay (n : Nat) : List Byte := fields ([(2, 1), (2, 1), (4, 0)] ++ [(1, 0), (1, 0), (2, 511), (2, 5), (1, 63), (1, n)])
def bridgeModule : State := { ready with ident := { ready.ident with bridge := true } }

def reportPay (mode : Nat) : List Byte := fields ([(1, mode), (3, 0), (4, 0)] ++ List.replicate 10 (4, 0))
def certified : State := { ready with sec := { ready.sec with leaf := some 0 } }
def emptyRecord : List Byte := fields ([(4, 0x47464E43), (2, 1), (2, 0), (2, 0), (1, 0), (1, 0), (4, 0x50)] ++ List.replicate 16 (4, 0))
/-- A module in DEPLOYED with a configuration record in flash. -/
def withRecord : State :=
  { ready with fuses := { ready.fuses with lifeCount := 3 }
               flash := { ready.flash with mem := Mem.writeRange 0xFF [] recordAddr emptyRecord } }
def importPay : List Byte := fields [(1, 0), (3, 0), (4, 0x50), (4, 16), (4, 0)] ++ emptyRecord
def provisioning : State := { ready with fuses := { ready.fuses with lifeCount := 2 } }
def newDigest : List Byte := List.replicate 48 0
def packagePay : List Byte := fields [(1, 1), (3, 0), (4, 1876), (4, 16), (4, 0)] ++ fields ([(4, 0x50584643), (2, 1), (2, 1), (8, 0)] ++
  List.replicate 12 (4, 0) ++ [(4, 0x50), (4, 0)]) ++ emptyRecord ++ fields [(4, 0), (4, 0)] ++ List.replicate 1716 0

theorem witness_SettingsAndSecurity :
    (accepted .powerSet (req 0 powerPay) ready = true ∧ powerSetForm powerPay = true) ∧
    (accepted .bridgeMap (req 0 (mapPay 0)) bridgeModule = true ∧ bridgeMapForm bridgeModule (mapPay 0) = true ∧
      (applyMap bridgeModule.bridge.slots (mapEntries (mapPay 0))).length ≤ 512) ∧
    (accepted .attestGet (req 0 (reportPay 2)) certified = true ∧ attestForm (reportPay 2) = true ∧ certified.sec.leaf = some 0) ∧
    (accepted .attestGet (req 0 (reportPay 1)) certified = true ∧ attestForm (reportPay 1) = true ∧ certified.sec.aliasLeaf < 32768) ∧
    (ready.sec.leaf = none ∧ accepted .attestGet (req 0 (reportPay 1)) ready = true) ∧
    (accepted .configExport (req 0 newDigest) withRecord = true ∧ 48 ≤ newDigest.length ∧ allUnbound withRecord = true ∧
      storedRecord withRecord = some emptyRecord) ∧
    (accepted .configImport (req 0 importPay) provisioning = true ∧ allUnbound provisioning = true ∧ 16 ≤ importPay.length ∧
      zeroAt importPay 1 3 = true ∧ fld importPay 8 4 % 8 = 0 ∧ zeroAt importPay 12 4 = true ∧
      fld importPay 8 4 + fld importPay 4 4 ≤ importPay.length ∧ recordForm (importData importPay) = true) ∧
    (accepted .configImport (req 0 packagePay) provisioning = true ∧ fld packagePay 0 1 = 1 ∧
      packageForm (importData packagePay) = true) := by
  decide +kernel

/-- LIFECYCLE_ADVANCE without a token: to PROVISIONING's successor and to DECOMMISSIONED. -/
def advance (target : Nat) : List Byte := fields [(1, target), (3, 0), (4, 0)]

theorem witness_LifecycleTransition :
    (accepted .lifecycleAdvance (req 0 (advance 4)) provisioning = true ∧ 8 ≤ (advance 4).length ∧ fld (advance 4) 0 1 < 5 ∧
      zeroAt (advance 4) 1 3 = true ∧ 8 + fld (advance 4) 4 4 ≤ (advance 4).length ∧ allUnbound provisioning = true ∧
      transitionOf provisioning.life provisioning.fuses.lifeCount 4 = some false ∧ fld (advance 4) 4 4 = 0 ∧
      provisioning.fuses.lifeCount ≤ 16) ∧
    transitionOf ready.life ready.fuses.lifeCount 1 = some true := by
  decide +kernel

/-! ### Partitions and service -/

/-- A binding payload: partition 1 with 2 stands, 40 segments, 8 frames and pair 2. -/
def bindPay (p : Nat) (pair : Nat) : List Byte :=
  fields ([(1, p), (1, 0), (1, 1), (1, 3), (1, 2), (1, 1), (2, 1), (4, 40), (4, 8), (4, 0), (4, 0), (8, 0)] ++
    (List.replicate 5 [(2, 0), (2, 0), (4, 0)]).flatten ++ [(8, 0)] ++
    [(1, pair), (1, 3), (1, 3), (1, 0), (2, 1), (2, 1), (2, 0), (6, 0)] ++
    [(2, 0), (2, 16), (1, 0), (3, 0), (2, 16), (2, 8), (1, 1), (3, 0), (2, 24), (2, 16), (1, 4), (3, 0)] ++ [(2, 0), (2, 0xFFFE)])
/-- A payload that names a partition. -/
def named (p : Nat) : List Byte := fields [(1, p), (7, 0)]

theorem witness_BindAndUnbind :
    (accepted .partitionBind (req 0 (bindPay 31 2)) ready = true ∧ bindForm (bindPay 31 2) false = true ∧
      (ready.part (bindParse (bindPay 31 2)).part).state = .unbound ∧ bindRoom ready (bindParse (bindPay 31 2)) = (none, 0) ∧
      ready.parts.length = 32) ∧
    (accepted .partitionUnbind (req 0 (named 0)) bound = true ∧ partitionForm (named 0) = true ∧ bound.parts.length = 32 ∧
      (bound.part (fld (named 0) 0 1)).state = .bound) := by decide +kernel

theorem witness_PartitionRebind :
    accepted .partitionRebind (req 0 (bindPay 0 1)) bound = true ∧ bindForm (bindPay 0 1) true = true ∧
    rebindPairs bound (bindParse (bindPay 0 1)) = true ∧ rebindState bound (bindParse (bindPay 0 1)) = true ∧
    rebindRoom bound (bindParse (bindPay 0 1)) = (none, 0) := by decide +kernel

def servePay : List Byte := fields [(1, 1), (1, 0), (2, 0), (4, 64), (2, 16), (2, 1), (2, 63), (2, 0)]
def params (ms : Nat) : Serving :=
  { test := false, warmupMs := ms, stepTokens := 64, chunkMax := 16, decodeMax := 1, yarrowShare := 0, since := 0 }
def inService (ms : Nat) : State := serving { part .serving with serve := some (params ms) }
def loaded : State := serving (part .loaded)
def faulted : State := serving (part .faulted)

theorem witness_Service :
    (loaded.power.railTripped = false ∧ accepted .serveStart (req 1 servePay) loaded = true ∧ serveForm servePay = true ∧
      (reqPart loaded (req 1 servePay)).state = .loaded) ∧
    (((inService 0).part 0).serve = some (params 0) ∧ (params 0).since + (params 0).warmupMs * 1000000 ≤ (inService 0).now) ∧
    (inService 1).now < (params 1).since + (params 1).warmupMs * 1000000 ∧
    (accepted .serveStop (req 1 []) (inService 0) = true ∧ (reqPart (inService 0) (req 1 [])).state = .serving ∧
      ∀ g ∈ (reqPart (inService 0) (req 1 [])).globals, g.released = none) := by decide +kernel

theorem witness_PartitionRecover :
    accepted .partitionRecover (req 1 (named 0)) faulted = true ∧ partitionForm (named 0) = true ∧ faulted.parts.length = 32 ∧
    namedPart (named 0) = pairPart faulted (req 1 (named 0)) ∧ (reqPart faulted (req 1 (named 0))).state = .faulted := by
  decide +kernel

/-! ### Content -/

def residence : Residence := ⟨2, 0, 0, 0, 1, 4096, false, false⟩
def model (id kind : Nat) : Model :=
  { id, kind, tokenizer := 0, layers := 1, kvHeads := 1, headDim := 32, maxPos := 4096, outDim := 32, tensors := [], groups := []
    passes := [], frames := [[[], [], [], [], []]], dataOffset := 0, rowLimit := 64, res := residence }
def tokenizer : Tokenizer :=
  { id := 0, algo := 0, norm := 0, lower := false, metaSpace := false, byteFallback := false, bos := none, eos := none, unk := none
    pad := none, vocab := [[97]], merges := [], unkScore := 0, scores := [], classes := [(0, 0)], soloMask := 0, dropMask := 0
    join := none, maxWordChars := 64, contPrefix := [], byteMap := [], res := residence }
def grammar : Grammar := { id := 7, tokenizer := 0, vocab := 1, start := 0, states := [], res := residence }
def store : Store := { id := 0, recordCount := 0, recordOffset := 64, textOffset := 64, textLength := 0, res := residence }
def component (dim : Nat) : Component := ⟨16, 0, dim, 0, true⟩
/-- A table of 16 rows of 32 elements whose one shard this module owns; `lost` names another owner. -/
def table (owner : Nat) : Table :=
  { id := 0, compose := 0, hash := 0, combine := 0, compA := component 32, compB := component 0
    shards := [⟨0, owner, 0xFFFF, 0, 32, 0, 16⟩], sources := [5], dataOffset := 64, scaleOffset := 0, dataLen := 512, applied := 0, contribs := []
    ends := [], sentEnds := [], sentOcc := [], sending := [], reports := [], lostSources := [], degraded := false, damagedRows := [], res := residence }
def index : Index :=
  { id := 0, isMap := false, metricL2 := true, dim := 32, subSpaces := 4, degree := 32, shardCount := 1, shardIndex := 0
    entryEf := 1, idBase := 0, nativeCount := 1, seeds := 0, nodes := [⟨9, [0, 0, 0, 0], [], false, false⟩], entry := [(0, [])]
    codebook := [], shardMap := [(5, 0xFFFF)], gen := 0, bitmaps := [(3, [true])], seed := [], planting := none
    seedFrames := [], workFrames := [], plantFrames := [], imageNodes := 1, adjOffset := 64, stumpOffset := 64, bitRes := [(3, residence)], res := residence }

/-- A serving partition that holds one object of each kind. -/
def full : Partition :=
  { part .serving with
    models := [model 0 0, model 2 2], stores := [store], tokenizers := [tokenizer], grammars := [grammar], tables := [table 5]
    indexes := [index] }
def busy : State := serving full
/-- The same without models, so that nothing uses the tokenizer. -/
def noModels : State := serving { full with models := [], grammars := [] }

/-- Load payloads: of a host object at address 0, of T1, and of a peer. -/
def load16 (head : List (Nat × Nat)) (len : Nat) : List Byte := fields (head ++ [(4, len), (8, 0)])
def load24 (head : List (Nat × Nat)) (len addr : Nat) : List Byte := fields (head ++ [(8, len), (8, addr)])
def modelLoad (space addr : Nat) : List Byte := load24 [(1, 15), (1, 0), (1, space), (1, 0), (2, 0), (2, 0)] 4096 addr
def bitmapLoad : List Byte := load24 [(1, 0), (1, 1), (1, 2), (1, 63), (4, 0)] 64 0

/-- What every load has to meet, but for its room. -/
def loads (c : Code) (l : List Byte) (s : State) : Bool :=
  accepted c (req 1 l) s && [Code.modelSwapIn, .indexLoad, .tableLoad, .tokenizerLoad, .grammarLoad].contains c && loadForm c l &&
  loadState (reqPart s (req 1 l)).state && replaceOk s 0 c l && loadFound s 0 c l && (loadNeed s c (req 1 l)).room == none &&
  !switchPending s (pairPart s (req 1 l)) s.nextId

theorem witness_ContentLoadedAndRemoved_loads :
    loads .modelSwapIn (modelLoad 2 0) busy = true ∧ loads .indexLoad bitmapLoad busy = true ∧
    loads .tableLoad (load24 [(1, 63), (1, 2), (6, 0)] 128 0) busy = true ∧
    loads .tokenizerLoad (load16 [(1, 7), (1, 2), (2, 0)] 128) busy = true ∧
    loads .grammarLoad (load16 [(2, 255), (1, 0), (1, 2)] 64) busy = true ∧
    (loads .modelSwapIn (modelLoad 1 0) busy = true ∧ (loadSrc .modelSwapIn (modelLoad 1 0)).space = 1 ∧
      t1Ok (busy.part 0).frames 0 4096 = true) ∧
    (loads .modelSwapIn (modelLoad 1 0x100000) busy = true ∧ t1Ok (busy.part 0).frames 0x100000 4096 = false) := by
  decide +kernel

def unload (a b c : Nat) : List Byte := fields [(1, a), (1, b), (1, c), (5, 0)]

theorem witness_ContentLoadedAndRemoved_removals :
    (busy.parts.length = 32 ∧ pairPart busy (req 1 []) = some 0 ∧ unloadState (busy.part 0).state = true) ∧
    (accepted .modelSwapOut (req 1 (unload 2 0 0)) busy = true ∧ (findModel busy 0 2).isSome = true ∧ inFlight busy 0 = []) ∧
    (accepted .modelSwapOut (req 1 (unload 0 1 0)) busy = true ∧ (findStore busy 0 0).isSome = true) ∧
    (accepted .indexUnload (req 1 (unload 0 0 0)) busy = true ∧ findIndex busy 0 0 = some index ∧ indexBusy busy 0 0 = false) ∧
    (accepted .indexUnload (req 1 (unload 0 1 3)) busy = true ∧ index.bitmaps.any (fun e => e.1 == 3) = true) ∧
    (accepted .contentUnload (req 1 (unload 0 0 0)) noModels = true ∧
      unloadBusy noModels 0 0 0 = false ∧ (findTokenizer noModels 0 0).isSome = true) ∧
    (accepted .contentUnload (req 1 (unload 1 7 0)) busy = true ∧ unloadBusy busy 0 1 7 = false ∧
      (findGrammar busy 0 7).isSome = true) ∧
    (accepted .contentUnload (req 1 (unload 2 0 0)) noModels = true ∧ unloadBusy noModels 0 2 0 = false ∧
      (findTable noModels 0 0).isSome = true) := by decide +kernel

/-! ### Requests -/

def plainOptions : List (Nat × Nat) := [(2, 0xFFFF), (2, 0), (1, 0), (1, 0), (2, 0), (16, 0)]
def block : List (Nat × Nat) := [(1, 0), (1, 0), (2, 1), (2, 1), (2, 1), (4, 0), (4, 0), (4, 0), (1, 0), (3, 0), (8, 0)]
def queryPay : List Byte :=
  fields ([(1, 0), (1, 0), (1, 0xFF), (1, 2), (1, 0), (1, 0), (2, 0), (2, 1), (2, 0), (4, 16), (4, 1), (4, 0), (8, 0),
    (4, 0x3F800000), (4, 0x3F800000), (2, 0), (2, 0), (2, 0), (2, 0), (4, 0x68), (4, 0x80), (4, 1), (4, 0), (4, 0), (4, 0)] ++
    block ++ plainOptions) ++ [97]
def generatePay : List Byte :=
  fields [(1, 2), (1, 0), (2, 0), (4, 1), (4, 0), (4, 0x3F800000), (4, 0x3F800000), (2, 0), (2, 0), (8, 0), (4, 0x30), (4, 1),
    (4, 0), (4, 0)] ++ [97]
def damagedBusy : State :=
  serving { full with
    stores := [{ store with res := { residence with damaged := true } }]
    models := full.models.map fun m => { m with res := { residence with damaged := true } } }

/-- A request of the low class that is in DECODE. -/
def decoding : Ctx :=
  { id := 0, ticket := 0, pair := 1, seq := 0, irq := false, part := 0, yarrow := true, adm := 0, state := .decode, stage := .none
    pausedFrom := .decode, isQuery := false, pay := generatePay, generator := 2
    sampling := ⟨0, 0x3F800000, 0x3F800000, 0, false⟩, opts := TextOptions.plain, maxNew := 1, streamBytes := 0, queryTokens := []
    encTokens := [], vector := [], entries := [], missing := 0, passages := [], pairTokens := [], scores := [], skipped := 0
    nanSeen := false, packed := [], prompt := [0], taken := 1, output := [], u := [], gstate := 0, text := [], reported := 0
    result := none, textOffset := 0, kvPages := [], spilled := none, pauseHeld := none, cancelTaken := false, cancelMark := none
    ending := none, isOver := false, replays := 0, needReplay := false }
def withCtx (c : Ctx) : State := { busy with nextId := 1, ctxs := [c] }
def onCtx (pay : List Byte) (ctx : W16) : Req := { req 1 pay with hdr := { (req 1 pay).hdr with context := ctx } }
def pausePay (spill : Bool) : List Byte := fields (if spill then [(1, 1), (1, 2), (6, 0), (8, 4096), (8, 4096)] else [(8, 0), (16, 0)])

theorem witness_RequestsAndControls_requests :
    ((reqPart busy (req 1 queryPay)).state = .serving ∧ freeCtxId busy = some 0) ∧
    (accepted .querySubmit (req 1 queryPay) busy = true ∧ queryForm queryPay = true ∧ queryFits busy 0 queryPay = true ∧
      queryFound busy 0 queryPay = true ∧
      namesDamaged busy 0 [0, 2] (some 0) (optionsParse (queryPay.drop (fld queryPay 0x30 4))).grammar = false) ∧
    (accepted .querySubmit (req 1 queryPay) damagedBusy = true ∧ queryFound damagedBusy 0 queryPay = true ∧
      queryFits damagedBusy 0 queryPay = true ∧
      namesDamaged damagedBusy 0 [0, 2] (some 0) (optionsParse (queryPay.drop (fld queryPay 0x30 4))).grammar = true) ∧
    (accepted .generateSubmit (req 1 generatePay) busy = true ∧ generateForm generatePay = true ∧
      generateFits busy 0 generatePay = true ∧ generateFound busy 0 generatePay = true ∧
      namesDamaged busy 0 [fld generatePay 0 1] none (generateOptions generatePay).grammar = false) ∧
    (accepted .generateSubmit (req 1 generatePay) damagedBusy = true ∧ generateFits damagedBusy 0 generatePay = true ∧
      namesDamaged damagedBusy 0 [fld generatePay 0 1] none (generateOptions generatePay).grammar = true) := by decide +kernel

theorem witness_RequestsAndControls_controls :
    (controlState (reqPart (withCtx decoding) (onCtx [] 0)).state = true ∧ namedCtx (withCtx decoding) (onCtx [] 0) = some decoding ∧
      accepted .requestCancel (onCtx [] 0) (withCtx decoding) = true ∧ decoding.cancelTaken = false) ∧
    (accepted .requestPause (onCtx (pausePay false) 0) (withCtx decoding) = true ∧ pauseForm (pausePay false) = true ∧
      decoding.yarrow = true ∧ decoding.state ≠ .paused ∧ decoding.pauseHeld = none ∧
      controlPending (withCtx decoding) decoding .requestPause = false) ∧
    (accepted .requestPause (onCtx (pausePay true) 0) (withCtx decoding) = true ∧ pauseForm (pausePay true) = true) ∧
    (accepted .requestResume (onCtx [] 0) (withCtx { decoding with state := .paused }) = true ∧
      controlPending (withCtx { decoding with state := .paused }) { decoding with state := .paused } .requestResume = false) ∧
    (namedCtx busy (onCtx [] 1) = none ∧ accepted .requestCancel (onCtx [] 1) busy = true ∧
      accepted .requestPause (onCtx (pausePay false) 1) busy = true ∧ accepted .requestResume (onCtx [] 1) busy = true) := by
  decide +kernel

/-- The lowest `n` contexts are taken. -/
def takenUpTo (n : Nat) : State := { busy with nextId := n, ctxs := (List.range n).map fun k => { decoding with id := k, ticket := k } }

theorem firstFrom_found (p : Nat → Bool) (step : Nat) : ∀ fuel n k, firstFrom p fuel n step = some k → p k = true := by
  intro fuel
  induction fuel with
  | zero => intro n k h; simp [firstFrom] at h
  | succ f ih =>
    intro n k h
    simp only [firstFrom] at h
    split at h
    · cases h; assumption
    · exact ih _ _ h

theorem freeCtxId_none (s : State) (h : ∀ n, n < 4096 → ∃ c ∈ s.ctxs, c.id = n) : freeCtxId s = none := by
  unfold freeCtxId
  cases e : firstFrom (fun n => s.ctxs.all fun c => c.id != n) (s.ctxs.length + 1) 0 1 with
  | none => rfl
  | some k =>
    have hk := firstFrom_found _ _ _ _ _ e
    rw [Option.filter_some, if_neg]
    intro lt
    obtain ⟨c, hc, hid⟩ := h k (by simpa using lt)
    have := List.all_eq_true.mp hk c hc
    simp [hid] at this

theorem takenUpTo_full (k : Nat) (hk : 4096 ≤ k) : freeCtxId (takenUpTo k) = none :=
  freeCtxId_none _ fun n hn =>
    ⟨{ decoding with id := n, ticket := n }, List.mem_map.mpr ⟨n, List.mem_range.mpr (Nat.lt_of_lt_of_le hn hk), rfl⟩, rfl⟩

theorem witness_RequestsAndControls_full : freeCtxId (takenUpTo 4096) = none := takenUpTo_full 4096 (Nat.le_refl _)

/-! ### Engines -/

def tallyPay : List Byte :=
  fields [(1, 0), (1, 1), (1, 0), (1, 0), (2, 1), (2, 0), (4, 1), (4, 1), (4, 32), (4, 0), (8, 0)] ++ [0, 0]
def tokPay : List Byte := fields [(1, 0), (1, 0), (2, 1), (4, 1), (4, 24), (4, 0), (4, 0), (4, 1)] ++ [97]
def detokPay (options : Bool) : List Byte :=
  fields ([(1, 0), (1, if options then 1 else 0), (2, 0), (4, 1), (4, if options then 24 else 0), (4, 0), (4, 0)] ++
    if options then [(4, 0), (2, 7), (2, 0), (1, 0), (1, 0), (2, 0), (16, 0)] else [])
def peerGatherPay : List Byte := fields [(1, 0), (1, 0), (2, 0), (4, 0), (4, 1), (4, 0), (8, 15)]

theorem witness_EngineCommands :
    engineState busy (req 1 []) = true ∧
    (accepted .tallySubmit (req 1 tallyPay) busy = true ∧ tallyForm tallyPay = true ∧
      tallySize tallyPay ≤ resBytes (busy.pair 1)) ∧
    (accepted .tokenizeSubmit (req 1 tokPay) busy = true ∧ tokForm tokPay = true ∧ findTokenizer busy 0 0 = some tokenizer) ∧
    (accepted .detokenizeSubmit (req 1 (detokPay false)) busy = true ∧ detokForm (detokPay false) = true ∧
      detokFits busy 0 (detokPay false) = true ∧ (detokOptions (detokPay false)).grammar = none) ∧
    (accepted .detokenizeSubmit (req 1 (detokPay true)) busy = true ∧ detokForm (detokPay true) = true ∧
      detokFits busy 0 (detokPay true) = true ∧ (detokOptions (detokPay true)).grammar = some 7 ∧
      findGrammar busy 0 7 = some grammar) ∧
    (engineState busy (req 64 []) = true ∧ accepted .peerGather (req 64 peerGatherPay) busy = true ∧ 16 ≤ peerGatherPay.length ∧
      zeroAt peerGatherPay 2 2 = true ∧ zeroAt peerGatherPay 12 4 = true ∧ 16 + 8 * fld peerGatherPay 8 4 ≤ peerGatherPay.length ∧
      findTable busy 0 (fld peerGatherPay 0 1) = some (table 5) ∧
      ∀ x ∈ peerItems peerGatherPay, x.2.1 < (table 5).shards.length ∧
        (tableShard (table 5) x.2.1).heldBy busy.myId.toNat = true ∧ (tableShard (table 5) x.2.1).comp = x.1 ∧
        (tableShard (table 5) x.2.1).rowFirst ≤ x.2.2 ∧
        x.2.2 < (tableShard (table 5) x.2.1).rowFirst + (tableShard (table 5) x.2.1).rowCount) ∧
    (busy.units.map (·.unit)).Nodup := by decide +kernel

def gatherPay (n : Nat) : List Byte :=
  fields ([(1, 0), (1, 0), (1, 1), (1, 0), (4, n), (4, 0), (4, 0), (4, 32), (4, 0), (4, 0), (4, 0)] ++ List.replicate n (8, 15))
def updatePay (n flag : Nat) : List Byte :=
  fields ([(1, 0), (1, flag), (2, 0), (4, 1), (4, n), (4, 0), (4, 32), (4, 32 + 8 * n), (8, 0)] ++ List.replicate n (8, 15) ++
    List.replicate (32 * n) (4, 0))
/-- The table's shard is another module's, its only source another module, or its partition has no room for staged rows. -/
def elsewhere : State := serving { full with tables := [table 7] }
def otherSource : State := serving { full with tables := [{ table 5 with sources := [7] }] }
def noStaging : State := serving { full with runs := [(0, 64, 0)] }

theorem witness_TableCommands :
    (findTable busy 0 (fld (gatherPay 1) 0 1) = some (table 5) ∧ accepted .gatherSubmit (req 1 (gatherPay 1)) busy = true ∧
      gatherForm (gatherPay 1) = true ∧ (gatherIdx (gatherPay 1)).all (indexOkFor (table 5)) = true ∧
      submitParts (reqPart busy (req 1 [])) (table 5) (gatherPay 1) = some [gatherIdx (gatherPay 1)] ∧
      ∀ x ∈ gatherItems (table 5) (gatherIdx (gatherPay 1)), (localShard busy (table 5) x.2.1).isSome = true) ∧
    (findTable elsewhere 0 0 = some (table 7) ∧ accepted .gatherSubmit (req 1 (gatherPay 1)) elsewhere = true ∧
      (gatherBegin (came .gatherSubmit (req 1 (gatherPay 1)) elsewhere) 0 0 (table 7) 0 (slotFmt (gatherPay 1))
        [gatherIdx (gatherPay 1)]).2 = false) ∧
    (findTable noStaging 0 0 = some (table 5) ∧ accepted .gatherSubmit (req 1 (gatherPay 1)) noStaging = true ∧
      submitParts (reqPart noStaging (req 1 [])) (table 5) (gatherPay 1) = none) ∧
    (accepted .updateSubmit (req 1 (updatePay 1 0)) busy = true ∧ updForm (updatePay 1 0) = true ∧
      (tableComps (table 5)).all (fun c => ((table 5).component c).updatable) = true ∧
      fld (updatePay 1 0) 0x14 4 + 4 * tableDim (table 5) * updOcc (updatePay 1 0) ≤ (updatePay 1 0).length ∧
      (fldList (updatePay 1 0) (fld (updatePay 1 0) 0x10 4) 8 (updOcc (updatePay 1 0))).all (indexOkFor (table 5)) = true ∧
      appliedHere busy (table 5) < updEpoch (updatePay 1 0) ∧ updEpoch (updatePay 1 0) ∉ (table 5).sentEnds ∧
      busy.myId.toNat ∈ (table 5).sources) ∧
    (accepted .updateSubmit (req 1 (updatePay 0 1)) otherSource = true ∧ updForm (updatePay 0 1) = true ∧
      otherSource.myId.toNat ∉ [7] ∧ updEnd (updatePay 0 1) = true ∧
      holdsShard { table 5 with sources := [7] } otherSource.myId.toNat = true) := by decide +kernel

def searchPay : List Byte := fields ([(1, 0), (1, 0), (2, 1), (4, 40)] ++ block ++ [(64, 0)])
def peerSearchPay : List Byte := fields ([(1, 0), (1, 0), (2, 1), (4, 0)] ++ block ++ [(64, 0)])

theorem witness_SearchCommands :
    (findIndex busy 0 0 = some index ∧ accepted .searchSubmit (req 1 searchPay) busy = true ∧ searchForm searchPay = true ∧
      searchFits searchPay index = true ∧ homeTerms index (blockParse searchPay 8) = true ∧
      ownShard index = some index.shardIndex ∧ shardsWanted index (blockParse searchPay 8) = [index.shardIndex] ∧
      index.res.damaged = false) ∧
    (engineState busy (req 64 []) = true ∧ accepted .peerSearch (req 64 peerSearchPay) busy = true ∧
      0x28 ≤ peerSearchPay.length ∧ 1 ≤ fld peerSearchPay 2 2 ∧ zeroAt peerSearchPay 4 4 = true ∧
      blockForm peerSearchPay 8 = true ∧ 0x28 + 2 * index.dim * fld peerSearchPay 2 2 ≤ peerSearchPay.length ∧
      (queriesAt peerSearchPay 0x28 (fld peerSearchPay 2 2) index.dim).all (fun q => q.all finite16) = true ∧
      ownShard index = some (fld peerSearchPay 1 1) ∧ termsLoaded index (blockParse peerSearchPay 8) = true) := by decide +kernel

def insertPay : List Byte := fields [(1, 0), (1, 1), (2, 1), (4, 16), (4, 32), (4, 0), (8, 1), (8, 0), (4, 0)]
def deletePay : List Byte := fields [(1, 0), (3, 0), (4, 1), (8, noItem)]
def plantPay : List Byte := fields [(1, 0), (1, 0), (2, 4096), (4, 0)]
def planted (done : Bool) : Index := { index with planting := some ⟨3, 4096, [], 0, [], [], done⟩ }

theorem witness_ShardChanges :
    (changeState busy (req 1 []) = true ∧ findIndex busy 0 0 = some index ∧ index.isMap = false) ∧
    (accepted .searchInsert (req 1 insertPay) busy = true ∧ insertForm insertPay = true ∧ insertFits insertPay index = true) ∧
    (accepted .searchDelete (req 1 deletePay) busy = true ∧ 8 ≤ deletePay.length ∧ zeroAt deletePay 1 3 = true ∧
      fld deletePay 4 4 = 1 ∧ 8 + 8 * fld deletePay 4 4 ≤ deletePay.length ∧ ∀ n ∈ deleteIds deletePay, n ≤ noItem) ∧
    (accepted .plantStart (req 1 plantPay) busy = true ∧ 8 ≤ plantPay.length ∧ zeroAt plantPay 1 1 = true ∧
      zeroAt plantPay 4 4 = true ∧ fld plantPay 2 2 ≤ 4096 ∧ index.degree ≤ fld plantPay 2 2 ∧ plantingOn busy 0 index = false) ∧
    ([true, false].all fun d => partIndex { full with indexes := [planted d] } 0 == some (planted d)) = true ∧
    (({ full with indexes := [planted true] } : Partition).changes.any fun c => c.index == 0 && c.kind == .plantSwitch) = false := by
  decide +kernel

def fetchPay : List Byte := fields [(1, 0), (7, 0), (8, 0), (8, 64)]
def passagePay : List Byte := fields [(1, 1), (1, 0), (6, 0), (8, 0), (8, 0)]
def peerUpdatePay (source : Nat) : List Byte := fields [(1, 0), (1, 1), (2, source), (4, 1), (4, 0), (4, 0)]
/-- A store of one passage without bytes: a T1 page of zeros. -/
def oneItem : Store := { store with recordCount := 1, recordOffset := 0 }

theorem witness_PeerCommands :
    (engineState busy (req 64 fetchPay) = true ∧ accepted .peerFetch (req 64 fetchPay) busy = true ∧
      peerFetchForm busy 0 fetchPay = true ∧ fld fetchPay 0 1 ≠ 1 ∧
      ∀ pg ∈ rangePages (peerRange busy 0 fetchPay).1 (peerRange busy 0 fetchPay).2, pagePoisoned busy 0 pg = false) ∧
    (accepted .peerFetch (req 64 passagePay) busy = true ∧ peerFetchForm busy 0 passagePay = true ∧ fld passagePay 0 1 = 1 ∧
      (storeItem (serving { full with stores := [oneItem] }) 0 oneItem 0).isSome = true ∧
      findStore (serving { full with stores := [oneItem] }) 0 0 = some oneItem) ∧
    (accepted .peerUpdate (req 64 (peerUpdatePay 0)) busy = true ∧ 16 ≤ (peerUpdatePay 0).length ∧ fld (peerUpdatePay 0) 1 1 < 2 ∧
      zeroAt (peerUpdatePay 0) 12 4 = true ∧ fld (peerUpdatePay 0) 2 2 = (req 64 []).src.toNat ∧
      peerContribs (peerUpdatePay 0) 0 1 0 16 = some [] ∧ findTable busy 0 0 = some (table 5) ∧
      holdsShard (table 5) busy.myId.toNat = true ∧ 0 ∉ (table 5).sources) ∧
    (accepted .peerUpdate { req 64 (peerUpdatePay 5) with src := 5 } busy = true ∧ 5 ∈ (table 5).sources) := by decide +kernel

/-! ### Global operations and tests -/

def globalPay (scope len : Nat) : List Byte :=
  fields [(2, 0), (1, 0), (1, scope), (4, 1), (4, 1), (4, 1), (4, 0), (4, 32), (4, if len = 0 then 0 else 40), (4, len),
    (2, 5), (1, 0), (1, 0), (4, 0), (len, 0)]
/-- An operation of domain 0 with an epoch that is open or joined. -/
def openOp (epoch : Nat) (joined : Option Nat) : GlobalOp :=
  { globalOp .barrierJoin (globalPay 0 0) 0 with epoch, joinedAt := joined }
def withOps (gs : List GlobalOp) (last : List (Nat × Nat)) : State := serving { full with globals := gs, lastEpochs := last }

/-- What the four commands have to meet. -/
def globals (c : Code) (l : List Byte) (s : State) : Bool :=
  accepted c (req 1 l) s && [Code.barrierJoin, .broadcastSend, .snapshotTake, .groupReset].contains c && globalForm s 0 c l &&
    globalState (reqPart s (req 1 l)).state

theorem witness_GlobalCommands :
    (globals .barrierJoin (globalPay 0 0) busy = true ∧ globals .broadcastSend (globalPay 0 1) busy = true ∧
      globals .snapshotTake (globalPay 0 0) busy = true ∧ globals .groupReset (globalPay 1 0) busy = true) ∧
    (lookupD (busy.part 0).lastEpochs 0 0 < 1 ∧ (busy.part 0).globals.countP (·.open_) < 16) ∧
    (globals .barrierJoin (globalPay 0 0) (withOps [] [(0, 1)]) = true ∧ 1 ≤ lookupD ((withOps [] [(0, 1)]).part 0).lastEpochs 0 0) ∧
    (globals .barrierJoin (globalPay 0 0) (withOps (List.replicate 16 (openOp 1 (some 0))) []) = true ∧
      16 ≤ ((withOps (List.replicate 16 (openOp 1 (some 0))) []).part 0).globals.countP (·.open_)) ∧
    domainBusy ((withOps [openOp 1 (some 0)] []).part 0) 0 = true ∧
    (domainBusy ((withOps [openOp 1 none] []).part 0) 0 = false ∧
      ((withOps [openOp 1 none] []).part 0).globals.find? (fun g => g.open_ && g.joinedAt.isNone && g.domain == 0) =
        some (openOp 1 none)) := by decide +kernel

def loopPay (mode : Nat) : List Byte := fields [(2, 0x8000), (1, mode), (1, 0), (4, 10000000)]
def testPay (target : Nat) : List Byte := fields [(1, target), (7, 0)]
def disabled : State := { bound with ports := bound.ports.set 15 { Port.reset with ctl := 1 } }

/-- A commanded self-test of the stands, before it has asked for its current. -/
def testing : State := serving { part .bound with selftests := [(4, 0)] }
theorem witness_TestCommands :
    ([0, 2].all fun m => accepted .loopbackSet (req 1 (loopPay m)) disabled && decide (fld (loopPay m) 2 1 = m) &&
      zeroAt (loopPay m) 3 1 && testState disabled (req 1 []) && (maskPorts (fld (loopPay m) 0 2)).all (portLoops disabled)) = true ∧
    (accepted .selftestRun (req 1 (testPay 3)) bound = true ∧ fld (testPay 3) 0 1 ≤ 3 ∧ zeroAt (testPay 3) 1 7 = true ∧
      testState bound (req 1 []) = true ∧ (reqPart bound (req 1 [])).state = .bound) ∧
    (((serving { part .bound with loopbacks := [(4, [15], 0)] }).part 0).loopbacks = (4, [15], 0) :: [] ∧
      0 ≤ ready.now ∧ [((1 : W64), (0 : W64))].length = [15].length) ∧
    ((serving { part .bound with selftests := [(4, 3)] }).part 0).selftests = (4, 3) :: [] ∧
    (testsFired testing 0 = true ∧ testsFired (testStands testing 0) 0 = false) := by decide +kernel

/-! ### Steps, launches, tasks -/

def stepNo (no : Nat) (posted : Bool) : Step := ⟨no, [], posted, [], none⟩
def stepping (formed done : Nat) (ss : List Step) : State :=
  serving { full with serve := some (params 0), stepsFormed := formed, stepsDone := done, steps := ss }
/-- A request whose prompt waits for a step, so that a step has a batch. -/
def withPrompt : State := { stepping 0 0 [] with nextId := 1, ctxs := [{ decoding with state := .prefill, taken := 0 }] }

theorem witness_StepsAndBoundaries :
    (busy.power.railTripped = false ∧ (busy.part 0).serve = none ∧ ((stepping 2 0 []).part 0).stepsDone + 1 < 2) ∧
    (((stepping 0 0 []).part 0).serve = some (params 0) ∧ serves ((stepping 0 0 []).part 0) = true ∧
      ((stepping 0 0 []).part 0).rebind = none ∧ (formBatches (actIdle 0 (stepping 0 0 [])) 0 (params 0)).1 = []) ∧
    ((withPrompt.part 0).serve = some (params 0) ∧ serves (withPrompt.part 0) = true ∧ (withPrompt.part 0).rebind = none ∧
      (withPrompt.part 0).stepsFormed ≤ (withPrompt.part 0).stepsDone + 1 ∧
      (formBatches (actIdle 0 withPrompt) 0 (params 0)).1 ≠ []) ∧
    (settle busy = busy ∧ settle withPrompt = withPrompt ∧ settle (stepping 0 0 []) = stepping 0 0 []) ∧
    (stepOver (stepping 1 0 [stepNo 1 false]) 0 = false ∧ stepOver (stepping 1 0 [stepNo 1 true]) 0 = true) ∧
    ((bound.part 0).state ≠ .loaded ∧ (loaded.part 0).state = .loaded ∧ (loaded.part 0).stepsDone = (loaded.part 0).stepsFormed) := by
  decide +kernel

/-- A query's search part waits, and nothing else of its partition: its slice makes a step. -/
def riding : State :=
  { stepping 0 0 [] with
    nextId := 9, jobs := [⟨2, 0, 1, some 0, .searchPart 6 0 0 false, none, none, 0, 0⟩]
    searches := [{ id := 6, owner := .context 0, part := 0, index := 0, block := blockParse (fields block) 0, queries := [[]]
                   parts := [], shards := [], wanted := [0], missing := [] }] }

theorem witness_StepsAndBoundaries_riders :
    (formBatches (actIdle 0 (settle riding)) 0 (params 0)).1 = [] ∧
    ridersOf (formBatches (actIdle 0 (settle riding)) 0 (params 0)).2 0 ≠ [] := by decide +kernel

def task (done : Bool) : Task := ⟨.record [], 24, 1, 0, some 0, done, 0⟩
def launch : Launch :=
  { id := 3, part := 0, kind := .group 2 0 0, stepNo := 1, cont := false, posted := true, target := 0, release := none, bases := []
    tasks := [task false, task false], rows := [], after := [], gather := none, moves := [], awaits := [], slices := [], lists := [], room := 0, amps := 48
    granted := some 0, fired := none, stallLate := 0, stallCredit := 0 }
def launching (l : Launch) (now : Nat) : State := { stepping 1 0 [stepNo 1 true] with nextId := 9, launches := [l], lc := BitVec.ofNat 64 now }
/-- Physical stand 0 runs the first task of the launch. -/
def running (l : Launch) (now : Nat) : State :=
  { launching { l with fired := some 0 } now with
    stands := (launching l now).stands.modify 0 fun x => { x with task := some (3, 0) } }
/-- A partition whose STAND and SKIDDER regulators hold accesses back, and one where they let them pass. -/
def regs (count : Int) : List Regulator := List.replicate 5 ⟨1, 1, count, false⟩
def regulatedAt (count : Int) (s : State) : State := { s with parts := s.parts.modify 0 fun p => { p with regs := regs count } }
def rerun : Launch := { launch with kind := .rerun 7 0 }

theorem witness_LaunchesAndTasks_fire :
    (busy.power.railTripped = false ∧ busy.launch? 3 = none) ∧
    ((launching launch 255).launch? 3 = some launch ∧ launch.posted = true ∧ launch.fired = none ∧
      launch.target ≤ (launching launch 255).now ∧ operandsReady launch = true ∧ launch.granted = some 0 ∧
      0 ≤ (launching launch 255).now ∧ (launching launch 255).now < 0 + 256 ∧ launch.release = none) ∧
    0 + 256 ≤ (launching launch 256).now ∧
    ((launching { launch with release := some 4 } 0).launch? 3 = some { launch with release := some 4 }) := by decide +kernel

theorem witness_LaunchesAndTasks_tasks :
    runningTask busy 0 = none ∧
    (runningTask (running launch 0) 0 = some (0, { launch with fired := some 0 }, 0, task false) ∧
      ((running launch 0).stands[0]?).isSome = true ∧ (task false).body = .record [] ∧
      ({ launch with fired := some 0 } : Launch).tasks[1]? = some (task false) ∧ (task false).done = false) ∧
    (∀ o j, launch.kind ≠ .rerun o j) ∧
    (flowHolds (running launch 0) 0 .stand = false ∧ flowHolds (regulatedAt 1 (running launch 0)) 0 .stand = false ∧
      flowHolds (regulatedAt 0 (running launch 0)) 0 .stand = true ∧ (launching launch 0).launch? 3 = some launch) ∧
    (runningTask (running rerun 0) 0 = some (0, { rerun with fired := some 0 }, 0, task false) ∧
      ({ running rerun 0 with launches := (running rerun 0).launches ++ [{ launch with id := 7 }] }).launch? 7 =
        some { launch with id := 7 }) ∧
    ((0 : Nat) + watchdogCounts 1 ≤ (running launch (watchdogCounts 1)).now ∧ (running launch 0).now < 0 + watchdogCounts 1) := by
  refine ⟨by decide +kernel, by decide +kernel, fun o j => nofun, by decide +kernel, by decide +kernel, by decide +kernel⟩

/-! ### Moves and fills -/

/-- A descriptor of one FP32 element from address 0 of a space to address 64 of the Landing. -/
def desc (space src dst : Nat) : List Byte :=
  fields ([(1, 0), (1, 0), (1, 2), (1, 2), (1, space), (1, 0), (2, 7), (8, src), (8, dst)] ++ List.replicate 5 (4, 1) ++
    [(4, 18056), (32, 0), (20, 0), (4, 0), (8, 0), (4, 0), (4, 0), (8, 0)])
def moving (d : List Byte) : Launch := { launch with moves := [d] }
def checked (d : List Byte) : MoveCheck :=
  (descParse d).check ((launching (moving d) 0).part 0) [] ((launching (moving d) 0).landBytes 0)

theorem witness_MovesAndFills_moves :
    (launching launch 0).launch? 3 = some launch ∧ launch.moves = [] ∧
    ([desc 0 0 64, desc 1 0 64, desc 3 0 64].all fun d =>
      (launching (moving d) 0).launch? 3 == some (moving d) && checked d == .ok &&
        skidderTurn (launching (moving d) 0) == some 0 && !flowHolds (launching (moving d) 0) 0 (descParse d).flow) = true ∧
    (checked (desc 0 0x400000 64) = .landing ∧ checked (desc 2 0 64) = .host ∧ checked (desc 2 0 0x400000) = .both) ∧
    (flowHolds (regulatedAt 0 (launching (moving (desc 0 0 64)) 0)) 0 (descParse (desc 0 0 64)).flow = true ∧
      skidderTurn (launching { moving (desc 0 0 64) with posted := false } 0) = none) ∧
    chipDstFits (launching (moving (desc 0 0 64)) 0) 0 (descParse (desc 0 0 64))
      ((descParse (desc 0 0 64)).source ((launching (moving (desc 0 0 64)) 0).landBytes 0)) = true ∧
    (runDesc (launching (moving (desc 0 0 64)) 0) 0 (descParse (desc 0 0 64))
      ((descParse (desc 0 0 64)).source ((launching (moving (desc 0 0 64)) 0).landBytes 0))).isSome = true ∧
    peerUp (launching (moving (desc 3 0 64)) 0) (w16 (descParse (desc 3 0 64)).peer) = false := by decide +kernel

def fill (space addr : Nat) (what : FillFor) (got : List Byte) : Fill :=
  { id := 4, part := 0, space, peer := 7, addr, len := 64, forWhat := what, issued := 0, got }
/-- A fill in flight; page 0 of T1 is poisoned or not. -/
def filling (f : Fill) (poison : List Nat) (now : Nat) : State :=
  { busy with
    nextId := 9, fills := [f], lc := BitVec.ofNat 64 now
    t1 := { busy.t1 with poison, tags := [(0, 1)] } }
def operandFill (space addr : Nat) (got : List Byte) : Fill := fill space addr (.operand 3 0) got
def chipLoad : State :=
  { filling (fill 2 0 (.load 2) []) [] 0 with
    cmds := [mkCmd .indexLoad (some 0) (req 1 (load24 [(1, 0), (1, 0), (1, 2), (1, 0), (4, 1)] 4096 0)) 2] }

theorem witness_MovesAndFills_fills :
    (busy.fill? 4 = none ∧ (filling (operandFill 1 0 []) [] 0).fill? 4 = some (operandFill 1 0 [])) ∧
    (t1Ok (busy.part 0).frames (fillRange (filling (operandFill 1 0x100000 []) [] 0) (operandFill 1 0x100000 [])
      (fillT1 (filling (operandFill 1 0x100000 []) [] 0) (operandFill 1 0x100000 []))).1 64 = false) ∧
    (t1Ok (busy.part 0).frames 0 64 = true ∧
      (fillRange (filling (operandFill 1 0 []) [] 0) (operandFill 1 0 []) (fillT1 (filling (operandFill 1 0 []) [] 0)
        (operandFill 1 0 []))) = (0, 64) ∧
      (∃ pg ∈ fillPages (filling (operandFill 1 0 []) [0] 0) (operandFill 1 0 []),
        pagePoisoned (filling (operandFill 1 0 []) [0] 0) 0 pg = true) ∧
      ∀ pg ∈ fillPages (filling (operandFill 1 0 []) [] 0) (operandFill 1 0 []),
        pagePoisoned (filling (operandFill 1 0 []) [] 0) 0 pg = false ∧ repairOf (filling (operandFill 1 0 []) [] 0) 0 pg = false) ∧
    (flowHolds (filling (operandFill 1 0 []) [] 0) 0 (fillFlow (operandFill 1 0 [])) = false ∧
      flowHolds (regulatedAt 0 (filling (operandFill 1 0 []) [] 0)) 0 (fillFlow (operandFill 1 0 [])) = true) ∧
    ((operandFill 2 0 (List.replicate 64 0)).len ≤ (operandFill 2 0 (List.replicate 64 0)).got.length ∧
      (operandFill 2 0 [1]).got.length < (operandFill 2 0 [1]).len ∧ [(1 : Byte)].length < (operandFill 2 0 [1]).len) ∧
    (pageHome (filling (operandFill 1 0 []) [] 0) 0 = some (0, 0) ∧ 0 ∈ fillPages (filling (operandFill 1 0 []) [] 0) (operandFill 1 0 [])) ∧
    ((fillObject chipLoad (fill 2 0 (.load 2) [])).any (·.2) = true ∧ chipLoad.fill? 4 = some (fill 2 0 (.load 2) [])) ∧
    ((operandFill 2 0 []).issued + 100000000 ≤ (filling (operandFill 2 0 []) [] 100000000).now ∧
      (filling (operandFill 2 0 []) [] 99999999).now < (operandFill 2 0 []).issued + 100000000) := by decide +kernel

/-! ### Units, memories, power -/

def job (k : JobKind) (u : EngineUnit) : Job := ⟨2, 0, 1, none, k, some u, some 0, 0, 0⟩
/-- A unit that runs a piece of work. -/
def engaged (j : Job) (u : EngineUnit) : State :=
  { busy with
    nextId := 9, jobs := [j]
    units := busy.units.map fun x => if x.unit = u then { x with job := some j.id } else x }
def unitIn (u : EngineUnit) (st : UnitStatus) (faults : List Nat) : State :=
  { busy with units := busy.units.map fun x => if x.unit = u then { x with status := st, faults } else x }
def sapwood (budgetUs now : Nat) : State :=
  { engaged (job (.searchPart 6 0 0 false) (.traversal 7)) (.traversal 7) with
    lc := BitVec.ofNat 64 now
    searches := [{ id := 6, owner := .command 1, part := 0, index := 0
                   block := { blockParse (fields block) 0 with sapwood := true, budgetUs }, queries := [[]], parts := []
                   shards := [], wanted := [0], missing := [] }] }

theorem witness_UnitsAndFaults :
    (busy.power.railTripped = false ∧ unitJob busy (.lane 0) = none) ∧
    (unitJob (engaged (job .tokenize (.lane 15)) (.lane 15)) (.lane 15) = some (job .tokenize (.lane 15)) ∧
      ((engaged (job .tokenize (.lane 15)) (.lane 15)).unit? (.lane 15)).map (·.status) = some .inService) ∧
    ((unitIn (.lane 0) .testing []).unit? (.lane 0)).map (·.status) = some .testing ∧
    (unitJob (engaged (job .tally (.tally 1)) (.tally 1)) (.tally 1) = some (job .tally (.tally 1)) ∧
      (job .tally (.tally 1)).reruns = 0) ∧
    (flowHolds (engaged (job .tokenize (.lane 15)) (.lane 15)) 0 (unitFlow (.lane 15)) = false ∧
      flowHolds (regulatedAt 0 (engaged (job .tokenize (.lane 15)) (.lane 15))) 0 (unitFlow (.lane 15)) = true) ∧
    unitJob (engaged { job .tally (.tally 1) with reruns := 1 } (.tally 1)) (.tally 1) =
      some { job .tally (.tally 1) with reruns := 1 } ∧
    ((sapwood 1 1000).job? 2 = some (job (.searchPart 6 0 0 false) (.traversal 7)) ∧
      ((sapwood 1 1000).search? 6).map (fun y => (y.block.sapwood, y.block.budgetUs)) = some (true, 1) ∧
      0 + 1000 * 1 ≤ (sapwood 1 1000).now ∧ (sapwood 1 999).now < 0 + 1000 * 1) := by decide +kernel

def standIn (n : Nat) (st : StandStatus) (faults : List Nat) : State :=
  { ready with stands := ready.stands.modify n fun x => { x with status := st, faults } }
/-- Stand 63 is retired and spare 64 tests itself for it. -/
def replacing : State :=
  { ready with
    stands := (ready.stands.modify 63 fun x => { x with status := .retired }).modify 64 fun x =>
      { x with status := .sparetesting, replaces := some 63 } }

theorem witness_SelfTests :
    (ready.power.railTripped = false ∧ (ready.unit? .yarder).map (·.status) = some .inService) ∧
    (((unitIn (.lane 0) .testing [0, 0]).unit? (.lane 0)).map (·.status) = some .testing ∧
      (recent (unitIn (.lane 0) .testing [0, 0]) dayCounts [0, 0]).length < 3 ∧
      3 ≤ (recent (unitIn (.lane 0) .testing [0, 0, 0]) dayCounts [0, 0, 0]).length) ∧
    (standAt (standIn 5 .testing [0, 0]) 5 = some 5 ∧ ((standIn 5 .testing [0, 0]).stands[5]?).map (·.status) = some .testing ∧
      (ready.stands[5]?).map (·.status) = some .active) ∧
    (spareReady replacing = some (64, 63) ∧ (replacing.stands[63]?).isSome = true ∧ (replacing.stands[64]?).isSome = true) ∧
    (kindFired replacing (.standTest 64) = true ∧ kindFired (standTest replacing 64 0) (.standTest 64) = false) ∧
    spareReady ready = none := by decide +kernel

def patrolled : State := filling (operandFill 1 0 []) [] 0
/-- Four poisoned pages of channel 127 in a day. -/
def channelIll : State :=
  { ready with t1 := { ready.t1 with poisonAt := [(127, 0), (127, 0), (127, 0), (127, 0)] } }
def copying : State := { ready with t1 := { ready.t1 with copying := some 3 } }
def warm (n : Nat) : State := serving { full with cache := ⟨[⟨0, 0, 0, 3⟩], [(0, 0, 3)], n⟩ }

theorem witness_MemoryEvents :
    (busy.power.railTripped = false ∧ 6144 ≤ 6144 ∧ ctrlPart ready 6143 = none ∧ ctrlPart busy 15 = some 0) ∧
    (ready.cmds = [] ∧ ∀ i, i < 32 → (ready.part i).rebind = none) ∧
    (pageHome patrolled 0 = some (0, 0) ∧ t1Page (patrolled.part 0).frames (0 * pageBytes) = some (0, 1) ∧
      patrolled.t1.written 0 1 = true ∧ 0 ∉ patrolled.t1.poison ∧ 0 ∈ (filling (operandFill 1 0 []) [0] 0).t1.poison) ∧
    (127 < 128 ∧ 127 ∉ channelIll.t1.retired ∧ channelIll.t1.copying = none ∧ channelDue channelIll 127 = true ∧
      furtherReserve channelIll = some [] ∧ channelDue ready 127 = false) ∧
    copying.t1.copying = some 3 ∧
    (((warm 65535).part 0).cache.fetches < 65536 ∧ 65536 ≤ ((warm 65536).part 0).cache.fetches) := by decide +kernel

def atCount (n : Nat) : State := { ready with lc := BitVec.ofNat 64 n }
def cutRequest (launch amps epoch refusals : Nat) : CutRequest := ⟨launch, 0, amps, epoch, 0, refusals, none⟩
def asking (amps : Nat) : State := { ready with cut := { ready.cut with requests := [cutRequest 3 amps 256 0] } }
def temps (t : Int) : List Int := [t, 0, 0, 0, 0, 0, 0, 0]
def inState (st : ThermState) : State := { ready with cut := { ready.cut with therm := st, bth := 288 } }

theorem witness_PowerAndHeat :
    (ready.power.railTripped = false ∧ (atCount 1).now % 256 ≠ 0 ∧ (atCount 256).now % 256 = 0 ∧ (atCount 384).now % 256 = 128 ∧
      (atCount 0).now % 256 ≠ 128) ∧
    (refusal (asking 1152) (cutRequest 3 1152 256 0) [] = none ∧ refusal (asking 1153) (cutRequest 3 1153 256 0) [] = some .budget) ∧
    (agedRequests (asking 1152)).takeWhile (fun x => x.launch != 3) = [] ∧
    (([] : List Int).length ≠ 8 ∧ (temps 1050).length = 8 ∧ (1050 : Int) ∈ (temps 1050).take 6 ∧ (∀ x ∈ (temps 1050).take 6, x ≤ 1050) ∧
      (1049 : Int) < 1050 ∧ (1100 : Int) ∈ (temps 1100).take 6) ∧
    ((inState .warn).cut.therm = .warn ∧ (inState .normal).cut.therm ≠ .crit) := by decide +kernel

/-! ### The bridge -/

/-- A bridge whose PCIe link runs at a rate; function 0 maps its own pair 0, pair 1 of module 7 and pair 1 of module 8. -/
def hosted (rate : Nat) : State :=
  { bound with
    ident := { bound.ident with bridge := true }
    ports := bound.ports.set 4 { Port.reset with state := .up, lanes := 15, peerId := 7, credits := Port.linkUpCredits }
    bridge := { bound.bridge with
      rate, slots := [⟨0, 0, 5, 0⟩, ⟨0, 1, 7, 1⟩, ⟨0, 2, 8, 1⟩, ⟨0, 511, 5, 1⟩]
      relays := [⟨9, 0, 7, 4, 0, false⟩], numVFs := 2
      hostReads := [⟨3, 0, 5, 4, some 4, 2, false⟩, ⟨4, 0, 7, 4, none, 2, false⟩] } }
def hostedAt (now : Nat) : State := { hosted 64 with lc := BitVec.ofNat 64 now }

theorem witness_HostAccesses :
    ((hosted 64).power.railTripped = false ∧ accessOk (hosted 64) 3 0 0 4 = false ∧ relays (hosted 16) = false ∧
      accessOk (hosted 16) 0 2 0x17FFFC 4 = true) ∧
    (relays (hosted 32) = true ∧ windowPlace (hosted 32) 0 2 0x17FFFC = .region ⟨0, 0, 5, 0⟩ 0x17FFFC ∧
      w16 5 = (hosted 32).myId ∧ ((hosted 32).pair 0).bound = true ∧ accessOk (hosted 32) 0 2 0x17FFFC 4 = true) ∧
    (windowPlace (hosted 32) 0 2 0x8000000 = .region ⟨0, 1, 7, 1⟩ 0 ∧ w16 7 ≠ (hosted 32).myId ∧
      reachable (hosted 32) (w16 7) = true ∧ accessOk (hosted 32) 0 2 0x8000000 4096 = true) ∧
    (windowPlace (hosted 32) 0 2 0x10000000 = .region ⟨0, 2, 8, 1⟩ 0 ∧ reachable (hosted 32) (w16 8) = false ∧
      accessOk (hosted 32) 0 2 0x10000000 4 = true) ∧
    (windowPlace (hosted 32) 0 0 0x200000 = .slotPage ⟨0, 511, 5, 1⟩ 0 ∧ accessOk (hosted 32) 0 0 0x200000 4 = true) ∧
    (windowPlace (hosted 32) 0 2 0x180000 = .nothing ∧ accessOk (hosted 32) 0 2 0x180000 4 = true) ∧
    ((hosted 64).bridge.relays.find? (fun r => r.tag == 9) = some ⟨9, 0, 7, 4, 0, false⟩ ∧
      (hostedAt 1999999).now < 0 + 2000000 ∧ 0 + 2000000 ≤ (hostedAt 2000000).now) := by decide +kernel

theorem witness_EndpointEvents :
    (bound.power.railTripped = false ∧ bound.ident.bridge = false ∧ (hosted 64).ident.bridge = true) ∧
    (2 ≤ (hosted 64).bridge.numVFs ∧ (hosted 64).bridge.numVFs < 3 ∧ (hosted 64).bridge.rate ≠ 0 ∧ 16 ∈ [16, 8, 4] ∧
      128 ∈ [2, 5, 8, 16, 32, 64, 128] ∧ 2 ∉ [16, 8, 4] ∧ 2 ∉ (hosted 64).bridge.msixEnabled ∧ 2 ∉ (hosted 64).bridge.busMaster ∧
      (hosted 64).bridge.readWait = []) ∧
    ((hosted 64).bridge.hostReads.find? (fun h => h.tag == 4) = some ⟨4, 0, 7, 4, none, 2, false⟩ ∧
      oldestRead (hosted 64) ⟨4, 0, 7, 4, none, 2, false⟩ = true ∧ (7 : W16) ≠ (hosted 64).myId ∧ [(1 : Byte), 2].length = 2) ∧
    ((hosted 64).bridge.hostReads.find? (fun h => h.tag == 3) = some ⟨3, 0, 5, 4, some 4, 2, false⟩ ∧
      oldestRead (hosted 64) ⟨3, 0, 5, 4, some 4, 2, false⟩ = true ∧ (5 : W16) = (hosted 64).myId) ∧
    ({ hosted 64 with fills := [operandFill 2 0 []] }).fill? 4 = some (operandFill 2 0 []) := by decide +kernel

/-! ### Frames -/

/-- A module whose port 4 is UP with a neighbour. -/
def linked (p : Port) : State := { busy with ports := busy.ports.set 4 p }
def upPort : Port := { Port.reset with state := .up, lanes := 15, peerId := 7, credits := Port.linkUpCredits }
/-- It has delivered frames 0 to 2 of a flow, and holds frame 4. -/
def inFlow : State :=
  { linked upPort with flowRx := [((7, 1), 3)], early := [{ frame .mboxWrite with flowSeq := 4 }] }

theorem witness_FrameReceived :
    (frameOf (.mboxWrite 4 (frame .mboxWrite)) = some (.mboxWrite, 4, frame .mboxWrite) ∧ inFlow.power.railTripped = false) ∧
    ((inFlow.port 3).state ≠ .up ∧ 20 < frameFlits { frame .mboxWrite with data := List.replicate 4465 0 } ∧
      ({ upPort with discarding := true } : Port).discarding = true ∧ (frame .mboxWrite).linkSeq = upPort.rxSeq + 1 ∧
      ({ frame .mboxWrite with linkSeq := 1 } : Frame).linkSeq ≠ upPort.rxSeq + 1) ∧
    ((inFlow.port 4).state = .up ∧ frameFlits { frame .mboxWrite with data := List.replicate 4464 0 } ≤ 20 ∧
      (inFlow.port 4).discarding = false) ∧
    ((frame .mboxWrite).dest = inFlow.myId ∧ ({ frame .mboxWrite with flowSeq := 3 } : Frame).flowSeq =
      lookupD inFlow.flowRx (flowKey (frame .mboxWrite)) 0) ∧
    (((32770 : W16) - 3).toNat < 32768 ∧ ∀ x ∈ inFlow.early,
      ¬(flowKey x = flowKey (frame .mboxWrite) ∧ x.flowSeq = 32770)) ∧
    32768 ≤ ((2 : W16) - 3).toNat ∧
    (({ frame .mboxWrite with dest := 9, hops := 7 } : Frame).dest ≠ inFlow.myId ∧ 7 ≤ 7 ∧ 6 < 7) ∧
    frameOf (.blazeUp 4 { frame .blaze with data := [1] }) = some (.blaze, 4, { frame .blaze with data := [1] }) ∧
    frameOf (.blazeDown 4 { frame .blaze with data := [2] }) = some (.blaze, 4, { frame .blaze with data := [2] }) := by
  decide +kernel

def addressed (k : FrameKind) (a : W64) : Frame := { frame k with address := a }
/-- A peer command that waits for 449 bytes of payload. -/
def arriving : PeerPartial := ⟨7, 0, List.replicate 12 0 ++ leBytes 4 449 ++ List.replicate 48 0, []⟩
def expecting : State := { busy with pairs := busy.pairs.set 64 { pairOf (List.range 5) with arriving := [arriving] } }
def mapped : State :=
  { hosted 64 with bridge := { (hosted 64).bridge with slots := [⟨1, 0, 7, 0⟩], busMaster := [1] } }

theorem witness_FrameDelivered :
    (addrPair (addressed .mboxWrite 0x0100000000000000).address = 1 ∧
      addrReg (addressed .mboxWrite 0x0100000000000000).address = false ∧ (busy.pair 1).bound = true) ∧
    (addrPair (addressed .mboxWrite 0x3F01000000000000).address = 63 ∧
      addrReg (addressed .mboxWrite 0x3F01000000000000).address = true) ∧
    (64 ≤ addrPair (addressed .mboxWrite 0x4000000000000000).address ∧
      addrReg (addressed .mboxWrite 0x0200000000000000).address = false ∧
      (busy.pair (addrPair (addressed .mboxWrite 0x0200000000000000).address)).bound = false) ∧
    (addrPair (frame .readData).address ≠ 1 ∧ (9 : W16).toNat < 0xC000 ∧
      (hosted 64).bridge.relays.find? (fun r => r.tag == (9 : W16).toNat) = some ⟨9, 0, 7, 4, 0, false⟩ ∧ (4 : W32) ≠ 0) ∧
    (peerOpen ready (frame .peerReq) = false ∧ peerOpen busy (frame .peerReq) = true ∧
      peerOpen expecting (frame .peerData) = true ∧
      (expecting.pair 64).arriving.find? (fun x => x.src == 7 && x.tag == 0 && !peerWhole x) = some arriving) ∧
    (bitsOf (frame .message).address.toNat 63 56 = 0 ∧
      bitsOf (addressed .message 0x0100000000000000).address.toNat 63 56 = 1 ∧ (hosted 64).ident.bridge = true) ∧
    (slotOf mapped 7 ((1023 : W16).toNat / 1024) = some ⟨1, 0, 7, 0⟩ ∧ mapped.bridge.readWait = [] ∧ mapped.ident.bridge = true ∧ 1 ∈ mapped.bridge.busMaster ∧
      mapped.bridge.rate ≠ 0) ∧
    busy.ident.bridge = false := by decide +kernel

/-- A token of domain 0 and epoch 1, and members at which its operation is open or joined. -/
def token : Frame := { frame .blaze with data := fields [(1, 1), (3, 0), (2, 0), (2, 6), (4, 0), (4, 1), (176, 0)] }
def joined (sent : Option Nat) (now : Nat) : State :=
  { withOps [{ openOp 1 (some 0) with sentUpAt := sent }] [(0, 1)] with lc := BitVec.ofNat 64 now }
def holding (n : Nat) : State := serving { full with heldTokens := List.replicate n token }

theorem witness_BlazeTokens :
    (token.kind = .blaze ∧ 32 ≤ ({ token with dstPart := 32 } : Frame).dstPart.toNat) ∧
    (joinedOp busy 0 0 1 = none ∧ (busy.part 0).state ≠ .unbound ∧
      ¬((busy.part 0).globals.all (fun g => !(g.open_ && g.joinedAt.isNone && g.domain == fld token.data 4 2 &&
        g.epoch == fld token.data 0xC 4)) = true ∧ fld token.data 0xC 4 ≤ lookupD (busy.part 0).lastEpochs (fld token.data 4 2) 0) ∧
      ((holding 63).part 0).heldTokens.length < 64) ∧
    (joinedOp (holding 64) 0 0 1 = none ∧ 64 ≤ ((holding 64).part 0).heldTokens.length ∧ (ready.part 0).state = .unbound) ∧
    (joinedOp (joined none 0) 0 (fld token.data 4 2) (fld token.data 0xC 4)).isSome = true ∧
    (domainOp busy 0 0 = none ∧ (domainOp (joined none 0) 0 0).isSome = true) ∧
    ((domainOp (joined none 1000000) 0 0).map (fun g => (g.joinedAt, g.sentUpAt, g.timeoutMs)) = some (some 0, none, 1) ∧
      0 + 1000000 * 1 ≤ (joined none 1000000).now ∧ (joined none 999999).now < 0 + 1000000 * 1) ∧
    (domainOp (joined (some 0) 1000000) 0 0).map (fun g => g.sentUpAt) = some (some 0) := by decide +kernel

/-! ### Links -/

def sent (n : Nat) : List Sent := (List.range n).map fun k => ⟨BitVec.ofNat 12 k, .ctl (.retire 0), 0, true⟩
def sending (p : Port) : State := linked { upPort with replay := p.replay, resend := p.resend, ctlQ := p.ctlQ, state := p.state }
def retrained : Port := { upPort with state := .retiring, ctlQ := [.nakMsg 3] }

theorem witness_FrameTransmitted :
    ((linked upPort).power.railTripped = false ∧ (busy.port 4).state ≠ .up ∧ (busy.port 4).state ≠ .retiring ∧
      (linked upPort).now < ((linked { upPort with busyUntil := 1 }).port 4).busyUntil) ∧
    (((linked upPort).port 4).state = .up ∧ ((linked upPort).port 4).busyUntil ≤ (linked upPort).now ∧
      ((linked upPort).port 4).resend = [] ∧ ((linked upPort).port 4).ctlQ = []) ∧
    ((linked { upPort with resend := sent 1 }).port 4).resend ≠ [] ∧
    (((linked retrained).port 4).state = .retiring ∧ ((linked retrained).port 4).ctlQ = .nakMsg 3 :: []) ∧
    (((linked { upPort with ctlQ := [.retire 0] }).port 4).ctlQ = .retire 0 :: [] ∧ (∀ n, LinkCtl.retire 0 ≠ .nakMsg n) ∧
      (sent 511).length + ctlFlits (.retire 0) ≤ 512 ∧ 512 < (sent 512).length + ctlFlits (.retire 0)) ∧
    (((linked { retrained with ctlQ := [] }).port 4).ctlQ = [] ∧ ((linked { retrained with ctlQ := [] }).port 4).state = .retiring) := by
  refine ⟨by decide +kernel, by decide +kernel, by decide +kernel, by decide +kernel, ⟨by decide +kernel, fun n => nofun, ?_⟩,
    by decide +kernel⟩
  decide +kernel

theorem witness_LinkAcknowledged :
    ((linked upPort).power.railTripped = false ∧ 4 < (linked upPort).ports.length ∧ (linked upPort).boot.resetDue = false ∧
      (busy.port 4).state ≠ .up ∧
      ((linked upPort).port 4).state = .up) ∧
    ackSplit { upPort with replay := sent 2 } 2 = none ∧
    (ackSplit { upPort with replay := sent 2 } 1 = some (sent 2, []) ∧
      ackSplit { upPort with replay := sent 2 } 0 = some ((sent 2).take 1, (sent 2).drop 1) ∧ (sent 2).drop 1 ≠ [] ∧
      ∀ x ∈ sent 2, ackedPair (linked upPort) x = none) ∧
    (2 < 3 ∧ 7 < 8 ∧ 2047 < 2048) ∧
    (((linked upPort).port 4).discarding = false ∧
      ((linked { upPort with discarding := true }).port 4).discarding = true ∧
      (activeLanes upPort).length = 4 ∧ 16 < (List.replicate 17 (0, 0)).countP fun e : Nat × Nat => e.1 == 0) := by decide +kernel

/-- A peer out of reach for 250 ms, and one that was lost and is a neighbour again. -/
def unreachableAt (now : Nat) : State := { ready with unreach := [(9, 0)], lc := BitVec.ofNat 64 now }
def back : State := { linked upPort with lost := [7] }

/-- A module that a GROUP_RESET is to reset, whose port holds these flits. -/
def dueReset (l : List Sent) : State :=
  { linked { upPort with replay := l } with boot := { ready.boot with resetDue := true } }
def blazeSent : List Sent := [{ seq := 0, what := .data 0 (frame .blaze), flit := 0, last := true }]

theorem witness_RoutesAndPeers :
    ((linked upPort).power.railTripped = false ∧ 4 < (linked upPort).ports.length ∧ (linked upPort).boot.resetDue = false ∧
      (busy.port 4).state ≠ .up ∧
      ((linked upPort).port 4).state = .up ∧ (7 : W16) ≠ (linked upPort).myId) ∧
    ((busy.port 4).state ≠ .retiring ∧ 4 ≤ 4 ∧ (busy.port 4).lanes.getLsbD 3 = false) ∧
    (3 < 4 ∧ upPort.lanes.getLsbD 3 = true ∧ upPort.lanes &&& ~~~(BitVec.ofNat 4 (2 ^ 3)) ≠ 0) ∧
    (({ upPort with lanes := 8 } : Port).lanes.getLsbD 3 = true ∧
      ({ upPort with lanes := 8 } : Port).lanes &&& ~~~(BitVec.ofNat 4 (2 ^ 3)) = 0) ∧
    (bit (1 : W32).toNat 0 = true ∧ (busy.port 4).state ≠ .training ∧ bit upPort.ctl.toNat 0 = false ∧
      ({ Port.reset with state := .training } : Port).state = .training ∧ ~~~Port.reset.retiredLanes ≠ 0) ∧
    ((5 : W16) = ready.myId ∧ (7 : W16) ∈ back.lost ∧ reachable (linked upPort) 7 = true ∧
      (unreachableAt 249999999).now < lookupD (unreachableAt 249999999).unreach 9 0 + 250000000) ∧
    ((9 : W16) ≠ (unreachableAt 250000000).myId ∧ 9 ∉ (unreachableAt 250000000).lost ∧
      reachable (unreachableAt 250000000) 9 = false ∧
      lookupD (unreachableAt 250000000).unreach 9 0 + 250000000 ≤ (unreachableAt 250000000).now ∧
      (unreachableAt 250000000).calls = [] ∧ (∀ j, j < 32 → ((unreachableAt 250000000).part j).globals = []) ∧
      ∀ q ∈ (unreachableAt 250000000).parts, q.tables = []) ∧
    (reachable back 7 = true ∧ (9 : W16) ∉ back.lost) ∧
    ((dueReset []).boot.resetDue = true ∧ tokensWait (dueReset []) = false ∧ resetRecordWaits (dueReset []) = false ∧ tokensWait (dueReset blazeSent) = true) := by
  decide +kernel

/-! ### Rows that complete -/

/-- One segment that the lowest free run takes is still being zeroed. -/
def zeroingFirst : State := { ready with zeroing := [0] }
/-- A frame of a family that comes for the module next of its flow. -/
def arrives (k : FrameKind) : Frame := { frame k with flowSeq := lookupD inFlow.flowRx (flowKey (frame k)) 0 }

theorem witness_RowsComplete_partitions :
    (∀ g ∈ ((bindEffect (bindPay 31 2) (came .partitionBind (req 0 (bindPay 31 2)) ready)).part 31).segs, g ∉ ready.zeroing) ∧
    (accepted .partitionBind (req 0 (bindPay 31 2)) zeroingFirst = true ∧ bindRoom zeroingFirst (bindParse (bindPay 31 2)) = (none, 0) ∧
      ∃ g ∈ ((bindEffect (bindPay 31 2) (came .partitionBind (req 0 (bindPay 31 2)) zeroingFirst)).part 31).segs,
        g ∈ zeroingFirst.zeroing) := by decide +kernel

theorem witness_RowsComplete_commands :
    (loads .modelSwapIn (modelLoad 3 0) busy = true ∧ (loadSrc .modelSwapIn (modelLoad 3 0)).space = 3) ∧
    (loads .tableLoad (load24 [(1, 63), (1, 1), (6, 0)] 128 0) busy = true ∧
      t1Ok (busy.part 0).frames 0 128 = true) ∧
    ((∀ x ∈ (busy.part 0).globals, x.open_ = true → x.domain ≠ (globalOp .groupReset (globalPay 1 0) 0).domain) ∧
      ∃ x ∈ ((withOps [openOp 1 (some 0)] []).part 0).globals,
        x.open_ = true ∧ x.domain = (globalOp .barrierJoin (globalPay 0 0) 0).domain) := by decide +kernel

theorem witness_RowsComplete_frames :
    ([FrameKind.mboxWrite, .mboxRead, .readData, .peerReq, .peerData, .message, .hostWrite, .hostRead, .blaze].all fun k =>
      decide ((arrives k).dest = inFlow.myId) && decide (frameFlits (arrives k) ≤ 20)) = true ∧
    ((inFlow.port 4).state = .up ∧ (inFlow.port 4).discarding = false ∧ inFlow.power.railTripped = false) ∧
    fld token.data 0 1 = 1 ∧ fld (token.data.set 0 2) 0 1 = 2 := by decide +kernel

/-! ### Invariants -/

theorem witness_ExecLeavesQueue : exec .firmwareWatchdog State.reset = .next State.reset := rfl

theorem witness_StepKeeps : step ready = .next (tick ready) ∧ MemOk ready ∧ ShapeOk ready := by
  unfold MemOk ShapeOk
  exact ⟨rfl, by decide +kernel⟩

/-! ### Worked examples of the spec -/

/-- FIPS 180-4's digest of the message abc. -/
theorem test_sha384_abc : beNat (sha384 [0x61, 0x62, 0x63]) =
    0xcb00753f45a35e8bb5a03d699ac65007272c32ab0eded1631a8b605a43ff5bed8086072ba1e7cc2358baeca134c825a7 := by decide +kernel

/-- PHASE of records 0x7EF9 and 0x7F00 of a ring of 256 (02, one query through the rings). -/
theorem test_record_phase :
    let r : Record := { mkRecord busy 0x31A2B true none .ok 0 0 with more := true }
    bit (fld (recordBytes r 0x7EF9 8) 28 4) 31 = true ∧ bit (fld (recordBytes r 0x7F00 8) 28 4) 31 = false ∧
    fld (recordBytes r 0x7F00 8) 28 2 = 0x7F00 := by decide +kernel

/-- The W4 group of 03: activation 2 is 0, or +∞. -/
def w4Sum (a : W16) : W32 :=
  arrayDot 0 ((([0x4060, 0xBFA0, a, 0x3F40, 0x3D00] ++ List.replicate 27 0).map num16).zip
    ((codesOf 4 ([0xE5, 0x87, 0x01] ++ List.replicate 13 0)).map fun c => codeNum c (-3)))

theorem test_w4_group : w4Sum 0 = 0x3FE08000 ∧ toBf16L0 (w4Sum 0) = 0x3FE1 ∧ toBf16 (w4Sum 0) = 0x3FE0 := by decide +kernel
theorem test_w4_group_infinite : toBf16L0 (w4Sum 0x7F80) = 0x7F80 := by decide +kernel

/-- The running sums, the kept sum and the two draws of 04's worked example. -/
def drawRow (t : W32) : Nat :=
  let c := runningSums 0x41600000 0 [0x41600000, 0x41580000, 0x41500000, 0x41400000]
  ((c.take 2).findIdx? fun x => !le32 x t).getD 2

theorem test_sampling_sums : runningSums 0x41600000 0 [0x41600000, 0x41580000, 0x41500000, 0x41400000] =
    [0x3F800000, 0x3FCDA2CC, 0x3FFCB978, 0x40070611] ∧ mul32 0x3F4CCCCD 0x40070611 = 0x3FD809B5 := by decide +kernel
theorem test_sampling_draws : drawRow (mul32 0x3ED00000 0x3FFCB978) = 0 ∧ drawRow (mul32 0x3F680000 0x3FFCB978) = 2 := by
  decide +kernel

/-- 05, a line and a page: the bank and row of 0x0123_4567; channel, pages and check bits of module page 49,383,527. -/
theorem test_landing_bank :
    lineBank (landLine 0x01234567) = 837 ∧ lineRow (landLine 0x01234567) = 48 := by decide +kernel
theorem test_page_channel :
    pageChannel 49383527 = 103 ∧ channelPage 49383527 = 385808 ∧ rawPage 385808 = 411528 ∧ checkPage 385808 = 411535 ∧
    checkOffset 385808 = 2304 := by decide +kernel

/-- 14 R369: the CRC-64 of the catalogue's check string. -/
theorem test_crc64 : crc64 [0x31, 0x32, 0x33, 0x34, 0x35, 0x36, 0x37, 0x38, 0x39] = 0x6C40DF5F0B497347#64 := by decide +kernel

def nibbles : List Nat :=
  [0, 1, 15, 2, 0, 0, 14, 1, 3, 15, 0, 0, 1, 15, 0, 2, 13, 0, 1, 0, 0, 15, 2, 1, 0, 0, 15, 1, 0, 2, 14, 0]

theorem test_nibble_group :
    let n := packBits (chipFields 4 1 (nibbles.map fun v => zig v 4))
    leBytes 4 n = [0x03, 0x50, 0x08, 0x4C] ∧ (chipGroups 4 n 1 0).map (fun x => x.1.map fun z => unzig z 4) = some nibbles := by
  decide +kernel

/-- 07: one name through BPE_BYTE, and a stop string completed inside the next token. -/
def bpe : Tokenizer := { tokenizer with
  algo := 1, byteMap := List.range 256
  merges := [(0x69, 0x6E, 0x110), (0x6C, 0x6C, 0x162), (0x20, 0x54, 0x171), (0x6F, 0x162, 0xA9B), (0x171, 0xA9B, 0xF22),
    (0xF22, 0x110, 0x1D3A)] }
def tollin : List (List Byte) := [[0x20], [0x54], [0x6F], [0x6C], [0x6C], [0x69], [0x6E]]

theorem test_bpe_name : encodeBpe bpe tollin = [0x1D3A] ∧
    encodeBpe { bpe with merges := bpe.merges.take 5 } tollin = [0xF22, 0x110] := by decide +kernel

def sources : List Byte := [0x0A, 0x53, 0x6F, 0x75, 0x72, 0x63, 0x65, 0x73]
def stopOptions (incl : Bool) : TextOptions :=
  { grammar := none, startState := none, stops := [[0x0A, 0x0A], sources ++ [0x3A]], forceEos := false, includeStop := incl }
def answered (incl : Bool) : PlanerSt × Option Reason :=
  let t := { bpe with vocab := [[0x31, 0x32], [0x5D, 0x0A], sources] }
  let a := planerToken t (stopOptions incl) none 0 false ⟨[], [], 0, false⟩
  planerToken t (stopOptions incl) none 2 false (planerToken t (stopOptions incl) none 1 false a.1).1

theorem test_stop_string : (answered false).1.text = [0x31, 0x32, 0x5D] ∧ (answered false).2 = some .stopString ∧
    (answered true).1.text = [0x31, 0x32, 0x5D, 0x0A, 0x0A] := by decide +kernel

/-- 08: rows of a QR table, and the sum of three contributions. -/
theorem test_qr_rows : rowsOf { table 5 with compose := 1, compA := ⟨8192, 0, 256, 5, false⟩, compB := ⟨8192, 0, 256, 5, false⟩ }
    30000123 = (1019, 3662) := by decide +kernel
theorem test_update_sum : add32 (add32 (add32 0 0x3F800000) 0x33800000) 0xBF800000 = 0 := by decide +kernel

/-- 09: the filtered query on shard 0. -/
def walkGraph : Graph :=
  { edges := fun n => (([(412000117, [98330061, 201557930]), (98330061, [566495202, 412000117]), (201557930, [733100452]),
      (566495202, [733100451, 98330061])] : List (Nat × List Nat)).lookup n).getD []
    score := fun n => (([(412000117, 0x3F333333), (98330061, 0x3F4CCCCD), (201557930, 0x3F266666), (566495202, 0x3F4A8C15),
      (733100452, 0x3F266666), (733100451, 0x3F19999A)] : List (Nat × W32)).lookup n).getD 0
    allowed := fun n => n == 566495202 || n == 733100452
    isNan := fun _ => false }

theorem test_filtered_query :
    let t := traverse walkGraph ⟨2, 2, 4, 0⟩ none 10 none [412000117]
    t.res = [(0x3F4A8C15, 566495202), (0x3F266666, 733100452)] ∧ t.expanded = 4 ∧ t.extended = true := by decide +kernel

/-- 10: selection with NaNs, signed zeros and ties, and the merge of three shard lists. -/
def nanRow : List W32 := ([0x3F80, 0x7FC1, 0x8000, 0x4000, 0x0000, 0x4000, 0xFFC0, 0xFF80] : List W16).map widen

theorem test_select : (selectRow nanRow 8).sel.map (·.2) = [1, 6, 3, 5, 0, 2, 4, 7] ∧ (selectRow nanRow 3).nan = true ∧
    outValue (selectRow nanRow 3).selSum = 0x7FC00000 ∧ (selectRow nanRow 3).leftSum = 0xFF800000 := by decide +kernel

def shardLists : List (List Entry) :=
  [[⟨0x3F500000, 0, 0, 0x038A100001⟩, ⟨0x3F300000, 0, 0, 0x039B2204F0⟩, ⟨0x3F000000, 0, 0, 0x038C001200⟩],
   [⟨0x3F400000, 1, 0, 0x072B9011D5⟩, ⟨0x3F300000, 1, 0, 0x039B2204F0⟩, ⟨0x3F000000, 1, 0, 0x0730000A10⟩],
   [⟨0x3F100000, 2, 0, 0x038C001200⟩, ⟨0x3F000000, 2, 0, 0x0B0E449A03⟩, ⟨infNeg, 2, 0, emptyId⟩]]

theorem test_merge :
    let m := mergeLists shardLists 5
    m.entries = [⟨0x3F500000, 0, 0, 0x038A100001⟩, ⟨0x3F400000, 1, 0, 0x072B9011D5⟩, ⟨0x3F300000, 0, 0, 0x039B2204F0⟩,
      ⟨0x3F100000, 2, 0, 0x038C001200⟩, ⟨0x3F000000, 1, 0, 0x0730000A10⟩] ∧
    m.dups = 2 ∧ m.selSum = 0x40540000 ∧ m.leftSum = 0x3F000000 := by decide +kernel

/-- 14: the tag steps of two flows, the gate that holds one of them, and the counts their frames occupy. -/
def fairPort : Port :=
  { upPort with ctl := 0x200002, gates := [(0, 0xCC0000190), (1, 0x8C0000190)], gated := true, actCount := 1 }

theorem test_fair_queue : (4064 * 65536 + 6000 - 1) / 6000 = 44390 ∧ occupancy fairPort 18 = 77 ∧ occupancy fairPort 5 = 22 ∧
    gateFits fairPort 6 297 77 = true ∧ gateFits fairPort 6 341 77 = false ∧ gateFits fairPort 7 341 77 = true ∧
    gateFits fairPort 6 803 77 = true := by decide +kernel

/-- 15 R401, R402, R405: a Tally task asks for 2 A, begins when its launch fires, and gives its credits back with its slice. -/
def turnAsked : State := queueJob { busy with nextId := 9, lc := 300 } 0 1 none .tally
def turnBegun : State :=
  launchFire 10 { turnAsked.modLaunch 10 fun l => { l with granted := some 1024 } with lc := 1024 }

theorem test_turn_asks :
    turnAsked.cut.requests.map (fun r => (r.launch, r.amps, r.epoch, r.arrived)) = [(10, 2, 1024, 512)] ∧
    unitJob turnAsked (.tally 0) = none := by decide +kernel
theorem test_turn_begins :
    (unitJob turnBegun (.tally 0)).map (fun j => (j.id, j.started)) = some (9, some 1024) ∧
    turnBegun.cut.held = [⟨0, 10, 0, 2, false⟩] ∧
    (sliceEnd (.tally 0) false turnBegun).cut.held = [⟨0, 10, 0, 2, false⟩] := by decide +kernel

/-- 17 X19: a faulted stand's self-test asks for 24 A in the name of its partition. -/
theorem test_stand_test_asks :
    (standFault { busy with nextId := 9 } 0).cut.requests.map (fun r => (r.launch, r.part, r.amps)) = [(9, 0, 24)] ∧
    unitTested (.stand 0) true (standFault { busy with nextId := 9 } 0) = standFault { busy with nextId := 9 } 0 := by
  decide +kernel


end Sys2Proof.Tests
end

section
/-! SUPPORT. Launches that fire and the tasks of stands: one rule for each operation they use, the counters first, then the
credits a launch holds, the jobs that begin with it, what a task's run leaves as it was, and how a stand leaves service. The
section settles O41. -/

namespace Sys2Proof.Laws

open Sys2Proof Sys2Proof.Machine

/-! ### Counters (15 R411) -/

/-- A key that was set reads back. -/
@[simp] theorem lookupD_setKey_self {κ α : Type} [BEq κ] [LawfulBEq κ] (l : List (κ × α)) (k : κ) (v d : α) :
    lookupD (setKey l k v) k d = v := by
  simp [lookupD, setKey]

/-- Every other key reads as before. -/
theorem lookupD_setKey_ne {κ α : Type} [BEq κ] [LawfulBEq κ] {k q : κ} (h : q ≠ k) (l : List (κ × α)) (v d : α) :
    lookupD (setKey l k v) q d = lookupD l q d := by
  have hq : (l.filter fun e => !(e.1 == k)).lookup q = l.lookup q := by
    induction l with
    | nil => rfl
    | cons e l ih =>
      obtain ⟨a, b⟩ := e
      by_cases ha : a = k
      · subst ha
        simp [List.lookup_cons, ih, beq_false_of_ne h]
      · simp [List.lookup_cons, ih, ha]
  simp [lookupD, setKey, List.lookup_cons, beq_false_of_ne h, hq]

/-- A counter holds what it was raised by. -/
theorem lookupD_bump_self (s : State) (c : Ctr) (p i n : Nat) :
    lookupD (bump s c p i n).ctr ⟨c, p, i⟩ 0 = lookupD s.ctr ⟨c, p, i⟩ 0 + n := by
  by_cases h : n = 0
  · simp [bump, h]
  · simp [bump, h]

/-- A counter of another name is not raised. -/
theorem lookupD_bump_name {c : Ctr} {q : CtrKey} (h : q.name ≠ c) (s : State) (p i n : Nat) :
    lookupD (bump s c p i n).ctr q 0 = lookupD s.ctr q 0 := by
  have hk : q ≠ ⟨c, p, i⟩ := fun e => h (by rw [e])
  by_cases hn : n = 0
  · simp [bump, hn]
  · simp [bump, hn, lookupD_setKey_ne hk]

theorem lookupD_bumpMax_name {c : Ctr} {q : CtrKey} (h : q.name ≠ c) (s : State) (p i n : Nat) :
    lookupD (bumpMax s c p i n).ctr q 0 = lookupD s.ctr q 0 := by
  have hk : q ≠ ⟨c, p, i⟩ := fun e => h (by rw [e])
  by_cases hn : n ≤ lookupD s.ctr ⟨c, p, i⟩ 0
  · simp [bumpMax, hn]
  · simp [bumpMax, hn, lookupD_setKey_ne hk]

/-- Nothing but the counters differs. -/
def OnlyCtr (s t : State) : Prop := ∃ c, t = { s with ctr := c }

theorem onlyCtr_bump (s : State) (c : Ctr) (p i n : Nat) : OnlyCtr s (bump s c p i n) := bump_eq s c p i n

theorem onlyCtr_bumpMax (s : State) (c : Ctr) (p i n : Nat) : OnlyCtr s (bumpMax s c p i n) := bumpMax_eq s c p i n

theorem OnlyCtr.trans {s t u : State} (h : OnlyCtr s t) (h' : OnlyCtr t u) : OnlyCtr s u := by
  obtain ⟨c, rfl⟩ := h
  obtain ⟨d, rfl⟩ := h'
  exact ⟨d, rfl⟩

theorem OnlyCtr.eq {s t : State} (h : OnlyCtr s t) : t = { s with ctr := t.ctr } := by
  obtain ⟨c, rfl⟩ := h
  rfl

/-! ### Launches by id -/

theorem id_of_launch {s : State} {n : Nat} {l : Launch} (h : s.launch? n = some l) : l.id = n := by
  simpa using List.find?_some h

/-- A launch found after a change of its own that keeps ids is the launch changed. -/
theorem launch_modLaunch_self {s : State} {n : Nat} {l : Launch} {f : Launch → Launch} (hf : ∀ l, (f l).id = l.id)
    (h : s.launch? n = some l) : (s.modLaunch n f).launch? n = some (f l) := by
  have hp : ((fun l : Launch => l.id == n) ∘ fun l => if l.id = n then f l else l) = fun l => l.id == n := by
    funext x
    by_cases hx : x.id = n <;> simp [hx, hf]
  show List.find? (fun l => l.id == n) (s.launches.map fun l => if l.id = n then f l else l) = _
  rw [List.find?_map, hp, show s.launches.find? (fun l => l.id == n) = some l from h]
  simp [id_of_launch h]

/-! ### Credits that a launch holds (15 R405) -/

/-- What each task of a launch holds of its own. -/
def taskHolds (l : Launch) : List Hold := l.tasks.zipIdx.map fun t => ⟨l.part, l.id, t.2, t.1.credit, false⟩

/-- What a launch holds beyond its tasks, for the slices that ride in it. -/
def restHolds (l : Launch) : List Hold :=
  let rest := l.amps - (l.tasks.map (·.credit)).sum
  if rest = 0 then [] else [⟨l.part, l.id, l.tasks.length, rest, false⟩]

/-- A launch of tasks holds what each of them holds, and the rest. -/
theorem launchHolds_tasks {l : Launch} (he : ∀ k, l.kind ≠ .engine k) (ht : ∀ k, l.kind ≠ .standTest k) :
    launchHolds l = taskHolds l ++ restHolds l := by
  unfold launchHolds
  split
  next e => exact absurd e (he _)
  next e => exact absurd e (ht _)
  next =>
    unfold restHolds
    dsimp only
    split
    · exact (List.append_nil _).symm
    · rfl

/-- A launch holds all it asked for in one, or what its tasks hold and the rest. -/
theorem launchHolds_cases (l : Launch) :
    launchHolds l = [⟨l.part, l.id, 0, l.amps, false⟩] ∨ launchHolds l = taskHolds l ++ restHolds l := by
  by_cases he : ∃ k, l.kind = .engine k
  · obtain ⟨k, hk⟩ := he
    exact .inl (by simp [launchHolds, hk])
  by_cases ht : ∃ k, l.kind = .standTest k
  · obtain ⟨k, hk⟩ := ht
    exact .inl (by simp [launchHolds, hk])
  exact .inr (launchHolds_tasks (fun k hk => he ⟨k, hk⟩) fun k hk => ht ⟨k, hk⟩)

theorem mem_taskHolds {l : Launch} {h : Hold} (hh : h ∈ taskHolds l) : h.launch = l.id ∧ h.part = l.part ∧ h.done = false := by
  obtain ⟨x, -, rfl⟩ := List.mem_map.1 hh
  exact ⟨rfl, rfl, rfl⟩

theorem mem_restHolds {l : Launch} {h : Hold} (hh : h ∈ restHolds l) : h.launch = l.id ∧ h.part = l.part ∧ h.done = false := by
  unfold restHolds at hh
  dsimp only at hh
  split at hh
  · cases hh
  · rw [List.mem_singleton] at hh
    simp [hh]

/-- Every hold of a launch is in its name and its partition's, and not yet given back. -/
theorem mem_launchHolds {l : Launch} {h : Hold} (hh : h ∈ launchHolds l) :
    h.launch = l.id ∧ h.part = l.part ∧ h.done = false := by
  rcases launchHolds_cases l with e | e
  · rw [e, List.mem_singleton] at hh
    simp [hh]
  · rw [e, List.mem_append] at hh
    exact hh.elim mem_taskHolds mem_restHolds

/-- The holds of the tasks add up to the tasks' credits. -/
theorem sum_taskHolds (l : Launch) : ((taskHolds l).map (·.amps)).sum = (l.tasks.map (·.credit)).sum := by
  have hc : ((fun h : Hold => h.amps) ∘ fun t : Task × Nat => (⟨l.part, l.id, t.2, t.1.credit, false⟩ : Hold)) =
      (fun t : Task => t.credit) ∘ Prod.fst := rfl
  rw [taskHolds, List.map_map, hc, ← List.map_map, List.zipIdx_map_fst]

/-- The rest is what the tasks' credits leave of what the launch asked for. -/
theorem sum_restHolds (l : Launch) : ((restHolds l).map (·.amps)).sum = l.amps - (l.tasks.map (·.credit)).sum := by
  unfold restHolds
  dsimp only
  split
  next h => exact h.symm
  next => simp

/-- What a launch holds adds up to what it asked for. -/
theorem sum_launchHolds {l : Launch} (h : (l.tasks.map (·.credit)).sum ≤ l.amps) :
    ((launchHolds l).map (·.amps)).sum = l.amps := by
  rcases launchHolds_cases l with e | e
  · simp [e]
  · rw [e, List.map_append, List.sum_append, sum_taskHolds, sum_restHolds]
    omega

theorem taskHold_mem {l : Launch} {k : Nat} {x : Task} (he : ∀ k, l.kind ≠ .engine k) (ht : ∀ k, l.kind ≠ .standTest k)
    (hx : l.tasks[k]? = some x) : (⟨l.part, l.id, k, x.credit, false⟩ : Hold) ∈ launchHolds l := by
  rw [launchHolds_tasks he ht]
  exact List.mem_append_left _ (List.mem_map.2 ⟨(x, k), List.mk_mem_zipIdx_iff_getElem?.2 hx, rfl⟩)

/-! ### A launch fires (01 R18) -/

/-- The jobs that begin when a launch fires: the unit's turn it was formed for, and the slices that ride in it. -/
def beginIds (l : Launch) : List Nat :=
  match l.kind with
  | .engine j => j :: l.slices
  | _ => l.slices

/-- Jobs begun one after another, some of them perhaps twice, are each begun once. -/
theorem foldl_modJob_begin (ids : List Nat) (s : State) :
    ids.foldl (fun s j => s.modJob j fun j => j.begin s.now) s =
      { s with jobs := s.jobs.map fun j => if j.id ∈ ids then { j with started := some (j.started.getD s.now) } else j } := by
  induction ids generalizing s with
  | nil => simp
  | cons a ids ih =>
    rw [List.foldl_cons, ih]
    simp only [State.modJob, State.now, List.map_map]
    congr 1
    refine List.map_congr_left fun j _ => ?_
    by_cases ha : j.id = a <;> by_cases hi : j.id ∈ ids <;> simp [Job.begin, ha, hi]

theorem turnBegins_eq (l : Launch) (s : State) :
    turnBegins l s = { s with
      jobs := s.jobs.map fun j => if j.id ∈ beginIds l then { j with started := some (j.started.getD s.now) } else j } :=
  foldl_modJob_begin (beginIds l) s

/-- The counters of a launch that fires (15 R411): that it fired, whether it was late, and how late. -/
def countFired (l : Launch) (s : State) : State :=
  let stall := s.now - l.target
  let s3 := bump (bump s .launchFired l.part 0 1) .launchStalled l.part 0 (boolNat (decide (0 < stall)))
  bumpMax (bump (bump s3 .launchStall l.part 1 l.stallLate) .launchStall l.part 2 l.stallCredit) .launchStallMax l.part 0 stall

theorem countFired_onlyCtr (l : Launch) (s : State) : OnlyCtr s (countFired l s) :=
  (onlyCtr_bump s _ _ _ _).trans (onlyCtr_bump _ _ _ _ _) |>.trans (onlyCtr_bump _ _ _ _ _) |>.trans
    (onlyCtr_bump _ _ _ _ _) |>.trans (onlyCtr_bumpMax _ _ _ _ _)

theorem lookupD_countFired (l : Launch) (s : State) :
    lookupD (countFired l s).ctr ⟨.launchFired, l.part, 0⟩ 0 = lookupD s.ctr ⟨.launchFired, l.part, 0⟩ 0 + 1 := by
  unfold countFired
  rw [lookupD_bumpMax_name Ctr.noConfusion, lookupD_bump_name Ctr.noConfusion, lookupD_bump_name Ctr.noConfusion,
    lookupD_bump_name Ctr.noConfusion, lookupD_bump_self]

/-- The state in which a launch has fired, its counters aside: it holds its credits, and what rides in it has begun. -/
def firedState (n : Nat) (l : Launch) (s : State) : State :=
  { s with
    launches := s.launches.map fun x => if x.id = n then { x with fired := some s.now } else x
    cut := { s.cut with held := s.cut.held ++ launchHolds l }
    jobs := s.jobs.map fun j => if j.id ∈ beginIds l then { j with started := some (j.started.getD s.now) } else j }

/-- The conditions under which a launch fires. -/
def mayFire (s : State) (l : Launch) : Bool :=
  l.posted && l.fired.isNone && decide (l.target ≤ s.now) && operandsReady l && creditsNow s l

theorem launchFire_of_none {s : State} {n : Nat} (h : s.launch? n = none) : launchFire n s = s := by
  simp [launchFire, h]

theorem launchFire_of_not {s : State} {n : Nat} {l : Launch} (h : s.launch? n = some l) (hm : mayFire s l = false) :
    launchFire n s = s := by
  unfold mayFire at hm
  simp [launchFire, h, hm]

theorem launchFire_unreleased {s : State} {n : Nat} {l : Launch} (h : s.launch? n = some l) (hm : mayFire s l = true)
    (hr : l.release = none) : launchFire n s = countFired l (firedState n l s) := by
  unfold mayFire at hm
  simp only [launchFire, h, hm, if_true, hr, turnBegins_eq]
  rfl

theorem launchFire_released {s : State} {n g : Nat} {l : Launch} (h : s.launch? n = some l) (hm : mayFire s l = true)
    (hr : l.release = some g) : launchFire n s = alignFired (countFired l (firedState n l s)) l.part g := by
  unfold mayFire at hm
  simp only [launchFire, h, hm, if_true, hr, turnBegins_eq]
  rfl

theorem mayFire_iff {s : State} {l : Launch} : mayFire s l = true ↔
    l.posted = true ∧ l.fired = none ∧ l.target ≤ s.now ∧ operandsReady l = true ∧
      ∃ e, l.granted = some e ∧ e ≤ s.now ∧ s.now < e + 256 := by
  cases hg : l.granted with
  | none => simp [mayFire, creditsNow, hg]
  | some e => simp [mayFire, creditsNow, hg, and_assoc]

/-- What keeps a launch from firing: one condition that fails is enough. -/
theorem mayFire_eq_false {s : State} {l : Launch} (h : l.posted = false ∨ l.fired.isSome = true ∨ s.now < l.target ∨
    operandsReady l = false ∨ l.granted = none ∨ (∃ e, l.granted = some e ∧ (s.now < e ∨ e + 256 ≤ s.now))) :
    mayFire s l = false := by
  refine Bool.eq_false_iff.2 fun hm => ?_
  obtain ⟨hp, hf, ht, ho, e, hg, hfrom, huntil⟩ := mayFire_iff.1 hm
  rcases h with h | h | h | h | h | ⟨e', h, hout⟩
  · simp [hp] at h
  · simp [hf] at h
  · omega
  · simp [ho] at h
  · simp [hg] at h
  · rw [hg, Option.some_inj] at h
    omega

/-! ### Landing accesses of tasks -/

@[simp] theorem modReg_launches (s : State) (i : Nat) (k : Flowing) (f : Regulator → Regulator) :
    (s.modReg i k f).launches = s.launches := by
  unfold State.modReg
  split <;> rfl

@[simp] theorem charge_launches (s : State) (i : Nat) (k : Flowing) (n : Nat) : (charge s i k n).launches = s.launches := by
  unfold charge
  split
  · rfl
  · rw [bump_launches, modReg_launches]

@[simp] theorem areaStore_launches (s : State) (i area off : Nat) (bs : List Byte) :
    (areaStore s i area off bs).launches = s.launches := by
  unfold areaStore
  refine List.foldlRecOn (motive := fun t : State => t.launches = s.launches) _ _ rfl fun t ht c _ => ?_
  split
  · exact ht
  · exact ht

@[simp] theorem runSampleRows_launches (s : State) (l : Launch) (rows : List SampleRow) :
    (runSampleRows s l rows).launches = s.launches := by
  unfold runSampleRows
  refine List.foldlRecOn (motive := fun t : State => t.launches = s.launches) _ _ rfl fun t ht r _ => ?_
  simp only [areaPut, charge_launches, areaStore_launches, ht]

/-! ### A task runs (04 R96) -/

/-- A task's run, whole or in part, leaves the launches as they are. -/
@[simp] theorem runBody_launches (s : State) (k : Nat) (l : Launch) (b : TaskBody) : (runBody s k l b).launches = s.launches := by
  cases b with
  | record ops => simp [runBody, bumpFree]
  | sample rows => simp [runBody, bumpFree]

theorem modStand_some {s : State} {k : Nat} {x : Stand} (h : s.stands[k]? = some x) (f : Stand → Stand) :
    s.modStand k f = { s with stands := s.stands.set k (f x) } := by
  simp [State.modStand, h]

/-- A recorded task has stored its results, the corrected errors are counted at its stand, and of the counters only the cycles its
array waited and its Landing bytes change. -/
theorem runBody_record {s : State} {k : Nat} {x : Stand} (hx : s.stands[k]? = some x) (l : Launch) (ops : List (List Byte)) :
    ∃ ctr, (∀ q : CtrKey, q.name ≠ .standDepStall → lookupD ctr q 0 = lookupD s.ctr q 0) ∧
      runBody s k l (.record ops) = charge { s with
        landing := runTask (s.part l.part).view l.bases ops s.landing
        stands := s.stands.set k { x with corrected := x.corrected + (Config.freeValue s.freeIdx).toNat }
        freeIdx := s.freeIdx + 2
        ctr := ctr } l.part .stand (taskTraffic ops) := by
  let w : State := { s with
    stands := s.stands.set k { x with corrected := x.corrected + (Config.freeValue s.freeIdx).toNat }, freeIdx := s.freeIdx + 2 }
  let n := (Config.freeValue (s.freeIdx + 1)).toNat
  let idx := ((s.stands[k]?).bind (·.logical)).getD 0
  refine ⟨(bump w .standDepStall l.part idx n).ctr, fun q hq => lookupD_bump_name hq w _ _ _, ?_⟩
  unfold runBody
  rw [modStand_some (s := { s with freeIdx := s.freeIdx + 1 }) hx]
  show charge { bump w .standDepStall l.part idx n with landing := _ } _ _ _ = _
  rw [(onlyCtr_bump w _ _ _ _).eq]

/-- A launch with one of its tasks marked done. -/
def markTask (ti : Nat) (l : Launch) : Launch :=
  { l with tasks := match l.tasks[ti]? with
    | some t => l.tasks.set ti { t with done := true }
    | none => l.tasks }

/-- Marking a task leaves the others as they are. -/
theorem markTask_other {ti j : Nat} (hj : j ≠ ti) (l : Launch) : (markTask ti l).tasks[j]? = l.tasks[j]? := by
  unfold markTask
  dsimp only
  split
  · exact List.getElem?_set_ne hj.symm
  · rfl

/-- While another task of the launch is not done, marking one changes nothing else. -/
theorem taskMarked_of_open {s : State} {id ti j : Nat} {l : Launch} {y : Task} (hl : s.launch? id = some l) (hj : j ≠ ti)
    (hy : l.tasks[j]? = some y) (hd : y.done = false) : taskMarked s id ti = s.modLaunch id (markTask ti) := by
  have hs : (s.modLaunch id (markTask ti)).launch? id = some (markTask ti l) := launch_modLaunch_self (fun _ => rfl) hl
  have hopen : (markTask ti l).tasks.all (·.done) = false := by
    refine List.all_eq_false.2 ⟨y, List.mem_of_getElem? ((markTask_other hj l).trans hy), ?_⟩
    simp [hd]
  unfold taskMarked
  dsimp only
  split
  next m hm =>
    obtain rfl : markTask ti l = m := Option.some.inj (hs.symm.trans hm)
    rw [hopen]
    rfl
  next => rfl

theorem launch_of_runningTask {s : State} {n k ti : Nat} {l : Launch} {t : Task} (h : runningTask s n = some (k, l, ti, t)) :
    s.launch? l.id = some l := by
  unfold runningTask at h
  split at h
  · cases h
  split at h
  · split at h
    next hl =>
      split at h
      · cases h
        rw [id_of_launch hl]
        exact hl
      · cases h
    next => cases h
  · cases h

/-! ### A task ends (04 R96, R104 to R106, R116) -/

/-- A task that is not a run again ends while others of its launch are open: its stand is free, its credits return at the next
boundary, and it is marked done. -/
theorem taskDone_of_open {s : State} {n k ti j : Nat} {l : Launch} {t y : Task} (h : runningTask s n = some (k, l, ti, t))
    (hr : ∀ o j, l.kind ≠ .rerun o j) (hj : j ≠ ti) (hy : l.tasks[j]? = some y) (hd : y.done = false) :
    taskDone n s = postReady ((releaseHold ((runBody s k l t.body).modStand k fun x => { x with task := none }) l.id ti).modLaunch
      l.id (markTask ti)) l.part := by
  have hl : (releaseHold ((runBody s k l t.body).modStand k fun x => { x with task := none }) l.id ti).launch? l.id = some l := by
    show (runBody s k l t.body).launches.find? (fun x => x.id == l.id) = some l
    rw [runBody_launches]
    exact launch_of_runningTask h
  unfold taskDone
  rw [h]
  dsimp only
  rw [taskMarked_of_open hl hj hy hd]
  split
  next o _ e => exact absurd e (hr _ _)
  next => rfl

/-- The state in which a task has stopped with a fault: what it had run is stored, its stand is out of service, and its credits
return at the next boundary. -/
def taskStopped (s : State) (k : Nat) (l : Launch) (ti : Nat) (t : Task) : State :=
  releaseHold (standFault (runBody { s with freeIdx := s.freeIdx + 1 } k l
    (bodyPrefix (Config.freeValue s.freeIdx).toNat t.body)) k) l.id ti

/-- The launch in which a faulted task runs once more. -/
def rerunLaunch (l : Launch) (ti : Nat) (t : Task) (id : Nat) : Launch :=
  { l with id, kind := .rerun l.id ti, cont := true, posted := false, target := 0, release := none
           tasks := [{ t with stand := none }], after := [], gather := none, moves := [], awaits := [], slices := []
           lists := [], room := 0, amps := 0, granted := none, fired := none, stallLate := 0, stallCredit := 0 }

/-- The first fault of a task (04 R116): it is to run again, not on this stand. -/
theorem taskFault_first {l : Launch} (hr : ∀ o j, l.kind ≠ .rerun o j) (s : State) (k ti : Nat) (t : Task) :
    taskFault s k l ti t = postReady (addLaunch ((taskStopped s k l ti t).modLaunch l.id fun l =>
      { l with tasks := l.tasks.set ti { t with stand := some k, reruns := t.reruns + 1 } })
      (rerunLaunch l ti t (taskStopped s k l ti t).nextId)) l.part := by
  unfold taskFault
  dsimp only
  split
  next o _ e => exact absurd e (hr _ _)
  next => rfl

/-- The fault of a task that runs again (04 R116): the step of its launch ends. -/
theorem taskFault_again {s : State} {k ti o j : Nat} {l y : Launch} {t : Task} (hk : l.kind = .rerun o j)
    (hy : (taskStopped s k l ti t).launch? o = some y) :
    taskFault s k l ti t = postReady (failStep (dropLaunch (taskStopped s k l ti t) l.id) y) l.part := by
  unfold taskStopped at *
  simp only [taskFault, hk, hy]

/-- The launches that ask for a stand's self-test in the name of a partition, where the stand has one (17 X19). -/
def testLaunches (s : State) (k : Nat) : Option Nat → List Launch
  | some i => [ownLaunch s i (.standTest k) 24]
  | none => []

/-- A stand's self-test is posted with its request for 24 A, or nothing happens. -/
theorem standTestIn_eq (s : State) (k : Nat) (part : Option Nat) :
    standTestIn s k part = { s with
      nextId := s.nextId + (testLaunches s k part).length
      launches := s.launches ++ testLaunches s k part
      cut := { s.cut with requests := s.cut.requests ++ (testLaunches s k part).map fun z =>
        ⟨z.id, z.part, 24, z.target, z.target - 512, 0, none⟩ } } := by
  cases part with
  | none => simp [standTestIn, testLaunches]
  | some i => rfl

/-- A stand leaves service for its self-test, and its fault is counted (15 R414; 17 X19). -/
theorem standFault_eq {s : State} {k : Nat} {y : Stand} (hy : s.stands[k]? = some y) :
    ∃ ctr, lookupD ctr ⟨.unitFault, 0, 0⟩ 0 = lookupD s.ctr ⟨.unitFault, 0, 0⟩ 0 + 1 ∧
      standFault s k = { s with
        stands := s.stands.set k { y with status := .testing, task := none, faults := recent s dayCounts y.faults ++ [s.now] }
        ctr := ctr
        nextId := s.nextId + (testLaunches s k y.part).length
        launches := s.launches ++ testLaunches s k y.part
        cut := { s.cut with requests := s.cut.requests ++ (testLaunches s k y.part).map fun z =>
          ⟨z.id, z.part, 24, z.target, z.target - 512, 0, none⟩ } } := by
  let w : State := { s with
    stands := s.stands.set k { y with status := .testing, task := none, faults := recent s dayCounts y.faults ++ [s.now] } }
  have ht : testLaunches { w with ctr := (bump w .unitFault 0 0 1).ctr } k y.part = testLaunches s k y.part := by
    cases y.part <;> rfl
  refine ⟨(bump w .unitFault 0 0 1).ctr, lookupD_bump_self w _ _ _ _, ?_⟩
  unfold standFault
  rw [modStand_some hy, (onlyCtr_bump w _ _ _ _).eq, hy, Option.bind_some, standTestIn_eq, ht]

/-! ### The commands -/

theorem exec_launchFire {s : State} (h : s.power.railTripped = false) (n : Nat) :
    exec (.launchFire n) s = .next (launchFire n s) := live_next h

theorem exec_standTaskComplete {s : State} (h : s.power.railTripped = false) (n : Nat) :
    exec (.standTaskComplete n) s = .next (taskComplete n s) := live_next h

/-- Without a task on the stand none of the three commands does anything. -/
theorem exec_of_idle_stand {s : State} {n : Nat} (h : s.power.railTripped = false) (hn : runningTask s n = none) :
    exec (.standTaskComplete n) s = .next s ∧ exec (.arrayResidueFault n) s = .next s ∧ exec (.taskWatchdog n) s = .next s := by
  refine ⟨?_, ?_, ?_⟩
  · rw [exec_standTaskComplete h, taskComplete, hn]
  · show execArrayResidueFault n s = _
    rw [execArrayResidueFault, hn, live_next h]
  · show execTaskWatchdog n s = _
    rw [execTaskWatchdog, hn, live_next h]

section
variable {s : State} {n k ti : Nat} {l : Launch} {t : Task}

theorem exec_standTaskComplete_waits (h : s.power.railTripped = false) (hn : runningTask s n = some (k, l, ti, t))
    (hf : flowHolds s l.part .stand = true) :
    exec (.standTaskComplete n) s = .next (s.modReg l.part .stand fun r => { r with waiting := true }) := by
  rw [exec_standTaskComplete h, taskComplete, hn]
  simp only [regulated, hf, if_true]

theorem exec_standTaskComplete_done (h : s.power.railTripped = false) (hn : runningTask s n = some (k, l, ti, t))
    (hf : flowHolds s l.part .stand = false) : exec (.standTaskComplete n) s = .next (taskDone n s) := by
  rw [exec_standTaskComplete h, taskComplete, hn]
  simp only [regulated, hf, Bool.false_eq_true, if_false]

theorem exec_arrayResidueFault (h : s.power.railTripped = false) (hn : runningTask s n = some (k, l, ti, t)) :
    exec (.arrayResidueFault n) s = .next (taskFault s k l ti t) := by
  show execArrayResidueFault n s = _
  rw [execArrayResidueFault, hn, live_next h]

/-- The watchdog is the task's fault from its time on, and nothing before (04 R106). -/
theorem exec_taskWatchdog (h : s.power.railTripped = false) (hn : runningTask s n = some (k, l, ti, t)) :
    exec (.taskWatchdog n) s =
      if l.fired.getD 0 + watchdogCounts t.watchdog ≤ s.now then exec (.arrayResidueFault n) s else .next s := by
  rw [exec_arrayResidueFault h hn]
  show execTaskWatchdog n s = _
  rw [execTaskWatchdog, hn, live_next h]
  exact apply_ite Host.Outcome.next _ _ _

end

/-- Settles O41. A launch that may fire leaves the fired state with its counters raised; a task that ends or faults goes by the
rules of its run, of its stand and of its launch. -/
theorem launchesAndTasks : Obligations.LaunchesAndTasks := by
  unfold Obligations.LaunchesAndTasks
  constructor
  · intro n s hrail
    refine ⟨fun hn => by rw [exec_launchFire hrail, launchFire_of_none hn], fun l hl => ⟨fun hnot => ?_, ⟨?_, ?_, ?_⟩, ?_⟩⟩
    · rw [exec_launchFire hrail, launchFire_of_not hl (mayFire_eq_false hnot)]
    · rw [← id_of_launch hl]
      exact fun h => mem_launchHolds
    · exact sum_launchHolds
    · rw [← id_of_launch hl]
      exact fun he ht k x => taskHold_mem he ht
    · intro e hp hf ht ho hg hfrom huntil
      have hm : mayFire s l = true := mayFire_iff.2 ⟨hp, hf, ht, ho, e, hg, hfrom, huntil⟩
      have hc := (countFired_onlyCtr l (firedState n l s)).eq
      refine ⟨(countFired l (firedState n l s)).ctr, lookupD_countFired l _, fun hr => ?_, fun g hr => ?_⟩
      · rw [exec_launchFire hrail, launchFire_unreleased hl hm hr, hc]
        rfl
      · rw [exec_launchFire hrail, launchFire_released hl hm hr, hc]
        rfl
  · intro n s hrail
    refine ⟨exec_of_idle_stand hrail, fun k l ti t x hrun hx => ?_⟩
    refine ⟨exec_standTaskComplete_waits hrail hrun, runBody_record hx l, ?_, ⟨?_, ?_, fun y => standFault_eq⟩, ?_, ?_⟩
    · rintro hf ⟨j, y, hj, hy, hd⟩ hr
      rw [exec_standTaskComplete_done hrail hrun hf, taskDone_of_open hrun hr hj hy hd]
      rfl
    · intro hr
      rw [exec_arrayResidueFault hrail hrun, taskFault_first hr]
      rfl
    · intro o j y hk hy
      rw [exec_arrayResidueFault hrail hrun]
      exact congrArg _ (taskFault_again hk hy)
    · intro h
      rw [exec_taskWatchdog hrail hrun, if_pos h]
    · intro h
      rw [exec_taskWatchdog hrail hrun, if_neg (by omega)]

end Sys2Proof.Laws
end

section
/-! SUPPORT. Move descriptors that start and fills that end: what a regulator does to accesses, the front descriptor of a launch
by what the check of its footprints finds, a fill by where its bytes come from, and a fill's failure by its cause. The section
settles O42. -/

namespace Sys2Proof.Laws

open Sys2Proof Sys2Proof.Machine

/-! ### Accesses and their regulator (13 R353) -/

theorem regulated_of_holds {s : State} {i : Nat} {k : Flowing} (h : flowHolds s i k = true) (f : State → State) :
    regulated i k f s = s.modReg i k fun r => { r with waiting := true } := if_pos h

theorem regulated_of_passes {s : State} {i : Nat} {k : Flowing} (h : flowHolds s i k = false) (f : State → State) :
    regulated i k f s = f s := if_neg (by simp [h])

/-! ### The front descriptor of a launch (06 R170, R171) -/

theorem exec_moveDescriptorStart {s : State} (h : s.power.railTripped = false) (n : Nat) :
    exec (.moveDescriptorStart n) s = .next (match nextMove s n with
      | some x => regulated x.1 x.2 (moveStart n) s
      | none => s) := live_next h

/-- Without a descriptor to start nothing happens. -/
theorem exec_moveDescriptorStart_of_none {s : State} {n : Nat} (h : s.power.railTripped = false) (hn : nextMove s n = none) :
    exec (.moveDescriptorStart n) s = .next s := by
  rw [exec_moveDescriptorStart h, hn]

theorem nextMove_of_no_launch {s : State} {n : Nat} (h : s.launch? n = none) : nextMove s n = none := by
  simp [nextMove, h]

section
variable {s : State} {n : Nat} {l : Launch} {raw : List Byte} {rest : List (List Byte)}

theorem nextMove_of_no_moves (hl : s.launch? n = some l) (hm : l.moves = []) : nextMove s n = none := by
  simp [nextMove, hl, hm]

theorem nextMove_of_front (hl : s.launch? n = some l) (hm : l.moves = raw :: rest) :
    nextMove s n = some (l.part, (descParse raw).flow) := by
  simp [nextMove, hl, hm]

theorem exec_moveDescriptorStart_waits (h : s.power.railTripped = false) (hl : s.launch? n = some l) (hm : l.moves = raw :: rest)
    (hf : flowHolds s l.part (descParse raw).flow = true) :
    exec (.moveDescriptorStart n) s = .next (s.modReg l.part (descParse raw).flow fun r => { r with waiting := true }) := by
  rw [exec_moveDescriptorStart h, nextMove_of_front hl hm]
  exact congrArg _ (regulated_of_holds hf _)

theorem exec_moveDescriptorStart_passes (h : s.power.railTripped = false) (hl : s.launch? n = some l) (hm : l.moves = raw :: rest)
    (hf : flowHolds s l.part (descParse raw).flow = false) :
    exec (.moveDescriptorStart n) s = .next (moveStart n s) := by
  rw [exec_moveDescriptorStart h, nextMove_of_front hl hm]
  exact congrArg _ (regulated_of_passes hf _)

/-- A launch's front descriptor can start once the launch is posted and nothing before the descriptor is open. -/
theorem moveReady_iff (hm : l.moves = raw :: rest) :
    moveReady l = true ↔ l.posted = true ∧ l.gather = none ∧ l.awaits = [] := by
  simp [moveReady, hm, and_assoc]

/-- A descriptor does not start before its launch is ready or out of the Skidder's turn. -/
theorem moveStart_of_not_due (hl : s.launch? n = some l) (hm : l.moves = raw :: rest)
    (h : moveReady l = false ∨ skidderTurn s ≠ some l.part) : moveStart n s = s := by
  have hnot : (!moveReady l || skidderTurn s != some l.part) = true := by simpa using h
  simp only [moveStart, hl, hm, hnot, if_true]

/-- What keeps a launch's front descriptor from being ready. -/
theorem moveReady_eq_false (h : l.posted = false ∨ l.gather.isSome = true ∨ l.awaits ≠ []) : moveReady l = false := by
  rcases h with h | h | h
  · simp [moveReady, h]
  · obtain ⟨g, hg⟩ := Option.isSome_iff_exists.1 h
    simp [moveReady, hg]
  · simp [moveReady, h]

/-! The front descriptor starts: `u` is the state in which the Skidder has served the launch's partition. -/

section
variable {u : State} (hl : s.launch? n = some l) (hm : l.moves = raw :: rest) (hr : moveReady l = true)
  (ht : skidderTurn s = some l.part) (hu : u = skidderServed s l.part)
include hl hm hr ht hu

/-- Footprints outside the partition's Landing or T1. -/
theorem moveStart_landing (hc : (descParse raw).check (u.part l.part) [] (u.landBytes l.part) = .landing) :
    moveStart n s = protection u l.part := by
  subst hu
  simp [moveStart, hl, hm, hr, ht, hc]

/-- Footprints outside the partition's host ranges. -/
theorem moveStart_host (hc : (descParse raw).check (u.part l.part) [] (u.landBytes l.part) = .host) :
    moveStart n s = enterFaulted (bump u .hostProt l.part 0 1) l.part := by
  subst hu
  simp [moveStart, hl, hm, hr, ht, hc]

/-- Footprints outside both. -/
theorem moveStart_both (hc : (descParse raw).check (u.part l.part) [] (u.landBytes l.part) = .both) :
    moveStart n s = protection (bump u .hostProt l.part 0 1) l.part := by
  subst hu
  simp [moveStart, hl, hm, hr, ht, hc]

/-- From T1 or a peer a fill starts. -/
theorem moveStart_fill (hc : (descParse raw).check (u.part l.part) [] (u.landBytes l.part) = .ok)
    (hs : (descParse raw).srcSpace ≠ 0) : moveStart n s = moveFill u l raw (descParse raw) := by
  subst hu
  simp [moveStart, hl, hm, hr, ht, hc, hs]

section
variable (hc : (descParse raw).check (u.part l.part) [] (u.landBytes l.part) = .ok) (hs : (descParse raw).srcSpace = 0)
include hc hs

/-- From the Landing, where the sectors to write leave the T1 share. -/
theorem moveStart_misfit
    (hd : chipDstFits u l.part (descParse raw) ((descParse raw).source (u.landBytes l.part)) = false) :
    moveStart n s = protection u l.part := by
  subst hu
  simp [moveStart, hl, hm, hr, ht, hc, hs, hd]

/-- From the Landing the bytes move at once. -/
theorem moveStart_runs {w : State}
    (hd : chipDstFits u l.part (descParse raw) ((descParse raw).source (u.landBytes l.part)) = true)
    (hw : runDesc u l.part (descParse raw) ((descParse raw).source (u.landBytes l.part)) = some w) :
    moveStart n s = moveDone w n := by
  subst hu
  simp [moveStart, hl, hm, hr, ht, hc, hs, hd, hw]

/-- From the Landing, where a block to read does not decode. -/
theorem moveStart_undecoded
    (hd : chipDstFits u l.part (descParse raw) ((descParse raw).source (u.landBytes l.part)) = true)
    (hw : runDesc u l.part (descParse raw) ((descParse raw).source (u.landBytes l.part)) = none) :
    moveStart n s = failBatch u l .fault := by
  subst hu
  simp [moveStart, hl, hm, hr, ht, hc, hs, hd, hw]

end

end

/-- A descriptor whose source lies in T1 starts a fill, and its launch awaits it. -/
theorem moveFill_t1 {d : Desc} (h : d.srcSpace = 1) : moveFill s l raw d = { s with
    nextId := s.nextId + 1
    fills := s.fills ++ [{ id := s.nextId, part := l.part, space := 1, peer := 0, addr := d.srcSpan.1.toNat
                           len := (d.srcSpan.2 - d.srcSpan.1).toNat, forWhat := .move l.id raw, issued := s.now, got := [] }]
    launches := s.launches.map fun x => if x.id = l.id then { x with awaits := x.awaits ++ [s.nextId] } else x } :=
  if_pos h

/-- A peer that cannot be asked leaves the batch without its bytes. -/
theorem moveFill_unreached {d : Desc} (h : d.srcSpace ≠ 1) (hp : peerUp s (w16 d.peer) = false) :
    moveFill s l raw d = failBatch s l .timeout := by
  simp [moveFill, h, hp]

end

/-! ### A fill completes (05 R131, R136, R144) -/

theorem id_of_fill {s : State} {n : Nat} {f : Fill} (h : s.fill? n = some f) : f.id = n := by
  simpa using List.find?_some h

theorem exec_fillComplete {s : State} (h : s.power.railTripped = false) (n : Nat) (d : List Byte) :
    exec (.fillComplete n d) s = .next (fillComplete n d s) := live_next h

theorem fillComplete_of_none {s : State} {n : Nat} (h : s.fill? n = none) (d : List Byte) : fillComplete n d s = s := by
  simp [fillComplete, h]

/-- The bytes of a fill from outside: those that have arrived for it, or while some are missing those that come with its
completion. -/
def brought (f : Fill) (d : List Byte) : List Byte := if f.len ≤ f.got.length then f.got else d

theorem brought_of_arrived {f : Fill} (h : f.len ≤ f.got.length) (d : List Byte) : brought f d = f.got := if_pos h

theorem brought_of_missing {f : Fill} (h : f.got.length < f.len) (d : List Byte) : brought f d = d := if_neg (by omega)

theorem fillBlocked_iff {s : State} {f : Fill} : fillBlocked s f = true ↔
    ∃ pg ∈ fillPages s f, pagePoisoned s f.part pg = true ∨ repairOf s f.part pg = true := by
  simp [fillBlocked]

theorem fillBlocked_eq_false {s : State} {f : Fill} : fillBlocked s f = false ↔
    ∀ pg ∈ fillPages s f, pagePoisoned s f.part pg = false ∧ repairOf s f.part pg = false := by
  simp [fillBlocked]

section
variable {s : State} {n : Nat} {f : Fill}

theorem exec_fillComplete_waits (h : s.power.railTripped = false) (hf : s.fill? n = some f)
    (hh : flowHolds s f.part (fillFlow f) = true) (d : List Byte) :
    exec (.fillComplete n d) s = .next (s.modReg f.part (fillFlow f) fun r => { r with waiting := true }) := by
  rw [exec_fillComplete h, fillComplete, hf]
  exact congrArg _ (regulated_of_holds hh _)

theorem exec_fillComplete_passes (h : s.power.railTripped = false) (hf : s.fill? n = some f)
    (hh : flowHolds s f.part (fillFlow f) = false) (d : List Byte) :
    exec (.fillComplete n d) s = .next (fillTake f d s) := by
  rw [exec_fillComplete h, fillComplete, hf]
  exact congrArg _ (regulated_of_passes hh _)

/-- A fill from T1 takes the bytes of T1: inside the share, and once none of its pages is held. -/
theorem fillTake_t1 (h1 : f.space = 1) (hs : ∀ c t, f.forWhat ≠ .spill c t) (d : List Byte) :
    fillTake f d s =
      if t1Ok (s.part f.part).frames (fillRange s f (fillT1 s f)).1 (fillRange s f (fillT1 s f)).2 = false then
        protection s f.part
      else if fillBlocked s f = true then fillPartial s f (intactT1 s f)
      else fillArrived (readCorrects s f.part (fillPages s f)) f (fillT1 s f) := by
  unfold fillTake
  split
  next c t e => exact absurd e (hs c t)
  next => simp [h1]

/-- A fill from outside takes what it was brought, once all the bytes that it reads are there. -/
theorem fillTake_outside (h1 : f.space ≠ 1) (hs : ∀ c t, f.forWhat ≠ .spill c t) (d : List Byte) :
    fillTake f d s =
      if (brought f d).length < f.len ∨ (brought f d).length < (fillRange s f (fillGot f (brought f d))).2 then s
      else fillArrived (dropAsked s f.id) f (fillGot f (brought f d)) := by
  unfold fillTake brought
  split
  next c t e => exact absurd e (hs c t)
  next => simp [h1]

end

/-! ### A fill fails (05 R135, R136, R141) -/

theorem exec_fillFailed {s : State} (h : s.power.railTripped = false) (n : Nat) (c : FillCause) :
    exec (.fillFailed n c) s = .next (fillFailed n c s) := live_next h

theorem exec_t2FillTimeout {s : State} (h : s.power.railTripped = false) (n : Nat) :
    exec (.t2FillTimeout n) s = .next (t2Timeout n s) := live_next h

theorem poisonPage_of_intact {s : State} {page : Nat} (h : page ∉ s.t1.poison) :
    poisonPage s page = { s with t1 := { s.t1 with
      poison := page :: s.t1.poison
      poisonAt := (s.t1.poisonAt.filter fun e => decide (s.now < e.2 + dayCounts)) ++ [(s.t1.channelOf page, s.now)] } } :=
  if_neg (by simpa using h)

/-- A word that stays uncorrectable in a page not yet poisoned: the page is poisoned, and nothing changes but the poison and the
counters. -/
theorem pageError_of_intact {s : State} {page : Nat} (h : page ∉ s.t1.poison) :
    ∃ at_ ctr, pageError s page = { s with
      t1 := { s.t1 with poison := page :: s.t1.poison, poisonAt := at_ }
      ctr := ctr } := by
  have hp : pageError s page = bump (poisonPage s page) .memUe 0 (s.t1.channelOf page) 1 := if_neg (by simpa using h)
  rw [hp, poisonPage_of_intact h, (onlyCtr_bump _ _ _ _ _).eq]
  exact ⟨_, _, rfl⟩

section
variable {s : State} {n : Nat} {f : Fill}

theorem fillFailed_of_none (h : s.fill? n = none) (c : FillCause) : fillFailed n c s = s := by
  simp [fillFailed, h]

/-- The error of a source outside ends the fill; a fill from T1 has no such source. -/
theorem fillFailed_t2Source (h : s.fill? n = some f) :
    fillFailed n .t2Source s = if f.space = 1 then s else sourceFails s f .fault := by
  simp [fillFailed, h]

theorem fillFailed_uncorrectable {page pg : Nat} (h : s.fill? n = some f) (hp : pageHome s page = some (f.part, pg))
    (hm : pg ∈ fillPages s f) :
    fillFailed n (.uncorrectable page) s =
      pageLost (fillPartial (pageError s page) f (intactT1 (pageError s page) f)) f.part pg := by
  simp [fillFailed, h, hp, hm]

/-- A Chipper object that does not decode as it is loaded ends its load. -/
theorem fillFailed_chipper_load {t : Nat} (h : s.fill? n = some f) (hw : f.forWhat = .load t)
    (hc : (fillObject s f).any (·.2) = true) :
    fillFailed n .chipper s = loadEnds ((dropAsked s n).dropFill n) t .invalid := by
  simp [fillFailed, h, hw, hc]

/-- The bound of a fill from outside: 100 ms after it was issued, and not before. -/
theorem t2Timeout_of_fill (h : s.fill? n = some f) :
    t2Timeout n s = if f.space ≠ 1 ∧ f.issued + 100000000 ≤ s.now then sourceFails s f .timeout else s := by
  simp only [t2Timeout, h, Bool.and_eq_true, bne_iff_ne, decide_eq_true_eq]
  rfl

end

/-- Settles O42. A front descriptor that is due goes by what its check finds and by its source; a fill goes by where its bytes
come from, and a failure by its cause. -/
theorem movesAndFills : Obligations.MovesAndFills := by
  unfold Obligations.MovesAndFills
  constructor
  · intro n s hrail
    refine ⟨fun hn => exec_moveDescriptorStart_of_none hrail (nextMove_of_no_launch hn), fun l hl =>
      ⟨fun hm => exec_moveDescriptorStart_of_none hrail (nextMove_of_no_moves hl hm), fun raw rest hm => ?_⟩⟩
    refine ⟨exec_moveDescriptorStart_waits hrail hl hm, fun hf hnot => ?_, fun hf hp hg ha ht => ?_⟩
    · rw [exec_moveDescriptorStart_passes hrail hl hm hf, moveStart_of_not_due hl hm]
      rcases hnot with h | h | h | h
      · exact .inl (moveReady_eq_false (.inl h))
      · exact .inl (moveReady_eq_false (.inr (.inl h)))
      · exact .inl (moveReady_eq_false (.inr (.inr h)))
      · exact .inr h
    · have hr : moveReady l = true := (moveReady_iff hm).2 ⟨hp, hg, ha⟩
      rw [exec_moveDescriptorStart_passes hrail hl hm hf]
      refine ⟨fun hc => ?_, fun hc => ?_, fun hc => ?_, fun hc => ⟨fun hs => ⟨fun hd => ?_, fun hd => ⟨fun w hw => ?_,
        fun hw => ?_⟩⟩, fun hs => ?_, fun hs0 hs1 hup => ?_⟩⟩
      · exact congrArg _ (moveStart_landing hl hm hr ht rfl hc)
      · exact congrArg _ (moveStart_host hl hm hr ht rfl hc)
      · exact congrArg _ (moveStart_both hl hm hr ht rfl hc)
      · exact congrArg _ (moveStart_misfit hl hm hr ht rfl hc hs hd)
      · exact congrArg _ (moveStart_runs hl hm hr ht rfl hc hs hd hw)
      · exact congrArg _ (moveStart_undecoded hl hm hr ht rfl hc hs hd hw)
      · exact congrArg _ ((moveStart_fill hl hm hr ht rfl hc (by omega)).trans (moveFill_t1 hs))
      · exact congrArg _ ((moveStart_fill hl hm hr ht rfl hc hs0).trans (moveFill_unreached hs1 hup))
  · intro n s hrail
    refine ⟨fun hn d c => ?_, fun f hf => ⟨exec_fillComplete_waits hrail hf, fun hh h1 hs d => ⟨fun hr => ?_, fun hr =>
      ⟨fun hb => ?_, fun hb => ?_⟩⟩, fun hh h1 hs d hlen hrange => ?_, fun hh h1 hs d hgot hdata => ?_, fun h1 => ?_,
      fun h1 => ?_, fun page pg hp hm hnew => ?_, fun t hw hc => ?_, fun h1 hlate => ?_, fun h => ?_⟩⟩
    · rw [exec_fillComplete hrail, fillComplete_of_none hn, exec_fillFailed hrail, fillFailed_of_none hn]
      exact ⟨rfl, rfl⟩
    · rw [exec_fillComplete_passes hrail hf hh, fillTake_t1 h1 hs, if_pos hr]
    · rw [exec_fillComplete_passes hrail hf hh, fillTake_t1 h1 hs, if_neg (by simp [hr]), if_pos (fillBlocked_iff.2 hb)]
    · rw [exec_fillComplete_passes hrail hf hh, fillTake_t1 h1 hs, if_neg (by simp [hr]),
        if_neg (by simp [fillBlocked_eq_false.2 hb])]
    · rw [exec_fillComplete_passes hrail hf hh, fillTake_outside h1 hs, brought_of_arrived hlen, if_neg (by omega),
        id_of_fill hf]
    · rw [exec_fillComplete_passes hrail hf hh, fillTake_outside h1 hs, brought_of_missing hgot, if_pos (.inl hdata)]
    · rw [exec_fillFailed hrail, fillFailed_t2Source hf, if_neg h1]
    · rw [exec_fillFailed hrail, fillFailed_t2Source hf, if_pos h1]
    · obtain ⟨at_, ctr, he⟩ := pageError_of_intact hnew
      refine ⟨pageError s page, ?_, by rw [he], by rw [he]⟩
      rw [exec_fillFailed hrail, fillFailed_uncorrectable hf hp hm]
    · rw [exec_fillFailed hrail, fillFailed_chipper_load hf hw hc]
    · rw [exec_t2FillTimeout hrail, t2Timeout_of_fill hf, if_pos ⟨h1, hlate⟩]
    · rw [exec_t2FillTimeout hrail, t2Timeout_of_fill hf, if_neg (by omega)]

end Sys2Proof.Laws
end

section
/-! SUPPORT. Gathers and updates that a request submits: an accepted command whose room check fails, the rows a gather asks for
and the job it leaves, and the holders an update reaches. The section settles O33. -/

namespace Sys2Proof.Laws

open Sys2Proof Sys2Proof.Machine

/-! ### Engine commands of a partition (02 R51) -/

/-- The partition that an engine command acts on is the serving one of its pair. -/
theorem part_reqPid_of_engineState {r : Req} {s : State} (h : engineState s r = true) : s.part (reqPid s r) = reqPart s r := by
  unfold engineState at h
  unfold reqPid
  unfold reqPart at h ⊢
  cases hp : pairPart s r with
  | some p => rfl
  | none => simp [hp, Partition.unbound] at h

section
variable {c : Code} {r : Req} {s : State}

theorem engineState_counted (h : (s.pair r.pair).bound = true) : engineState (counted r s) r = engineState s r := by
  unfold engineState
  rw [reqPart_counted h]

theorem findTable_counted (i id : Nat) : findTable (counted r s) i id = findTable s i id := rfl

theorem appliedHere_counted (tb : Table) : appliedHere (counted r s) tb = appliedHere s tb := rfl

theorem localShard_came (tb : Table) (k : Nat) : localShard (came c r s) tb k = localShard s tb k := rfl

theorem bound_of_accepted (h : Accepted c r s) : (s.pair r.pair).bound = true := by
  obtain ⟨⟨⟨-, -, -, hb, -⟩, -⟩, -⟩ := h
  exact hb

/-- The row of an accepted command runs it with its ticket. -/
theorem live_enter_accepted (h : Accepted c r s) (cmd : Req → Nat → State → State) :
    live s (enter c cmd r s) = .next (cmd r s.nextId (counted r s)) := by
  obtain ⟨hturn, -⟩ := h
  have ⟨⟨hrail, _⟩, _⟩ := hturn
  rw [live_next hrail, enter_inTurn hturn]

/-- An accepted command that only lacks room completes with the status of that check. -/
theorem runCmd_no_room {part : Option Nat} {n : Need} {eff : Nat → State → State} {st : Status} (h : Accepted c r s)
    (hp : part = commandPart s c r) (hf : n.form = true) (hs : n.state = true) (hn : n.found = true) (hr : n.room = some st) :
    runCmd c part n eff r s.nextId (counted r s) = finishPlain (came c r s) s.nextId st n.detail := by
  have hb := bound_of_accepted h
  obtain ⟨hturn, hperm, hhead, hdig, -⟩ := h
  refine runCmd_fails hturn hp ?_ (firstFail_counted hb)
  simp [firstFail, hperm, hhead, hdig, hf, hs, hn, hr]

end

/-! ### Units that take work leave the calls of peers alone -/

section
variable (s : State)

@[simp] theorem takeWork_calls (i owner n : Nat) : (takeWork s i owner n).calls = s.calls := by
  unfold takeWork
  split
  · rfl
  · split <;> rfl

@[simp] theorem assignUnit_calls (u : EngineUnit) (j : Job) : (assignUnit s u j).calls = s.calls :=
  takeWork_calls s j.part j.id j.room

@[simp] theorem giveUnit_calls (u : EngineUnit) (j : Job) : (giveUnit s u j).calls = s.calls := by
  unfold giveUnit
  dsimp only
  split <;> exact assignUnit_calls s u j

@[simp] theorem feedUnit_calls (u : EngineUnit) : (feedUnit s u).calls = s.calls := by
  unfold feedUnit
  split
  next x _ =>
    split
    · split
      · exact giveUnit_calls s u _
      · rfl
    · rfl
  next => rfl

@[simp] theorem feedUnits_calls : (feedUnits s).calls = s.calls := by
  unfold feedUnits
  refine List.foldlRecOn (motive := fun t : State => t.calls = s.calls) s.units _ rfl fun t ht x _ => ?_
  rw [feedUnit_calls, ht]

end

/-! ### A gather begins (08 R221, R222) -/

/-- Rows of this module's own shards are asked of nobody. -/
theorem askRows_of_local {s : State} {tb : Table} {items : List (Nat × Nat × Nat)}
    (h : ∀ x ∈ items, (localShard s tb x.2.1).isSome = true) (i job after : Nat) :
    askRows s i job tb after items = (s, true) := by
  have haway : (items.filter fun x => (localShard s tb x.2.1).isNone) = [] := by
    rw [List.filter_eq_nil_iff]
    intro x hx
    simp [Option.isSome_iff_ne_none.1 (h x hx)]
  unfold askRows
  rw [haway]
  rfl

theorem id_ne_of_mem_dropGather {s : State} {job : Nat} {j : Job} (h : j ∈ (dropGather s job).jobs) : j.id ≠ job := by
  have hk : (!([job] : List Nat).contains j.id) = true := (List.mem_filter.1 h).2
  simpa using hk

section
variable {s : State} {i t after fmt : Nat} {tb : Table} {parts : List (List Nat)}

/-- The state in which the job of a gather stands in line with the room that it needs. -/
def gatherInLine (s : State) (i t : Nat) (tb : Table) (fmt : Nat) (parts : List (List Nat)) : State :=
  (addJob s i t none .gather).modJob s.nextId fun j => { j with room := gatherRoom tb fmt parts }

theorem localShard_gatherInLine (k : Nat) : localShard (gatherInLine s i t tb fmt parts) tb k = localShard s tb k := rfl

/-- A gather whose rows cannot all be asked for is dropped again. -/
theorem gatherBegin_of_not_asked
    (h : (askRows (gatherInLine s i t tb fmt parts) i s.nextId tb after (gatherItems tb parts.flatten)).2 = false) :
    gatherBegin s i t tb after fmt parts = (dropGather
      (askRows (gatherInLine s i t tb fmt parts) i s.nextId tb after (gatherItems tb parts.flatten)).1 s.nextId, false) :=
  if_neg (by simpa [gatherInLine] using h)

/-- A gather whose rows are all asked for begins. -/
theorem gatherBegin_of_asked
    (h : (askRows (gatherInLine s i t tb fmt parts) i s.nextId tb after (gatherItems tb parts.flatten)).2 = true) :
    gatherBegin s i t tb after fmt parts = (feedUnits
      (askRows (gatherInLine s i t tb fmt parts) i s.nextId tb after (gatherItems tb parts.flatten)).1, true) :=
  if_pos h

/-- A gather that cannot ask for all its rows leaves no job. -/
theorem gatherBegin_fails_no_job (h : (gatherBegin s i t tb after fmt parts).2 = false) :
    ∀ j ∈ (gatherBegin s i t tb after fmt parts).1.jobs, j.id ≠ s.nextId := by
  cases hask : (askRows (gatherInLine s i t tb fmt parts) i s.nextId tb after (gatherItems tb parts.flatten)).2 with
  | true =>
    rw [gatherBegin_of_asked hask] at h
    cases h
  | false =>
    rw [gatherBegin_of_not_asked hask]
    exact fun j hj => id_ne_of_mem_dropGather hj

/-- A gather of rows that this module serves itself begins, and asks nobody. -/
theorem gatherBegin_of_local (h : ∀ x ∈ gatherItems tb parts.flatten, (localShard s tb x.2.1).isSome = true) :
    (gatherBegin s i t tb after fmt parts).2 = true ∧ (gatherBegin s i t tb after fmt parts).1.calls = s.calls := by
  have hask : askRows (gatherInLine s i t tb fmt parts) i s.nextId tb after (gatherItems tb parts.flatten) =
      (gatherInLine s i t tb fmt parts, true) :=
    askRows_of_local (by simpa only [localShard_gatherInLine] using h) _ _ _
  rw [gatherBegin_of_asked (by rw [hask]), hask]
  exact ⟨rfl, feedUnits_calls _⟩

end

/-! ### GATHER_SUBMIT (08 R222, R225, R227) -/

/-- The own checks of a GATHER_SUBMIT whose table is there (08 R225, R227). -/
def gatherNeed (r : Req) (s : State) (tb : Table) : Need :=
  { form := gatherForm r.pay && (gatherIdx r.pay).all (indexOkFor tb)
    state := engineState s r, found := true
    room := if gatherForm r.pay && (submitParts (reqPart s r) tb r.pay).isNone then some .noSpace else none
    detail := 0 }

/-- The state that the beginning of a gather leaves: its command ends with ST_TIMEOUT where not all rows can be asked for. -/
def gatherAnswer (t : Nat) (g : State × Bool) : State := if g.2 = true then g.1 else finishPlain g.1 t .timeout 0

section
variable {r : Req} {s : State} {tb : Table} (h : Accepted .gatherSubmit r s)
  (ht : findTable s (reqPid s r) (fld r.pay 0 1) = some tb)
include h ht

/-- An accepted GATHER_SUBMIT of a table that is there goes by its own checks, then begins. -/
theorem exec_gatherSubmit :
    exec (.gatherSubmit r) s = .next (runCmd .gatherSubmit (commandPart s .gatherSubmit r) (gatherNeed r s tb)
      (fun t u => gatherAnswer t (gatherBegin u (reqPid s r) t tb (fld r.pay 0xC 4) (slotFmt r.pay)
        ((submitParts (u.part (reqPid s r)) tb r.pay).getD []))) r s.nextId (counted r s)) := by
  have hb := bound_of_accepted h
  refine (live_enter_accepted h cmdGatherSubmit).trans (congrArg _ ?_)
  simp only [cmdGatherSubmit, reqPid_counted hb, findTable_counted, ht, pairPart_counted hb, reqPart_counted hb,
    engineState_counted hb]
  rfl

section
variable (hs : engineState s r = true) (hf : gatherForm r.pay = true) (hi : (gatherIdx r.pay).all (indexOkFor tb) = true)
include hs hf hi

/-- A gather that can be divided begins with its parts. -/
theorem exec_gatherSubmit_begins {parts : List (List Nat)} (hp : submitParts (reqPart s r) tb r.pay = some parts) :
    exec (.gatherSubmit r) s = .next (gatherAnswer s.nextId
      (gatherBegin (came .gatherSubmit r s) (reqPid s r) s.nextId tb (fld r.pay 0xC 4) (slotFmt r.pay) parts)) := by
  have hpart : (came .gatherSubmit r s).part (reqPid s r) = reqPart s r := part_reqPid_of_engineState hs
  rw [exec_gatherSubmit h ht, runCmd_accepted h rfl (by simp [gatherNeed, hf, hi]) hs rfl (by simp [gatherNeed, hp]), hpart, hp,
    Option.getD_some]

/-- A gather that cannot be divided to fit ends with ST_NO_SPACE. -/
theorem exec_gatherSubmit_no_room (hp : submitParts (reqPart s r) tb r.pay = none) :
    exec (.gatherSubmit r) s = .next (finishPlain (came .gatherSubmit r s) s.nextId .noSpace 0) := by
  have hroom : (gatherNeed r s tb).room = some .noSpace := by simp [gatherNeed, hf, hp]
  rw [exec_gatherSubmit h ht, runCmd_no_room h rfl (by simp [gatherNeed, hf, hi]) hs rfl hroom]
  rfl

end

end

/-! ### UPDATE_SUBMIT (08 R231, R235) -/

theorem mem_distinct {α : Type} [BEq α] [LawfulBEq α] {a : α} {l : List α} : a ∈ distinct l ↔ a ∈ l := by
  have hstep (acc : List α) (b : α) : a ∈ (if acc.contains b then acc else b :: acc) ↔ a ∈ acc ∨ a = b := by
    split
    next hb =>
      refine ⟨.inl, fun h => h.elim id ?_⟩
      rintro rfl
      exact List.contains_iff_mem.1 hb
    next => rw [List.mem_cons, or_comm]
  have hfold : ∀ acc : List α,
      a ∈ l.foldl (fun (acc : List α) b => if acc.contains b then acc else b :: acc) acc ↔ a ∈ acc ∨ a ∈ l := by
    induction l with
    | nil => simp
    | cons b l ih =>
      intro acc
      rw [List.foldl_cons, ih, hstep, or_assoc, List.mem_cons]
  rw [distinct, List.mem_reverse, hfold]
  simp

/-- The modules that own or replicate a shard of a table (08 R231). -/
def tableHolders (tb : Table) : List Nat :=
  distinct (tb.shards.flatMap fun x => x.owner :: if x.replica = 0xFFFF then [] else [x.replica])

/-- A module that holds a shard is among the holders of the table. -/
theorem mem_tableHolders_of_holdsShard {tb : Table} {me : Nat} (h : holdsShard tb me = true) : me ∈ tableHolders tb := by
  obtain ⟨x, hx, hheld⟩ := List.any_eq_true.1 h
  refine mem_distinct.2 (List.mem_flatMap.2 ⟨x, hx, ?_⟩)
  have hcases : x.owner = me ∨ x.replica = me ∧ x.replica ≠ 0xFFFF := by simpa [TableShard.heldBy] using hheld
  rcases hcases with ho | ⟨hr, hne⟩
  · simp [ho]
  · rw [if_neg hne, hr]
    simp

/-- An EPOCH_END reaches every holder; one of them outside the source list refuses its own at once. -/
theorem updateBegin_denied {s : State} {tb : Table} {l : List Byte} (hsrc : s.myId.toNat ∉ tb.sources)
    (hheld : holdsShard tb s.myId.toNat = true) (hend : updEnd l = true) (i t : Nat) :
    updateBegin s i t tb l = finishPlain s t .denied 0 := by
  have hmem := mem_tableHolders_of_holdsShard hheld
  unfold tableHolders at hmem
  refine if_pos ?_
  simp [hsrc, hend, hmem]

/-- An update of a table that can be updated, whose contributions the payload holds and whose epoch is open, begins. -/
theorem exec_updateSubmit_begins {r : Req} {s : State} {tb : Table} (h : Accepted .updateSubmit r s)
    (hs : engineState s r = true) (ht : findTable s (reqPid s r) (fld r.pay 0 1) = some tb) (hf : updForm r.pay = true)
    (hu : (tableComps tb).all (fun c => (tb.component c).updatable) = true)
    (hv : updOcc r.pay = 0 ∨ fld r.pay 0x14 4 + 4 * tableDim tb * updOcc r.pay ≤ r.pay.length)
    (hi : (fldList r.pay (fld r.pay 0x10 4) 8 (updOcc r.pay)).all (indexOkFor tb) = true)
    (he : appliedHere s tb < updEpoch r.pay) (hn : updEpoch r.pay ∉ tb.sentEnds) :
    exec (.updateSubmit r) s = .next (updateBegin (came .updateSubmit r s) (reqPid s r) s.nextId tb r.pay) := by
  have hb := bound_of_accepted h
  have hvals : (updOcc r.pay == 0 || has r.pay (fld r.pay 0x14 4 + 4 * tableDim tb * updOcc r.pay)) = true := by
    simpa [has] using hv
  refine (live_enter_accepted h cmdUpdateSubmit).trans (congrArg _ ?_)
  simp only [cmdUpdateSubmit, reqPid_counted hb, findTable_counted, ht, pairPart_counted hb, engineState_counted hb,
    appliedHere_counted]
  exact runCmd_accepted h rfl (by simp only [hf, hu, hvals, hi, Bool.and_self]) (by simp [hs, he, hn]) rfl rfl

/-- Settles O33. A gather goes by whether it can be divided and by what its beginning answers; an update begins, and a holder
outside the source list refuses its own EPOCH_END. -/
theorem tableCommands : Obligations.TableCommands := by
  unfold Obligations.TableCommands
  intro r s tb hs i l ht
  refine ⟨fun h hf hi => ⟨fun parts hp => ⟨?_, ?_, ?_⟩, fun hp => ?_⟩,
    fun h hf hu hv hi he hn => ⟨?_, fun hsrc hheld hend => ?_⟩⟩
  · exact exec_gatherSubmit_begins h ht hs hf hi hp
  · exact gatherBegin_fails_no_job (s := came .gatherSubmit r s)
  · exact fun hlocal => gatherBegin_of_local (s := came .gatherSubmit r s) (by simpa only [localShard_came] using hlocal)
  · exact exec_gatherSubmit_no_room h ht hs hf hi hp
  · exact exec_updateSubmit_begins h hs ht hf hu hv hi he hn
  · rw [exec_updateSubmit_begins h hs ht hf hu hv hi he hn]
    exact congrArg _ (updateBegin_denied (s := came .updateSubmit r s) hsrc hheld hend i s.nextId)

end Sys2Proof.Laws
end

section
/-! SUPPORT. Units that take work, and the commands of the Cruiser that begin a search: what a unit that takes work leaves as it
was, the parts and the merge of a search, and the search of a home that holds the only shard wanted. The section settles O34. -/

namespace Sys2Proof.Laws

open Sys2Proof Sys2Proof.Machine

/-! ### Units take work (13 R345) -/

/-- What a piece of work is, whatever unit it stands on and whenever it began. -/
def jobTag (j : Job) : Nat × Nat × Nat × Option Nat × JobKind × Nat := (j.id, j.part, j.ticket, j.ctx, j.kind, j.reruns)

/-- A state with the work, the units, the launches with their requests for current, and the partitions of another. -/
def withTurns (s t : State) : State :=
  { s with jobs := t.jobs, units := t.units, launches := t.launches, nextId := t.nextId, parts := t.parts
           cut := { s.cut with requests := t.cut.requests } }

/-- Units have taken work and nothing else: the same pieces of work are there, and what no unit touches is as it was. -/
structure TurnsTaken (s t : State) : Prop where
  frame : t = withTurns s t
  tags : t.jobs.map jobTag = s.jobs.map jobTag

theorem TurnsTaken.refl (s : State) : TurnsTaken s s := ⟨rfl, rfl⟩

theorem TurnsTaken.trans {s t u : State} (h : TurnsTaken s t) (h' : TurnsTaken t u) : TurnsTaken s u := by
  refine ⟨h'.frame.trans ?_, h'.tags.trans h.tags⟩
  rw [h.frame]
  rfl

/-- A change of some pieces of work that keeps what they are. -/
theorem map_jobTag {p : Job → Prop} [DecidablePred p] {f : Job → Job} (hf : ∀ j, jobTag (f j) = jobTag j) (l : List Job) :
    (l.map fun j => if p j then f j else j).map jobTag = l.map jobTag := by
  rw [List.map_map]
  refine List.map_congr_left fun j _ => ?_
  rw [Function.comp_apply, apply_ite jobTag, hf, ite_self]

theorem turnsTaken_modJob {f : Job → Job} (hf : ∀ j, jobTag (f j) = jobTag j) (s : State) (id : Nat) :
    TurnsTaken s (s.modJob id f) := ⟨rfl, map_jobTag hf s.jobs⟩

theorem turnsTaken_takeWork (s : State) (i owner n : Nat) : TurnsTaken s (takeWork s i owner n) := by
  unfold takeWork
  split
  · exact .refl s
  · split
    · exact ⟨rfl, rfl⟩
    · exact .refl s

theorem turnsTaken_assignUnit (s : State) (u : EngineUnit) (j : Job) : TurnsTaken s (assignUnit s u j) :=
  (turnsTaken_takeWork s j.part j.id j.room).trans <|
    .trans (turnsTaken_modJob (f := fun j => { j with unit := some u }) (fun _ => rfl) _ j.id) ⟨rfl, rfl⟩

theorem turnsTaken_giveUnit (s : State) (u : EngineUnit) (j : Job) : TurnsTaken s (giveUnit s u j) := by
  refine (turnsTaken_assignUnit s u j).trans ?_
  unfold giveUnit
  dsimp only
  split
  · exact turnsTaken_modJob (f := fun j => j.begin s.now) (fun _ => rfl) _ _
  · exact ⟨rfl, rfl⟩

theorem turnsTaken_feedUnit (s : State) (u : EngineUnit) : TurnsTaken s (feedUnit s u) := by
  unfold feedUnit
  split
  next x _ =>
    split
    · split
      · exact turnsTaken_giveUnit s u _
      · exact .refl s
    · exact .refl s
  next => exact .refl s

theorem turnsTaken_feedUnits (s : State) : TurnsTaken s (feedUnits s) := by
  unfold feedUnits
  exact List.foldlRecOn (motive := TurnsTaken s) s.units _ (.refl s) fun t ht x _ => ht.trans (turnsTaken_feedUnit t x.unit)

@[simp] theorem feedUnits_searches (s : State) : (feedUnits s).searches = s.searches := by
  rw [(turnsTaken_feedUnits s).frame]
  rfl

/-! ### The parts and the merge of a search (09 R246, R262) -/

section
variable (s : State)

@[simp] theorem addParts_searches (x : Index) (y : Search) : (addParts s x y).searches = s.searches := by
  unfold addParts
  refine List.foldlRecOn (motive := fun t : State => t.searches = s.searches) _ _ rfl fun t ht p _ => ?_
  split <;> exact ht

@[simp] theorem addParts_calls (x : Index) (y : Search) : (addParts s x y).calls = s.calls := by
  unfold addParts
  refine List.foldlRecOn (motive := fun t : State => t.calls = s.calls) _ _ rfl fun t ht p _ => ?_
  split <;> exact ht

@[simp] theorem queueJob_searches (i t : Nat) (ctx : Option Nat) (k : JobKind) : (queueJob s i t ctx k).searches = s.searches :=
  feedUnits_searches _

@[simp] theorem queueJob_calls (i t : Nat) (ctx : Option Nat) (k : JobKind) : (queueJob s i t ctx k).calls = s.calls :=
  feedUnits_calls _

@[simp] theorem searchAdvance_searches (id : Nat) : (searchAdvance s id).searches = s.searches := by
  unfold searchAdvance
  split
  · split
    · exact queueJob_searches s _ _ _ _
    · rfl
  · rfl

@[simp] theorem searchAdvance_calls (id : Nat) : (searchAdvance s id).calls = s.calls := by
  unfold searchAdvance
  split
  · split
    · exact queueJob_calls s _ _ _ _
    · rfl
  · rfl

end

/-! ### A search begins at its home (09 R262) -/

section
variable (s : State) (i : Nat) (owner : SearchOwner) {x : Index} {b : SearchBlock} (qs : List (List W16))

/-- The search of a home whose own shard is the only one wanted. -/
def ownSearch (x : Index) (b : SearchBlock) : Search :=
  { id := s.nextId, owner, part := i, index := x.id, block := b, queries := qs, parts := [], shards := [],
    wanted := [x.shardIndex], missing := [] }

/-- A home whose own intact shard is the only one wanted searches it, and asks for no other. -/
theorem searchBegin_of_own (hown : ownShard x = some x.shardIndex) (hw : shardsWanted x b = [x.shardIndex])
    (hd : x.res.damaged = false) :
    searchBegin s i owner x b qs = searchAdvance (feedUnits (addParts
      { s with nextId := s.nextId + 1, searches := s.searches ++ [ownSearch s i owner qs x b] }
      x (ownSearch s i owner qs x b))) s.nextId := by
  have hmine : (some x.shardIndex).filter (fun k => [x.shardIndex].contains k) = some x.shardIndex := by simp [Option.filter]
  have hothers : ([x.shardIndex].filter fun k => some x.shardIndex != some k) = [] := by simp
  simp only [searchBegin, hown, hw, hmine, hothers, hd]
  rfl

end

@[simp] theorem queriesAt_length (l : List Byte) (o n dim : Nat) : (queriesAt l o n dim).length = n := by
  simp [queriesAt]

/-! ### SEARCH_SUBMIT and PEER_SEARCH (09 R254, R262, R266) -/

theorem findIndex_counted (r : Req) (s : State) (i id : Nat) : findIndex (counted r s) i id = findIndex s i id := rfl

section
variable {r : Req} {s : State} {x : Index} (hs : engineState s r = true)
  (hx : findIndex s (reqPid s r) (fld r.pay 0 1) = some x)
include hs hx

/-- An accepted search of an index that is there, whose payload fits it and whose bitmaps are loaded, begins. -/
theorem exec_searchSubmit_begins (h : Accepted .searchSubmit r s) (hf : searchForm r.pay = true) (hfit : searchFits r.pay x = true)
    (ht : homeTerms x (blockParse r.pay 8) = true) :
    exec (.searchSubmit r) s = .next (searchBegin (came .searchSubmit r s) (reqPid s r) (.command s.nextId) x (blockParse r.pay 8)
      (queriesAt r.pay (fld r.pay 4 4) (fld r.pay 2 2) x.dim)) := by
  have hb := bound_of_accepted h
  refine (live_enter_accepted h cmdSearchSubmit).trans (congrArg _ ?_)
  simp only [cmdSearchSubmit, reqPid_counted hb, findIndex_counted, hx, pairPart_counted hb, engineState_counted hb]
  exact runCmd_accepted h rfl (by simp only [hf, hfit, Bool.and_self]) hs ht rfl

/-- An accepted PEER_SEARCH of a shard that is here searches it, or ends with ST_FAULT where the shard is damaged. -/
theorem exec_peerSearch (h : Accepted .peerSearch r s) (hlen : 0x28 ≤ r.pay.length) (hlo : 1 ≤ fld r.pay 2 2)
    (hhi : fld r.pay 2 2 ≤ 64) (hz : zeroAt r.pay 4 4 = true) (hb8 : blockForm r.pay 8 = true)
    (hq : 0x28 + 2 * x.dim * fld r.pay 2 2 ≤ r.pay.length)
    (hfin : (queriesAt r.pay 0x28 (fld r.pay 2 2) x.dim).all (fun q => q.all finite16) = true)
    (hown : ownShard x = some (fld r.pay 1 1)) (ht : termsLoaded x (blockParse r.pay 8) = true) :
    exec (.peerSearch r) s = .next (if x.res.damaged = true then finishPlain (came .peerSearch r s) s.nextId .fault 0
      else peerSearchBegin (came .peerSearch r s) (reqPid s r) s.nextId x (blockParse r.pay 8)
        (queriesAt r.pay 0x28 (fld r.pay 2 2) x.dim)) := by
  have hb := bound_of_accepted h
  refine (live_enter_accepted h cmdPeerSearch).trans (congrArg _ ?_)
  simp only [cmdPeerSearch, reqPid_counted hb, findIndex_counted, hx, pairPart_counted hb, engineState_counted hb]
  refine runCmd_accepted h rfl ?_ hs (by simp [hown, ht]) rfl
  simp only [has, hlen, hlo, hhi, hz, hb8, hq, hfin, and_self, decide_true, Bool.and_self]

end

/-- Settles O34. An accepted search begins at its home, and one of the home's own intact shard alone asks nobody; a peer searches
its own shard or answers that it is damaged. -/
theorem searchCommands : Obligations.SearchCommands := by
  unfold Obligations.SearchCommands
  intro r s x hs i l b hx
  refine ⟨fun h hf hfit ht => ⟨exec_searchSubmit_begins hs hx h hf hfit ht, fun hown hw hd => ?_⟩,
    fun h hlen hlo hhi hz hb8 hq hfin hown ht => exec_peerSearch hs hx h hlen hlo hhi hz hb8 hq hfin hown ht⟩
  refine ⟨ownSearch (came .searchSubmit r s) i (.command s.nextId) (queriesAt l (fld l 4 4) (fld l 2 2) x.dim) x b, _,
    exec_searchSubmit_begins hs hx h hf hfit ht, ?_, rfl, rfl, rfl, rfl, queriesAt_length _ _ _ _, ?_⟩
  · rw [searchBegin_of_own _ _ _ _ hown hw hd, searchAdvance_searches, feedUnits_searches, addParts_searches]
    rfl
  · rw [searchBegin_of_own _ _ _ _ hown hw hd, searchAdvance_calls, feedUnits_calls, addParts_calls]
    rfl

end Sys2Proof.Laws
end

section
/-! SUPPORT. Changes of a shard: the three commands that add one, and the switch of a planting that is done. The section settles
O35. -/

namespace Sys2Proof.Laws

open Sys2Proof Sys2Proof.Machine

/-! ### SEARCH_INSERT, SEARCH_DELETE, PLANT_START (09 R255 to R260; 15 R417) -/

theorem changeState_counted {r : Req} {s : State} (h : (s.pair r.pair).bound = true) :
    changeState (counted r s) r = changeState s r := by
  unfold changeState
  rw [reqPart_counted h]

/-- What a command that asks for a change of a shard leaves: the change, or ST_FAULT where the shard is damaged. -/
def changeAsked (s : State) (i t : Nat) (x : Index) (k : ChangeKind) : State :=
  if x.res.damaged then finishPlain s t .fault 0 else addChange s i t x.id k

section
variable {r : Req} {s : State} {x : Index} (hs : changeState s r = true)
  (hx : findIndex s (reqPid s r) (fld r.pay 0 1) = some x)
include hs hx

theorem exec_searchInsert (h : Accepted .searchInsert r s) (hf : insertForm r.pay = true) (hfit : insertFits r.pay x = true) :
    exec (.searchInsert r) s = .next (changeAsked (came .searchInsert r s) (reqPid s r) s.nextId x
      (.insert (insertEntries r.pay x))) := by
  have hb := bound_of_accepted h
  refine (live_enter_accepted h cmdSearchInsert).trans (congrArg _ ?_)
  simp only [cmdSearchInsert, reqPid_counted hb, findIndex_counted, hx, pairPart_counted hb, changeState_counted hb]
  exact runCmd_accepted h rfl (by simp only [hf, hfit, Bool.and_self]) hs rfl rfl

theorem exec_searchDelete (h : Accepted .searchDelete r s) (hm : x.isMap = false) (hlen : 8 ≤ r.pay.length)
    (hid : fld r.pay 0 1 ≤ 15) (hz : zeroAt r.pay 1 3 = true) (hlo : 1 ≤ fld r.pay 4 4) (hhi : fld r.pay 4 4 ≤ 1048576)
    (hids : 8 + 8 * fld r.pay 4 4 ≤ r.pay.length) (hle : ∀ n ∈ deleteIds r.pay, n ≤ noItem) :
    exec (.searchDelete r) s = .next (changeAsked (came .searchDelete r s) (reqPid s r) s.nextId x
      (.delete (deleteIds r.pay))) := by
  have hb := bound_of_accepted h
  have hall : ((deleteIds r.pay).all fun n => decide (n ≤ noItem)) = true := by simpa using hle
  refine (live_enter_accepted h cmdSearchDelete).trans (congrArg _ ?_)
  simp only [cmdSearchDelete, reqPid_counted hb, findIndex_counted, hx, pairPart_counted hb, changeState_counted hb]
  refine runCmd_accepted h rfl ?_ hs rfl rfl
  simp only [has, hm, hlen, hid, hz, hlo, hhi, hids, hall, and_self, decide_true, Bool.and_self, Bool.not_false]

theorem exec_plantStart (h : Accepted .plantStart r s) (hm : x.isMap = false) (hlen : 8 ≤ r.pay.length)
    (hid : fld r.pay 0 1 ≤ 15) (hz : zeroAt r.pay 1 1 = true) (hz4 : zeroAt r.pay 4 4 = true) (hef : fld r.pay 2 2 ≤ 4096)
    (hdeg : x.degree ≤ fld r.pay 2 2) (hp : plantingOn s (reqPid s r) x = false) :
    exec (.plantStart r) s = .next (changeAsked (came .plantStart r s) (reqPid s r) s.nextId x
      (.plantStart (fld r.pay 2 2))) := by
  have hb := bound_of_accepted h
  have hp' : plantingOn (counted r s) (reqPid s r) x = false := hp
  refine (live_enter_accepted h cmdPlantStart).trans (congrArg _ ?_)
  simp only [cmdPlantStart, reqPid_counted hb, findIndex_counted, hx, pairPart_counted hb, changeState_counted hb]
  refine runCmd_accepted h rfl ?_ (by simp only [hs, hp', Bool.and_self, Bool.not_false]) rfl rfl
  simp only [has, hm, hlen, hid, hz, hz4, hef, hdeg, decide_true, Bool.and_self, Bool.not_false]

end

/-! ### PLANTING_DONE (09 R260) -/

theorem exec_plantingDone {s : State} (h : s.power.railTripped = false) (k n : Nat) :
    exec (.plantingDone k n) s = .next (plantingDue k n s) := live_next h

section
variable {s : State} {k n : Nat} {y : Index} {pl : Planting} (hy : partIndex (s.part k) n = some y) (hpl : y.planting = some pl)
include hy hpl

/-- The switch of a planting that is done becomes a change of its shard, once. -/
theorem plantingDue_of_done (hd : pl.done = true)
    (hnew : ((s.part k).changes.any fun c => c.index == n && c.kind == .plantSwitch) = false) :
    plantingDue k n s = addChange s k pl.ticket n .plantSwitch := by
  simp [plantingDue, hy, hpl, hd, hnew]

theorem plantingDue_of_running (hd : pl.done = false) : plantingDue k n s = s := by
  simp [plantingDue, hy, hpl, hd]

end

/-- Settles O35. Each command asks for its change, which a damaged shard refuses; a planting that is done asks for its switch. -/
theorem shardChanges : Obligations.ShardChanges := by
  unfold Obligations.ShardChanges
  intro r s x hs i l change hx hm
  refine ⟨fun h hf hfit => exec_searchInsert hs hx h hf hfit,
    fun h hlen hid hz hlo hhi hids hle => exec_searchDelete hs hx h hm hlen hid hz hlo hhi hids hle,
    fun h hlen hid hz hz4 hef hdeg hp => exec_plantStart hs hx h hm hlen hid hz hz4 hef hdeg hp,
    fun k n y pl hy hpl hrail => ⟨fun hd hnew => ?_, fun hd => ?_⟩⟩
  · rw [exec_plantingDone hrail, plantingDue_of_done hy hpl hd hnew]
    rfl
  · rw [exec_plantingDone hrail, plantingDue_of_running hy hpl hd]

end Sys2Proof.Laws
end

section
/-! SUPPORT. Shared units that end a slice, fault or reach a budget: what a unit that lets go of its work leaves, what a slice and
a fault do by the unit and its work, and the Sapwood part whose budget is over. The section settles O43. -/

namespace Sys2Proof.Laws

open Sys2Proof Sys2Proof.Machine

/-! ### A unit lets go of its work (15 R405) -/

/-- The state in which the turns of a unit's work are over: nothing rides for it, and its credits return at the next boundary. -/
def turnsOver (u : EngineUnit) (s : State) : State :=
  let ids := (s.jobs.filter fun j => j.unit == some u).map (·.id)
  unride (dropTurns s ids) ids

/-- The unit has no work, and its work stands in line again. -/
theorem freeUnit_eq (s : State) (u : EngineUnit) : freeUnit s u = { turnsOver u s with
    units := (turnsOver u s).units.map fun x => if x.unit = u then { x with job := none } else x
    jobs := (turnsOver u s).jobs.map fun j => if j.unit = some u then { j with unit := none } else j } := rfl

/-- Work that goes back in line stays what it is. -/
theorem freeUnit_tags (s : State) (u : EngineUnit) : (freeUnit s u).jobs.map jobTag = s.jobs.map jobTag :=
  map_jobTag (f := fun j => { j with unit := none }) (fun _ => rfl) s.jobs

/-- A unit that lets go of its work and takes other work, after which every unit takes work, leaves all pieces of work what they
are, and of the machine only the turns and their credits differ. -/
theorem feedUnits_freeUnit_frame (s : State) (u : EngineUnit) :
    let t := feedUnits (feedUnit (freeUnit s u) u)
    t = { s with jobs := t.jobs, units := t.units, launches := t.launches, nextId := t.nextId, parts := t.parts
                 cut := { s.cut with requests := t.cut.requests, held := (turnsOver u s).cut.held } } ∧
      t.jobs.map jobTag = s.jobs.map jobTag := by
  have h : TurnsTaken (freeUnit s u) (feedUnits (feedUnit (freeUnit s u) u)) :=
    (turnsTaken_feedUnit _ u).trans (turnsTaken_feedUnits _)
  exact ⟨h.frame, h.tags.trans (freeUnit_tags s u)⟩

/-! ### A slice ends (10 R280; 13 R345, R353) -/

theorem exec_engineSliceEnd {s : State} (h : s.power.railTripped = false) (u : EngineUnit) (d : Bool) :
    exec (.engineSliceEnd u d) s = .next (settle (sliceRow u d s)) := live_next h

theorem isTally_eq_false {u : EngineUnit} (h : ∀ k, u ≠ .tally k) : isTally u = false := by
  cases u with
  | tally k => exact absurd rfl (h k)
  | _ => rfl

theorem sliceRow_of_idle {s : State} {u : EngineUnit} (h : unitJob s u = none) (d : Bool) : sliceRow u d s = s := by
  simp [sliceRow, h]

section
variable {s : State} {u : EngineUnit} {j : Job} (hj : unitJob s u = some j)
include hj

/-- A Tally task keeps its pipeline. -/
theorem sliceRow_of_tally {k : Nat} (hu : u = .tally k) : sliceRow u false s = s := by
  subst hu
  simp [sliceRow, sliceEnd, hj, isTally]

/-- Any other work that is not finished goes back in line, and the unit takes what is next. -/
theorem sliceRow_of_unfinished (hu : ∀ k, u ≠ .tally k) : sliceRow u false s = feedUnits (feedUnit (freeUnit s u) u) := by
  simp [sliceRow, sliceEnd, hj, isTally_eq_false hu, tallyCorrects]

/-- Finished work leaves its result where its regulator lets its accesses pass. -/
theorem sliceRow_of_finished (hf : flowHolds s j.part (unitFlow u) = false) :
    sliceRow u true s = feedUnits (feedUnit (jobDone j (freeUnit (tallyCorrects s u) u)) u) := by
  simp [sliceRow, regulated_of_passes hf, sliceEnd, hj]

theorem sliceRow_waits (hf : flowHolds s j.part (unitFlow u) = true) :
    sliceRow u true s = s.modReg j.part (unitFlow u) fun r => { r with waiting := true } := by
  simp [sliceRow, hj, regulated_of_holds hf]

end

/-! ### A unit faults (10 R281; 15 R413, R414) -/

/-- The fault is counted, the unit has no work, and one with siblings is out of service for its self-test. -/
theorem unitFaulted_eq (s : State) (u : EngineUnit) : unitFaulted s u = { turnsOver u s with
    units := (turnsOver u s).units.map fun x => if x.unit = u
      then { x with job := none
                    status := if hasSiblings u = true then .testing else x.status
                    faults := if hasSiblings u = true then recent s dayCounts x.faults ++ [s.now] else x.faults } else x
    jobs := (turnsOver u s).jobs.map fun j => if j.unit = some u then { j with unit := none } else j
    ctr := setKey s.ctr ⟨.unitFault, 0, unitKind u⟩ (lookupD s.ctr ⟨.unitFault, 0, unitKind u⟩ 0 + 1) } := by
  have hb : bump (freeUnit s u) .unitFault 0 (unitKind u) 1 = { freeUnit s u with
      ctr := setKey s.ctr ⟨.unitFault, 0, unitKind u⟩ (lookupD s.ctr ⟨.unitFault, 0, unitKind u⟩ 0 + 1) } := rfl
  unfold unitFaulted
  rw [hb, freeUnit_eq]
  cases hasSiblings u with
  | false => rfl
  | true =>
    simp only [if_true, State.modUnit, List.map_map]
    congr 1
    refine List.map_congr_left fun x _ => ?_
    by_cases hx : x.unit = u <;> simp [hx]

theorem exec_engineFault {s : State} (h : s.power.railTripped = false) (u : EngineUnit) :
    exec (.engineFault u) s = .next (settle (serviceFault u s)) := live_next h

theorem exec_sliceWatchdog_of_idle {s : State} {u : EngineUnit} (h : s.power.railTripped = false) (hj : unitJob s u = none) :
    exec (.sliceWatchdog u) s = .next s := by
  show execSliceWatchdog u s = _
  rw [execSliceWatchdog, hj, live_next h]
  rfl

/-- A slice that takes too long is a fault of the unit it runs on. -/
theorem exec_sliceWatchdog_of_busy {s : State} {u : EngineUnit} {j : Job} (hj : unitJob s u = some j) :
    exec (.sliceWatchdog u) s = exec (.engineFault u) s := by
  show execSliceWatchdog u s = _
  rw [execSliceWatchdog, hj]
  rfl

/-- A rank buffer error that stops a Tally task is a fault of its pipeline. -/
theorem exec_tallyFault_of_busy {s : State} {k : Nat} {j : Job} (hj : unitJob s (.tally k) = some j) :
    exec (.tallyFault k) s = exec (.engineFault (.tally k)) s := by
  show execTallyFault k s = _
  rw [execTallyFault, hj]
  rfl

section
variable {s : State} {u : EngineUnit} {x : EngineSt} (hx : s.unit? u = some x)
include hx

theorem serviceFault_of_out (h : x.status ≠ .inService) : serviceFault u s = s := by
  simp [serviceFault, hx, h]

theorem serviceFault_of_inService (h : x.status = .inService) : serviceFault u s = unitFaults u s := by
  simp [serviceFault, hx, h]

end

theorem unitFaults_of_idle {s : State} {u : EngineUnit} (hj : unitJob s u = none) :
    unitFaults u s = feedUnits (unitFaulted s u) := by
  simp [unitFaults, hj]

section
variable {s : State} {u : EngineUnit} {j : Job} (hj : unitJob s u = some j)
include hj

/-- Work of a unit that is no Tally pipeline runs again from its start. -/
theorem unitFaults_of_rerun (hu : ∀ k, u ≠ .tally k) : unitFaults u s = feedUnits ((unitFaulted s u).modJob j.id fun j =>
    { j with reruns := j.reruns + 1, started := none }) := by
  unfold unitFaults
  rw [hj]
  cases u with
  | tally k => exact absurd rfl (hu k)
  | _ => rfl

end

section
variable {s : State} {k : Nat} {j : Job} (hj : unitJob s (.tally k) = some j)
include hj

/-- A Tally task runs again after its first fault. -/
theorem unitFaults_of_tally_first (hr : j.reruns = 0) : unitFaults (.tally k) s = feedUnits
    ((unitFaulted s (.tally k)).modJob j.id fun j => { j with reruns := j.reruns + 1 }) := by
  simp [unitFaults, hj, hr]

/-- After its second it does not. -/
theorem unitFaults_of_tally_again (hr : 1 ≤ j.reruns) : unitFaults (.tally k) s = feedUnits
    (tallyGivesUp (unitFaulted s (.tally k)) j) := by
  simp [unitFaults, hj, hr]

end

/-! ### The budget of a Sapwood part (09 R251) -/

section
variable {s : State} {n id q p at_ : Nat} {probe : Bool} {j : Job} {y : Search} (hj : s.job? n = some j)
  (hk : j.kind = .searchPart id q p probe) (ha : j.started = some at_) (hy : s.search? id = some y)
include hj hk ha hy

theorem budgetOver_of_spent (hs : y.block.sapwood = true) (hp : probe = false) (ht : at_ + 1000 * y.block.budgetUs ≤ s.now) :
    budgetOver s n = some j := by
  simp [budgetOver, hj, hk, ha, hy, hs, hp, ht]

theorem budgetOver_of_left (h : y.block.sapwood = false ∨ probe = true ∨ s.now < at_ + 1000 * y.block.budgetUs) :
    budgetOver s n = none := by
  simp only [budgetOver, hj, Option.filter_some, hk, ha, hy, Option.any_some]
  refine if_neg ?_
  rcases h with h | h | h
  · simp [h]
  · simp [h]
  · simp [Nat.not_le.2 h]

end

/-- The state in which the unit that a piece of work stands on, if any, is free. -/
def unitLeft (j : Job) (s : State) : State :=
  match j.unit with
  | some v => freeUnit s v
  | none => s

theorem unitLeft_freeIdx (j : Job) (s : State) : (unitLeft j s).freeIdx = s.freeIdx := by
  unfold unitLeft
  split <;> rfl

/-- The part stops after a free number of its turns, and its unit is free. -/
theorem budgetExpiry_eq (j : Job) (s : State) : budgetExpiry j s =
    feedUnits (partEnds j (some (Config.freeValue s.freeIdx).toNat) { unitLeft j s with freeIdx := s.freeIdx + 1 }) := by
  rw [← congrArg (· + 1) (unitLeft_freeIdx j s)]
  rfl

theorem exec_sapwoodBudgetExpiry_of_left {s : State} {n : Nat} (h : s.power.railTripped = false) (hb : budgetOver s n = none) :
    exec (.sapwoodBudgetExpiry n) s = .next s := by
  show execSapwoodBudgetExpiry n s = _
  rw [execSapwoodBudgetExpiry, hb, live_next h]

theorem exec_sapwoodBudgetExpiry_of_spent {s : State} {n : Nat} {j : Job} (h : s.power.railTripped = false)
    (hb : budgetOver s n = some j) : exec (.sapwoodBudgetExpiry n) s = .next (settle (budgetExpiry j s)) := by
  show execSapwoodBudgetExpiry n s = _
  rw [execSapwoodBudgetExpiry, hb, live_next h]

/-- Settles O43. A slice that ends goes by the unit and by the regulator of its work; a fault by whether the unit is in service and
by what it works on; a Sapwood part by its budget. -/
theorem unitsAndFaults : Obligations.UnitsAndFaults := by
  unfold Obligations.UnitsAndFaults
  intro u s hrail freed
  refine ⟨fun hn d => ⟨?_, exec_sliceWatchdog_of_idle hrail hn⟩, fun j hj => ⟨?_, ?_, ?_, ?_⟩, fun x hx => ⟨?_, ?_⟩,
    unitFaulted_eq s u, fun n j id q p probe at_ y hj hk ha hy => ⟨?_, ?_⟩⟩
  · rw [exec_engineSliceEnd hrail, sliceRow_of_idle hn]
  · intro k hu
    rw [exec_engineSliceEnd hrail, sliceRow_of_tally hj hu]
  · intro hu
    refine ⟨_, ?_, feedUnits_freeUnit_frame s u⟩
    rw [exec_engineSliceEnd hrail, sliceRow_of_unfinished hj hu]
  · intro hf
    rw [exec_engineSliceEnd hrail, sliceRow_of_finished hj hf]
  · intro hf
    rw [exec_engineSliceEnd hrail, sliceRow_waits hj hf]
  · intro hout
    rw [exec_engineFault hrail, serviceFault_of_out hx hout]
  · intro hin
    refine ⟨fun hn => ?_, fun j hj => ⟨exec_sliceWatchdog_of_busy hj, fun hu => ?_, ?_⟩⟩
    · rw [exec_engineFault hrail, serviceFault_of_inService hx hin, unitFaults_of_idle hn]
    · rw [exec_engineFault hrail, serviceFault_of_inService hx hin, unitFaults_of_rerun hj hu]
    · rintro k rfl
      rw [exec_tallyFault_of_busy hj, exec_engineFault hrail, serviceFault_of_inService hx hin]
      exact ⟨rfl, fun hr => by rw [unitFaults_of_tally_first hj hr], fun hr => by rw [unitFaults_of_tally_again hj hr]⟩
  · intro hs hp ht
    refine ⟨(Config.freeValue s.freeIdx).toNat,
      (exec_sapwoodBudgetExpiry_of_spent hrail (budgetOver_of_spent hj hk ha hy hs hp ht)).trans ?_⟩
    exact congrArg (fun t => Host.Outcome.next (settle t)) (budgetExpiry_eq j s)
  · intro h
    exact exec_sapwoodBudgetExpiry_of_left hrail (budgetOver_of_left hj hk ha hy h)

end Sys2Proof.Laws
end

section
/-! SUPPORT. Service of a partition: what starts it, what ends its start-up, and what stops it. The section settles O28. -/

namespace Sys2Proof.Laws

open Sys2Proof Sys2Proof.Machine

/-! ### SERVE_START (11 R291) -/

/-- An accepted SERVE_START of a LOADED partition has its effect. -/
theorem exec_serveStart {r : Req} {s : State} (h : Accepted .serveStart r s) (hf : serveForm r.pay = true)
    (hs : (reqPart s r).state = .loaded) :
    exec (.serveStart r) s = .next (finishPlain ((came .serveStart r s).modPart (reqPid s r) fun p => { p with
      state := .serving, warm := decide (0 < fld r.pay 2 2)
      serve := some { test := fld r.pay 0 1 == 1, warmupMs := fld r.pay 2 2, stepTokens := fld r.pay 4 4,
                      chunkMax := fld r.pay 8 2, decodeMax := fld r.pay 0xA 2, yarrowShare := fld r.pay 0xC 2,
                      since := s.now } }) s.nextId .ok 0) := by
  have hb := bound_of_accepted h
  refine (live_enter_accepted h cmdServeStart).trans (congrArg _ ?_)
  simp only [cmdServeStart, reqPid_counted hb, pairPart_counted hb, reqPart_counted hb]
  exact runCmd_accepted h rfl hf (by simp [hs]) rfl rfl

/-! ### WARMUP_END (11 R291) -/

theorem exec_warmupEnd {s : State} (h : s.power.railTripped = false) (i : Nat) :
    exec (.warmupEnd i) s = .next (warmupEnd i s) := live_next h

/-- Start-up ends WarmupMs after service began, and not before. -/
theorem warmupEnd_of_serve {s : State} {i : Nat} {v : Serving} (h : (s.part i).serve = some v) : warmupEnd i s =
    if v.since + v.warmupMs * 1000000 ≤ s.now then s.modPart i fun p => { p with warm := false } else s := by
  simp only [warmupEnd, h]

/-! ### SERVE_STOP (11 R303; 02 R54) -/

/-- The partition of a pair is the one its requests show, where they show one that is bound. -/
theorem part_reqPid_of_bound {r : Req} {s : State} (h : (reqPart s r).state ≠ .unbound) :
    s.part (reqPid s r) = reqPart s r := by
  unfold reqPart at h ⊢
  unfold reqPid
  cases hp : pairPart s r with
  | some i => rfl
  | none =>
    rw [hp] at h
    exact absurd rfl h

/-- Without a released operation a partition that leaves SERVING drops none. -/
theorem alignDropped_of_unreleased {s : State} {i : Nat} (h : ∀ g ∈ (s.part i).globals, g.released = none) :
    alignDropped s i = s := by
  have hnone : ((s.part i).globals.filter fun g => g.released.isSome) = [] :=
    List.filter_eq_nil_iff.2 fun g hg => by simp [h g hg]
  unfold alignDropped
  rw [hnone]
  rfl

/-- An accepted SERVE_STOP of a serving partition has its effect. -/
theorem exec_serveStop {r : Req} {s : State} (h : Accepted .serveStop r s) (hf : r.pay = [])
    (hs : (reqPart s r).state = .serving) :
    exec (.serveStop r) s = .next (finishPlain
      ((alignDropped (came .serveStop r s) (reqPid s r)).modPart (reqPid s r) fun p => { p with
        state := if (s.ctxs.countP fun c => c.part == reqPid s r) = 0 then loadedOr p else .draining })
      s.nextId .ok (s.ctxs.countP fun c => c.part == reqPid s r)) := by
  have hb := bound_of_accepted h
  refine (live_enter_accepted h cmdServeStop).trans (congrArg _ ?_)
  simp only [cmdServeStop, reqPid_counted hb, pairPart_counted hb, reqPart_counted hb]
  exact runCmd_accepted h rfl (by simp [hf]) (by simp [hs]) rfl rfl

/-- Settles O28. Each of the two commands has its effect once accepted, and start-up ends by its time. -/
theorem service : Obligations.Service := by
  unfold Obligations.Service
  intro r s i hrail
  refine ⟨exec_serveStart, fun v hv hlate => ?_, fun v hv hearly => ?_, fun h hf hs hg => ?_⟩
  · rw [exec_warmupEnd hrail, warmupEnd_of_serve hv, if_pos hlate]
    rfl
  · rw [exec_warmupEnd hrail, warmupEnd_of_serve hv, if_neg (by omega)]
  · have hpart : s.part (reqPid s r) = reqPart s r := part_reqPid_of_bound (by simp [hs])
    have hdrop : alignDropped (came .serveStop r s) (reqPid s r) = came .serveStop r s :=
      alignDropped_of_unreleased fun g hmem => hg g (hpart ▸ hmem)
    rw [exec_serveStop h hf hs, hdrop]
    rfl

end Sys2Proof.Laws
end

section
/-! SUPPORT. Requests: the lowest free context, what an accepted submission leaves, and the controls that name a request. The
section settles O31. -/

namespace Sys2Proof.Laws

open Sys2Proof Sys2Proof.Machine

/-! ### The lowest free context (11 R286) -/

theorem firstFrom_holds {p : Nat → Bool} {fuel i step n : Nat} (h : firstFrom p fuel i step = some n) : p n = true := by
  induction fuel generalizing i with
  | zero => cases h
  | succ fuel ih =>
    rw [firstFrom] at h
    split at h
    next hp =>
      cases h
      exact hp
    next => exact ih h

/-- A free context is one of the 4,096, and no request holds it. -/
theorem freeCtxId_free {s : State} {id : Nat} (h : freeCtxId s = some id) : id < 4096 ∧ ∀ y ∈ s.ctxs, y.id ≠ id := by
  obtain ⟨hfirst, hlt⟩ := Option.filter_eq_some_iff.1 h
  refine ⟨of_decide_eq_true hlt, fun y hy => ?_⟩
  simpa using List.all_eq_true.1 (firstFrom_holds hfirst) y hy

/-! ### QUERY_SUBMIT and GENERATE_SUBMIT (11 R286, R313, R314, R319) -/

/-- What an accepted submission leaves: its request is QUEUED in the lowest free context, its acceptance record is posted, and what
is due acts while no step runs (log 68). -/
def Submitted (r : Req) (s : State) (c : Code) (isQuery : Bool) (t : State) : Prop :=
  ∃ id x s1, freeCtxId s = some id ∧ id < 4096 ∧ (∀ y ∈ s.ctxs, y.id ≠ id) ∧
    x.id = id ∧ x.ticket = s.nextId ∧ x.pair = r.pair ∧ x.seq = r.hdr.seq ∧ x.part = reqPid s r ∧ x.state = .queued ∧
    x.stage = .none ∧ x.isQuery = isQuery ∧ x.pay = r.pay ∧ x.yarrow = (r.hdr.prio == 1) ∧ x.isOver = false ∧
    x.output = [] ∧ x.kvPages = [] ∧ x.sampling.seed = w64 (fld r.pay 0x18 8) ∧
    s1 = { came c r s with
      ctxs := s.ctxs ++ [x]
      cmds := s.cmds.map (fun y => if y.ticket = s.nextId then { y with ctx := some id } else y) ++
        [{ mkCmd c (commandPart s c r) r s.nextId with ctx := some id }] } ∧
    t = actIdle (reqPid s r) (post s1 r.pair (ctxRecord s1 x .ok .none true 0))

/-- A change of the commands of the next ticket reaches the one that has come with it, the last of them. -/
theorem cmds_came_map (c : Code) (r : Req) (s : State) (f : Cmd → Cmd) :
    ((came c r s).cmds.map fun y => if y.ticket = s.nextId then f y else y) =
      (s.cmds.map fun y => if y.ticket = s.nextId then f y else y) ++ [f (mkCmd c (commandPart s c r) r s.nextId)] := by
  simp [came, mkCmd]

/-- Where a context is free, a request that has come is submitted. -/
theorem submitted_acceptRequest {r : Req} {s : State} {id : Nat} (hid : freeCtxId s = some id) (c : Code) (isQuery : Bool)
    (generator maxNew stream : Nat) {p : Sampling} (hp : p.seed = w64 (fld r.pay 0x18 8)) (o : TextOptions) :
    Submitted r s c isQuery
      (acceptRequest r (reqPid s r) s.nextId isQuery generator maxNew stream p o (came c r s)) := by
  obtain ⟨hlt, hfree⟩ := freeCtxId_free hid
  have hid' : freeCtxId (came c r s) = some id := hid
  unfold acceptRequest
  rw [hid']
  dsimp only
  refine ⟨id, _, _, hid, hlt, hfree, rfl, rfl, rfl, rfl, rfl, rfl, rfl, rfl, rfl, rfl, rfl, rfl, rfl, hp, ?_, rfl⟩
  unfold State.modCmd
  dsimp only
  rw [cmds_came_map]
  rfl

/-- The own checks of a submission, by what its payload needs of the partition. -/
def submitNeed (r : Req) (s : State) (form found : Bool) : Need :=
  { Need.pass with
    form, found, state := (reqPart s r).state == .serving, room := if (freeCtxId s).isNone then some .busy else none }

/-- What a submission that passes its checks does: ST_FAULT where it names a damaged object (15 R417), else what accepts it. -/
def submitEffect (damaged : State → Bool) (accept : Nat → State → State) (t : Nat) (s : State) : State :=
  if damaged s = true then finishPlain s t .fault 0 else accept t s

section
variable {r : Req} {s : State}

theorem exec_querySubmit (h : Accepted .querySubmit r s) :
    exec (.querySubmit r) s = .next (runCmd .querySubmit (commandPart s .querySubmit r)
      (submitNeed r s (queryForm r.pay && queryFits s (reqPid s r) r.pay) (queryFound s (reqPid s r) r.pay))
      (submitEffect
        (fun u => namesDamaged u (reqPid s r) ([fld r.pay 1 1, fld r.pay 3 1] ++ (qReranker r.pay).toList) (some (fld r.pay 4 1))
          (optionsParse (r.pay.drop (fld r.pay 0x30 4))).grammar)
        fun t => acceptRequest r (reqPid s r) t true (fld r.pay 3 1) (fld r.pay 0x10 4) (fld r.pay 0x14 4)
          { seed := w64 (fld r.pay 0x18 8), invTemp := w32 (fld r.pay 0x20 4), topP := w32 (fld r.pay 0x24 4)
            candCount := fld r.pay 0x28 2, greedy := bit (fld r.pay 0x2A 2) 0 }
          (optionsParse (r.pay.drop (fld r.pay 0x30 4))))
      r s.nextId (counted r s)) := by
  have hb := bound_of_accepted h
  refine (live_enter_accepted h cmdQuerySubmit).trans (congrArg _ ?_)
  simp only [cmdQuerySubmit, reqPid_counted hb, pairPart_counted hb, reqPart_counted hb]
  rfl

theorem exec_generateSubmit (h : Accepted .generateSubmit r s) :
    exec (.generateSubmit r) s = .next (runCmd .generateSubmit (commandPart s .generateSubmit r)
      (submitNeed r s (generateForm r.pay && generateFits s (reqPid s r) r.pay) (generateFound s (reqPid s r) r.pay))
      (submitEffect (fun u => namesDamaged u (reqPid s r) [fld r.pay 0 1] none (generateOptions r.pay).grammar)
        fun t => acceptRequest r (reqPid s r) t false (fld r.pay 0 1) (fld r.pay 4 4) (fld r.pay 8 4)
          { seed := w64 (fld r.pay 0x18 8), invTemp := w32 (fld r.pay 0xC 4), topP := w32 (fld r.pay 0x10 4)
            candCount := fld r.pay 2 2, greedy := bit (fld r.pay 0x14 2) 0 } (generateOptions r.pay))
      r s.nextId (counted r s)) := by
  have hb := bound_of_accepted h
  refine (live_enter_accepted h cmdGenerateSubmit).trans (congrArg _ ?_)
  simp only [cmdGenerateSubmit, reqPid_counted hb, pairPart_counted hb, reqPart_counted hb]
  rfl

section
variable {c : Code} {form found : Bool} {damaged : State → Bool} {accept : Nat → State → State}
  (hs : (reqPart s r).state = .serving) (h : Accepted c r s) (hf : form = true) (hn : found = true)
include hs h hf hn

/-- A submission that finds a free context and names no damaged object is accepted. -/
theorem runCmd_submit_of_intact {id : Nat} (hid : freeCtxId s = some id) (hd : damaged (came c r s) = false) :
    runCmd c (commandPart s c r) (submitNeed r s form found) (submitEffect damaged accept) r s.nextId (counted r s) =
      accept s.nextId (came c r s) :=
  (runCmd_accepted h rfl hf (by simp [submitNeed, hs]) hn (by simp [submitNeed, hid])).trans (if_neg (by simp [hd]))

/-- One that names a damaged object is ST_FAULT. -/
theorem runCmd_submit_of_damaged {id : Nat} (hid : freeCtxId s = some id) (hd : damaged (came c r s) = true) :
    runCmd c (commandPart s c r) (submitNeed r s form found) (submitEffect damaged accept) r s.nextId (counted r s) =
      finishPlain (came c r s) s.nextId .fault 0 :=
  (runCmd_accepted h rfl hf (by simp [submitNeed, hs]) hn (by simp [submitNeed, hid])).trans (if_pos hd)

/-- With every context taken a submission is ST_BUSY. -/
theorem runCmd_submit_of_full (hid : freeCtxId s = none) :
    runCmd c (commandPart s c r) (submitNeed r s form found) (submitEffect damaged accept) r s.nextId (counted r s) =
      finishPlain (came c r s) s.nextId .busy 0 :=
  runCmd_no_room h rfl hf (by simp [submitNeed, hs]) hn (by simp [submitNeed, hid])

end

end

/-! ### REQUEST_CANCEL, REQUEST_PAUSE, REQUEST_RESUME (11 R299 to R301, R489) -/

theorem namedCtx_counted {r : Req} {s : State} (h : (s.pair r.pair).bound = true) : namedCtx (counted r s) r = namedCtx s r := by
  unfold namedCtx
  rw [pairPart_counted h]
  rfl

/-- The own checks of a control, by its form and by what it asks of the request that it names. -/
def controlNeed (r : Req) (s : State) (form : Bool) (fits : Ctx → Bool) : Need :=
  { Need.pass with
    form
    state := controlState (reqPart s r).state && match namedCtx s r with
      | some c => fits c
      | none => true
    found := (namedCtx s r).isSome }

/-- What a control that passes its checks does to the request that it names. -/
def controlEffect (r : Req) (s : State) (act : Ctx → Nat → State → State) (t : Nat) (u : State) : State :=
  match namedCtx s r with
  | some c => act c t u
  | none => u

section
variable {r : Req} {s : State}

theorem exec_requestCancel (h : Accepted .requestCancel r s) :
    exec (.requestCancel r) s = .next (runCmd .requestCancel (commandPart s .requestCancel r)
      (controlNeed r s r.pay.isEmpty fun c => !c.cancelTaken)
      (controlEffect r s fun c t u =>
        addControl c.part t c .requestCancel none (u.modCtx c.id fun c => { c with cancelTaken := true }))
      r s.nextId (counted r s)) := by
  have hb := bound_of_accepted h
  refine (live_enter_accepted h cmdRequestCancel).trans (congrArg _ ?_)
  simp only [cmdRequestCancel, namedCtx_counted hb, pairPart_counted hb, reqPart_counted hb]
  rfl

theorem exec_requestPause (h : Accepted .requestPause r s) :
    exec (.requestPause r) s = .next (runCmd .requestPause (commandPart s .requestPause r)
      (controlNeed r s (pauseForm r.pay) fun c => c.yarrow && c.state != .paused && !c.cancelTaken && c.pauseHeld.isNone &&
        !controlPending s c .requestPause)
      (controlEffect r s fun c t => addControl c.part t c .requestPause
        (if fld r.pay 0 1 = 0 then none else some (fld r.pay 1 1, fld r.pay 8 8, fld r.pay 0x10 8)))
      r s.nextId (counted r s)) := by
  have hb := bound_of_accepted h
  refine (live_enter_accepted h cmdRequestPause).trans (congrArg _ ?_)
  simp only [cmdRequestPause, namedCtx_counted hb, pairPart_counted hb, reqPart_counted hb]
  rfl

theorem exec_requestResume (h : Accepted .requestResume r s) :
    exec (.requestResume r) s = .next (runCmd .requestResume (commandPart s .requestResume r)
      (controlNeed r s r.pay.isEmpty fun c => c.state == .paused && !controlPending s c .requestResume && !refilling s c.id)
      (controlEffect r s fun c t => addControl c.part t c .requestResume none)
      r s.nextId (counted r s)) := by
  have hb := bound_of_accepted h
  refine (live_enter_accepted h cmdRequestResume).trans (congrArg _ ?_)
  simp only [cmdRequestResume, namedCtx_counted hb, pairPart_counted hb, reqPart_counted hb]
  rfl

section
variable {k : Code} {form : Bool} {fits : Ctx → Bool} {act : Ctx → Nat → State → State}
  (hs : controlState (reqPart s r).state = true) (h : Accepted k r s) (hf : form = true)
include hs h hf

/-- A control that fits the request it names acts on it. -/
theorem runCmd_control_of_named {c : Ctx} (hc : namedCtx s r = some c) (hfits : fits c = true) :
    runCmd k (commandPart s k r) (controlNeed r s form fits) (controlEffect r s act) r s.nextId (counted r s) =
      act c s.nextId (came k r s) := by
  rw [runCmd_accepted h rfl hf (by simp [controlNeed, hs, hc, hfits]) (by simp [controlNeed, hc]) rfl, controlEffect, hc]

/-- A control of a context that no request of the partition holds is ST_NOT_FOUND. -/
theorem runCmd_control_of_unnamed (hc : namedCtx s r = none) :
    runCmd k (commandPart s k r) (controlNeed r s form fits) (controlEffect r s act) r s.nextId (counted r s) =
      finishPlain (came k r s) s.nextId .notFound 0 := by
  have hb := bound_of_accepted h
  obtain ⟨hturn, hperm, hhead, hdig, -⟩ := h
  refine runCmd_fails hturn rfl ?_ (firstFail_counted hb)
  simp [firstFail, controlNeed, hperm, hhead, hdig, hf, hs, hc]

end

end

/-- Settles O31. A submission goes by the free contexts and by what its payload names; a control by the request it names. -/
theorem requestsAndControls : Obligations.RequestsAndControls := by
  unfold Obligations.RequestsAndControls
  constructor
  · intro r s hs i l models accepted
    refine ⟨fun h hf hfit hfound => ?_, fun h hf hfit hfound => ?_⟩
    · have hform : (queryForm l && queryFits s i l) = true := by simp [hf, hfit]
      rw [exec_querySubmit h]
      refine ⟨fun id hid => ⟨fun hd => ⟨_, congrArg _ (runCmd_submit_of_intact hs h hform hfound hid hd), ?_⟩, fun hd => ?_⟩,
        fun hid => ?_⟩
      · exact submitted_acceptRequest hid .querySubmit true _ _ _ (by rfl) _
      · rw [runCmd_submit_of_damaged hs h hform hfound hid hd]
      · rw [runCmd_submit_of_full hs h hform hfound hid]
    · have hform : (generateForm l && generateFits s i l) = true := by simp [hf, hfit]
      rw [exec_generateSubmit h]
      refine ⟨fun id hid => ⟨fun hd => ⟨_, congrArg _ (runCmd_submit_of_intact hs h hform hfound hid hd), ?_⟩, fun hd => ?_⟩,
        fun hid => ?_⟩
      · exact submitted_acceptRequest hid .generateSubmit false _ _ _ (by rfl) _
      · rw [runCmd_submit_of_damaged hs h hform hfound hid hd]
      · rw [runCmd_submit_of_full hs h hform hfound hid]
  · intro r s hs act
    refine ⟨fun c hc => ⟨fun h hf hnew => ?_, fun h hf hy hp hnew hheld hpend => ?_, fun h hf hp hpend hfill => ?_⟩,
      fun hc => ⟨fun h hf => ?_, fun h hf => ?_, fun h hf => ?_⟩⟩
    · rw [exec_requestCancel h, runCmd_control_of_named hs h (by simp [hf]) hc (by simp [hnew])]
      rfl
    · rw [exec_requestPause h, runCmd_control_of_named hs h hf hc (by simp [hy, hp, hnew, hheld, hpend])]
      rfl
    · rw [exec_requestResume h, runCmd_control_of_named hs h (by simp [hf]) hc (by simp [hp, hpend, hfill])]
      rfl
    · rw [exec_requestCancel h, runCmd_control_of_unnamed hs h (by simp [hf]) hc]
    · rw [exec_requestPause h, runCmd_control_of_unnamed hs h hf hc]
    · rw [exec_requestResume h, runCmd_control_of_unnamed hs h (by simp [hf]) hc]

end Sys2Proof.Laws
end

section
/-! SUPPORT. Steps that are formed and boundaries that are passed: what settles before a step is formed, when none is formed, and
what a boundary does once its step is over. The section settles O39. -/

namespace Sys2Proof.Laws

open Sys2Proof Sys2Proof.Machine

/-! ### What settles first (11 R289; 13 R360) -/

/-- Without launches none ends and none waits to be posted. -/
theorem endLaunches_of_none {s : State} (h : s.launches = []) : endLaunches s = s := by
  unfold endLaunches
  rw [h]
  unfold postAll
  rw [List.filter_nil, List.foldl_nil, h]
  rfl

/-- A partition without a re-bind has no switch to go on. -/
theorem switchGoes_of_none {s : State} {i : Nat} (h : (s.part i).rebind = none) : switchGoes s i = s := by
  have hgo : rebindGo i s = s := by simp only [rebindGo, h]
  unfold switchGoes
  rw [hgo]
  simp only [afterSwitch, h]

/-- Without launches and without a re-bind nothing settles. -/
theorem settle_of_nothing {s : State} (hl : s.launches = []) (hr : ∀ k, k < 32 → (s.part k).rebind = none) :
    settle s = s := by
  unfold settle
  rw [endLaunches_of_none hl]
  refine List.foldlRecOn (motive := fun t => t = s) (List.range 32) switchGoes rfl fun t ht k hk => ?_
  rw [ht, switchGoes_of_none (hr k (List.mem_range.1 hk))]

/-! ### STEP_FORM (11 R289, R290, R292, R293) -/

theorem exec_stepForm {s : State} (h : s.power.railTripped = false) (i : Nat) :
    exec (.stepForm i) s = .next (stepForm i (settle s)) := live_next h

/-- What holds a step back: a re-bind that is pending, or a step formed ahead of the one that runs. -/
theorem held_iff {p : Partition} :
    (!serves p || p.rebind.isSome || decide (p.stepsDone + 1 < p.stepsFormed)) = true ↔
      serves p = false ∨ p.rebind.isSome = true ∨ p.stepsDone + 1 < p.stepsFormed := by
  simp [or_assoc]

/-- No step is formed without service, while a re-bind is pending, or two ahead of the one that runs. -/
theorem stepForm_of_held {s : State} {i : Nat} (h : (s.part i).serve = none ∨ serves (s.part i) = false ∨
    (s.part i).rebind.isSome = true ∨ (s.part i).stepsDone + 1 < (s.part i).stepsFormed) : stepForm i s = s := by
  unfold stepForm
  dsimp only
  split
  next => rfl
  next v hv =>
    have hserve : (s.part i).serve ≠ none := by simp [hv]
    exact if_pos (held_iff.2 (h.resolve_left hserve))

/-- The state in which the step formed next stands with its batches, bound to the release it is formed under. -/
def stepAdded (i : Nat) (bs : List Batch) (s : State) : State :=
  s.modPart i fun p => { p with
    stepsFormed := p.stepsFormed + 1, steps := p.steps ++ [⟨p.stepsFormed + 1, bs, false, [], nextAligned s i⟩] }

section
variable {s : State} {i : Nat} {v : Serving} {f : List Batch × State} (hv : (s.part i).serve = some v)
  (hs : serves (s.part i) = true) (hr : (s.part i).rebind = none) (hn : (s.part i).stepsFormed ≤ (s.part i).stepsDone + 1)
  (hf : formBatches (actIdle i s) i v = f)
include hv hs hr hn hf

/-- A step that nothing holds back is formed for its batches, or for slices that can ride in it; none is formed without both. -/
theorem stepForm_of_free : stepForm i s =
    if (f.1.isEmpty && (ridersOf f.2 i).isEmpty) = true then f.2
    else if ((stepAdded i f.1 f.2).part i).stepsDone + 1 = (f.2.part i).stepsFormed + 1
      then postStep i (stepAdded i f.1 f.2) else stepAdded i f.1 f.2 := by
  have hfree : ¬(!serves (s.part i) || (s.part i).rebind.isSome ||
      decide ((s.part i).stepsDone + 1 < (s.part i).stepsFormed)) = true := by
    rw [held_iff]
    simp [hs, hr, hn]
  unfold stepForm
  dsimp only
  rw [hv]
  dsimp only
  rw [if_neg hfree, hf]
  rfl

theorem stepForm_of_no_work (hb : f.1 = []) (hj : ridersOf f.2 i = []) : stepForm i s = f.2 := by
  rw [stepForm_of_free hv hs hr hn hf, if_pos (by simp [hb, hj])]

theorem stepForm_of_work (h : f.1 ≠ [] ∨ ridersOf f.2 i ≠ []) : stepForm i s =
    if ((stepAdded i f.1 f.2).part i).stepsDone = (f.2.part i).stepsFormed
    then postStep i (stepAdded i f.1 f.2) else stepAdded i f.1 f.2 := by
  have hwork : ¬(f.1.isEmpty && (ridersOf f.2 i).isEmpty) = true := by
    rw [Bool.and_eq_true, List.isEmpty_iff, List.isEmpty_iff]
    exact fun ⟨hb, hj⟩ => h.elim (fun hne => hne hb) fun hne => hne hj
  rw [stepForm_of_free hv hs hr hn hf, if_neg hwork]
  simp only [Nat.add_right_cancel_iff]

end

/-! ### STEP_BOUNDARY (11 R290) -/

theorem exec_stepBoundary {s : State} (h : s.power.railTripped = false) (i : Nat) :
    exec (.stepBoundary i) s = .next (stepBoundary i s) := live_next h

/-- Before the last launch of a step is complete there is no boundary. -/
theorem stepBoundary_of_running {s : State} {i : Nat} (h : stepOver (endLaunches s) i = false) :
    stepBoundary i s = endLaunches s := by
  unfold stepBoundary
  exact if_pos (by simp [h])

/-- The state in which a step of a partition is over and counted. -/
def stepCounted (i : Nat) (s : State) : State := { s with
  parts := s.parts.set i { s.part i with
    stepsDone := (s.part i).stepsDone + 1, steps := (s.part i).steps.filter fun x => x.no != (s.part i).stepsDone + 1 }
  ctr := setKey s.ctr ⟨.serveSteps, i, 0⟩ (lookupD s.ctr ⟨.serveSteps, i, 0⟩ 0 + 1) }

/-- At the boundary of a step that is over what is due acts. -/
theorem stepBoundary_of_over {s : State} {i : Nat} (h : stepOver (endLaunches s) i = true) :
    stepBoundary i s = boundaryActs i (((endLaunches s).part i).stepsDone + 1) (stepCounted i (endLaunches s)) := by
  unfold stepBoundary
  exact if_neg (by simp [h])

/-! ### CHANGE_BOUNDARY (08 R232; 09 R255) -/

theorem exec_changeBoundary {s : State} (h : s.power.railTripped = false) (i : Nat) :
    exec (.changeBoundary i) s = .next (changeBoundary i s) := live_next h

/-- Where changes and epochs may act without a step: LOADED or SERVING with no step in progress. -/
theorem changeBoundary_eq (i : Nat) (s : State) : changeBoundary i s =
    if ((s.part i).state = .loaded ∨ (s.part i).state = .serving) ∧ (s.part i).stepsDone = (s.part i).stepsFormed
    then boundaryEpochs i (boundaryChanges i s) else s := by
  simp [changeBoundary]

/-- Settles O39. A step is formed by what holds it back and by what it is formed for; a boundary acts once its step is over, and
without steps changes and epochs act alone. -/
theorem stepsAndBoundaries : Obligations.StepsAndBoundaries := by
  unfold Obligations.StepsAndBoundaries
  intro i s hrail
  refine ⟨⟨settle_of_nothing, fun hheld => ?_, fun v hv hs hr hn => ⟨fun hb hj => ?_, fun hwork => ?_⟩⟩,
    ⟨endLaunches_of_none, fun hrun => ?_, fun hover => ?_⟩, fun hnot => ?_, fun hstate hsteps => ?_⟩
  · rw [exec_stepForm hrail, stepForm_of_held hheld]
  · rw [exec_stepForm hrail, stepForm_of_no_work hv hs hr hn rfl hb hj]
  · rw [exec_stepForm hrail, stepForm_of_work hv hs hr hn rfl hwork]
    rfl
  · rw [exec_stepBoundary hrail, stepBoundary_of_running hrun]
  · rw [exec_stepBoundary hrail, stepBoundary_of_over hover]
    rfl
  · rw [exec_changeBoundary hrail, changeBoundary_eq, if_neg]
    rintro ⟨hl | hl, hn⟩ <;> simp [hl, hn] at hnot
  · rw [exec_changeBoundary hrail, changeBoundary_eq, if_pos ⟨hstate, hsteps⟩]

end Sys2Proof.Laws
end

section
/-! SUPPORT. The batch of a GENERATOR while it is formed: what its decode rows, its chunks of prompts and the fitting of its page
lists keep of the rows it may have. The section settles O40. -/

namespace Sys2Proof.Laws

open Sys2Proof Sys2Proof.Machine

/-! ### What a batch has added (11 R292) -/

/-- Rows taken by what a batch has added. -/
def rowsTaken (l : List Added) : Nat := (l.map (·.n)).sum

@[simp] theorem rowsTaken_nil : rowsTaken [] = 0 := rfl

@[simp] theorem rowsTaken_cons (a : Added) (l : List Added) : rowsTaken (a :: l) = a.n + rowsTaken l := by
  simp [rowsTaken]

@[simp] theorem rowsTaken_append (l k : List Added) : rowsTaken (l ++ k) = rowsTaken l + rowsTaken k := by
  simp [rowsTaken]

/-- Some of the additions took no more rows than all of them. -/
theorem rowsTaken_le_of_sublist {l k : List Added} (h : l.Sublist k) : rowsTaken l ≤ rowsTaken k := by
  induction h with
  | slnil => exact Nat.le_refl _
  | cons a _ ih =>
    rw [rowsTaken_cons]
    omega
  | cons_cons a _ ih =>
    rw [rowsTaken_cons, rowsTaken_cons]
    omega

/-- The additions keep the limits of their batch: rows in all, decode rows, and one row for each that decodes. -/
structure AddedWithin (limit decodes : Nat) (l : List Added) : Prop where
  rows : rowsTaken l ≤ limit
  decode : l.countP (·.decode) ≤ decodes
  alone : ∀ a ∈ l, a.decode = true → a.n = 1

/-- With some of its additions taken out a batch stays within its limits. -/
theorem AddedWithin.of_sublist {limit decodes : Nat} {l k : List Added} (h : AddedWithin limit decodes k)
    (hl : l.Sublist k) : AddedWithin limit decodes l where
  rows := Nat.le_trans (rowsTaken_le_of_sublist hl) h.rows
  decode := Nat.le_trans hl.countP_le h.decode
  alone a ha := h.alone a (hl.subset ha)

/-- The rows of the additions that decode, or of those that do not. -/
def pickedRows (d : Bool) (l : List Added) : List BatchRow := (l.filter fun a => a.decode == d).flatMap addedRows

theorem addedRows_of_decode {a : Added} (h : a.decode = true) : (addedRows a).length = 1 := by
  simp [addedRows, h]

theorem addedRows_of_prefill {a : Added} (h : a.decode = false) : (addedRows a).length ≤ a.n := by
  rw [addedRows, if_neg (by simp only [h, Bool.false_eq_true, not_false_eq_true]), unitRows, List.length_map,
    List.length_zipIdx]
  exact List.length_take_le _ _

section
variable {d : Bool} {a : Added} (l : List Added)

theorem pickedRows_cons_of_eq (h : a.decode = d) : pickedRows d (a :: l) = addedRows a ++ pickedRows d l := by
  simp [pickedRows, h]

theorem pickedRows_cons_of_ne (h : a.decode ≠ d) : pickedRows d (a :: l) = pickedRows d l := by
  simp [pickedRows, h]

/-- There is a decode row for each addition that decodes. -/
theorem pickedRows_decode_length : (pickedRows true l).length = l.countP (·.decode) := by
  induction l with
  | nil => rfl
  | cons a l ih =>
    cases h : a.decode with
    | true => simp [pickedRows_cons_of_eq l h, addedRows_of_decode h, ih, h, Nat.add_comm]
    | false => simp [pickedRows_cons_of_ne l (a := a) (d := true) (by simp [h]), ih, h]

end

/-- A batch has no more rows than its additions took. -/
theorem pickedRows_length_le {l : List Added} (halone : ∀ a ∈ l, a.decode = true → a.n = 1) :
    (pickedRows false l).length + (pickedRows true l).length ≤ rowsTaken l := by
  induction l with
  | nil => exact Nat.zero_le _
  | cons a l ih =>
    have ih := ih fun b hb => halone b (List.mem_cons_of_mem a hb)
    cases h : a.decode with
    | true =>
      have hn : a.n = 1 := halone a List.mem_cons_self h
      have hrow := addedRows_of_decode h
      rw [pickedRows_cons_of_eq l h, pickedRows_cons_of_ne l (by simp [h]), List.length_append, rowsTaken_cons]
      omega
    | false =>
      have hrow := addedRows_of_prefill h
      rw [pickedRows_cons_of_eq l h, pickedRows_cons_of_ne l (by simp [h]), List.length_append, rowsTaken_cons]
      omega

/-! ### A batch while it is formed (11 R292, R488) -/

/-- A batch while it is formed is within its limits: its rows with the budget that is left, and its decode rows as counted. -/
structure FormingWithin (limit decodes : Nat) (f : Forming) : Prop where
  budget : rowsTaken f.added + f.budget ≤ limit
  counted : f.added.countP (·.decode) = f.rows
  most : f.rows ≤ decodes
  alone : ∀ a ∈ f.added, a.decode = true → a.n = 1

/-- A batch starts with its limit as its budget. -/
theorem FormingWithin.start (s : State) (limit decodes : Nat) : FormingWithin limit decodes ⟨s, limit, 0, []⟩ :=
  ⟨by simp, rfl, Nat.zero_le decodes, by simp⟩

section
variable {limit decodes : Nat} {f : Forming}

theorem FormingWithin.added (h : FormingWithin limit decodes f) : AddedWithin limit decodes f.added :=
  ⟨Nat.le_trans (Nat.le_add_right _ _) h.budget, h.counted ▸ h.most, h.alone⟩

/-- The state beside a batch is free. -/
theorem FormingWithin.with_state (h : FormingWithin limit decodes f) (s : State) : FormingWithin limit decodes { f with s } :=
  ⟨h.budget, h.counted, h.most, h.alone⟩

/-- A batch that takes rows out of its budget, one where they decode and as many decode rows may be, stays within its limits. -/
theorem FormingWithin.grow (h : FormingWithin limit decodes f) {a : Added} (hn : a.n ≤ f.budget)
    (hone : a.decode = true → a.n = 1) {rows : Nat} (hrows : rows = f.rows + boolNat a.decode) (hmost : rows ≤ decodes)
    (s : State) : FormingWithin limit decodes ⟨s, f.budget - a.n, rows, f.added ++ [a]⟩ := by
  obtain ⟨hbudget, hcounted, -, halone⟩ := h
  refine ⟨?_, ?_, hmost, ?_⟩
  · show rowsTaken (f.added ++ [a]) + (f.budget - a.n) ≤ limit
    rw [rowsTaken_append, rowsTaken_cons, rowsTaken_nil]
    omega
  · show (f.added ++ [a]).countP (·.decode) = rows
    rw [List.countP_append, hcounted, hrows, List.countP_singleton]
    rfl
  · intro b hb
    rcases List.mem_append.1 hb with hb | hb
    · exact halone b hb
    · rwa [List.mem_singleton.1 hb]

/-- A request decodes one more position while the budget and the number of decode rows allow it. -/
theorem FormingWithin.decoded (h : FormingWithin limit decodes f) (m : Model) (c : Ctx) :
    FormingWithin limit decodes (formDecode m decodes f c) := by
  unfold formDecode
  split
  next hroom =>
    obtain ⟨hrows, hleft, -⟩ := hroom
    split
    next s _ => exact h.grow (a := ⟨c, c.taken, 1, true⟩) hleft (fun _ => rfl) rfl hrows s
    next => exact h.with_state _
  next => exact h

/-- A chunk of a prompt is cut to the budget. -/
theorem FormingWithin.prefilled (h : FormingWithin limit decodes f) (m : Model) (chunk hold : Nat) (c : Ctx) :
    FormingWithin limit decodes (formPrefill m chunk hold f c) := by
  unfold formPrefill
  extract_lets n
  have hn : n ≤ f.budget := Nat.le_trans (Nat.min_le_right _ _) (Nat.sub_le _ _)
  split
  next => exact h
  next =>
    split
    next s _ => exact h.grow (a := ⟨c, c.taken, n, false⟩) hn nofun rfl h.most s
    next => exact h.with_state _

end

/-- Page lists that do not fit take requests out of the batch, the last added first. -/
theorem fitLists_added_sublist (i : Nat) (m : Model) (lines used n : Nat) (f : Forming) :
    (fitLists i m lines used n f).added.Sublist f.added := by
  induction n generalizing f with
  | zero => exact List.Sublist.refl _
  | succ n ih =>
    unfold fitLists
    dsimp only
    split
    · exact List.Sublist.refl _
    · split
      next => exact List.Sublist.refl _
      next => exact (ih _).trans (List.dropLast_sublist _)

/-- A GENERATOR's batch is formed from its decoding requests, then from prompts, and then its page lists are fitted. -/
theorem genBatch_formed (s : State) (i : Nat) (m : Model) (v : Serving) (used : Nat) :
    ∃ (decoding prompts : List Ctx) (hold lines n : Nat) (f : Forming),
      f = fitLists i m lines used n (prompts.foldl (formPrefill m v.chunkMax hold)
        (decoding.foldl (formDecode m v.decodeMax) ⟨s, min v.stepTokens (rowLimit s i m), 0, []⟩)) ∧
      (genBatch s i m v used).1 = ⟨m.id, pickedRows false f.added, pickedRows true f.added⟩ :=
  ⟨_, _, _, _, _, _, rfl, rfl⟩

/-- The rows of a GENERATOR's batch are those of additions within its limits. -/
theorem genBatch_rows (s : State) (i : Nat) (m : Model) (v : Serving) (used : Nat) :
    ∃ l, AddedWithin (min v.stepTokens (rowLimit s i m)) v.decodeMax l ∧
      (genBatch s i m v used).1 = ⟨m.id, pickedRows false l, pickedRows true l⟩ := by
  obtain ⟨decoding, prompts, hold, lines, n, f, hf, hb⟩ := genBatch_formed s i m v used
  refine ⟨f.added, ?_, hb⟩
  rw [hf]
  refine AddedWithin.of_sublist (FormingWithin.added ?_) (fitLists_added_sublist i m lines used n _)
  refine List.foldlRecOn (motive := FormingWithin _ _) prompts _ ?_ fun f hf c _ => hf.prefilled m v.chunkMax hold c
  refine List.foldlRecOn (motive := FormingWithin _ _) decoding _ ?_ fun f hf c _ => hf.decoded m c
  exact FormingWithin.start s _ _

/-- Settles O40. A batch starts with its limits as its budget; decode rows and chunks come out of it, and page lists that do not
fit only take away. -/
theorem batchWithinLimits : Obligations.BatchWithinLimits := by
  unfold Obligations.BatchWithinLimits
  intro s i m v used b
  obtain ⟨l, ⟨hrows, hdecode, halone⟩, hb⟩ := genBatch_rows s i m v used
  have hle := pickedRows_length_le halone
  obtain ⟨htokens, hlimit⟩ := Nat.le_min.1 (Nat.le_trans hle hrows)
  rw [← pickedRows_decode_length] at hdecode
  rw [show b = ⟨m.id, pickedRows false l, pickedRows true l⟩ from hb]
  exact ⟨htokens, hlimit, hdecode⟩

end Sys2Proof.Laws
end

section
/-! SUPPORT. Steps of the block: the front command, or one count of the Launch Counter; what a count leaves as it was, and when
nothing but the counter and the regulators moves. The section settles O1 and O2. -/

namespace Sys2Proof.Laws

open Sys2Proof Sys2Proof.Machine

/-! ### The queue -/

theorem step_of_front {s : State} {c : Instr} {rest : List Instr} (h : s.pending = c :: rest) :
    step s = exec c { s with pending := rest } := by
  unfold step
  rw [h]

theorem step_of_empty {s : State} (h : s.pending = []) : step s = .next (tick s) := by
  unfold step
  rw [h]

/-- Settles O1: a queue with a front command is not empty. -/
theorem stepRunsFrontCommand : Obligations.StepRunsFrontCommand := by
  unfold Obligations.StepRunsFrontCommand
  exact fun _ _ _ => step_of_front

/-! ### What only counts (15 R411; log 27) -/

/-- Nothing but the counters and the number of free values used differs. -/
def OnlyCounts (s t : State) : Prop := ∃ c k, t = { s with ctr := c, freeIdx := k }

theorem OnlyCounts.refl (s : State) : OnlyCounts s s := ⟨s.ctr, s.freeIdx, rfl⟩

theorem OnlyCounts.trans {s t u : State} (h : OnlyCounts s t) (h' : OnlyCounts t u) : OnlyCounts s u := by
  obtain ⟨c, k, rfl⟩ := h
  obtain ⟨d, m, rfl⟩ := h'
  exact ⟨d, m, rfl⟩

/-- A sequence of counts only counts. -/
theorem OnlyCounts.foldl {α : Type} {f : State → α → State} (hf : ∀ t a, OnlyCounts t (f t a)) (l : List α) (s : State) :
    OnlyCounts s (l.foldl f s) :=
  List.foldlRecOn (motive := OnlyCounts s) l f (OnlyCounts.refl s) fun t ht a _ => ht.trans (hf t a)

theorem onlyCounts_bump (s : State) (c : Ctr) (p i n : Nat) : OnlyCounts s (bump s c p i n) := by
  obtain ⟨l, h⟩ := bump_eq s c p i n
  exact ⟨l, s.freeIdx, h⟩

theorem onlyCounts_freeIdx (s : State) : OnlyCounts s { s with freeIdx := s.freeIdx + 1 } := ⟨s.ctr, s.freeIdx + 1, rfl⟩

theorem onlyCounts_bumpFree (s : State) (c : Ctr) (p i : Nat) : OnlyCounts s (bumpFree s c p i) :=
  (onlyCounts_freeIdx s).trans (onlyCounts_bump _ c p i _)

theorem onlyCounts_tierWait (s : State) (w : Nat × List Nat) : OnlyCounts s (tierWait s w) :=
  (onlyCounts_freeIdx s).trans (onlyCounts_bump _ _ _ _ _)

theorem onlyCounts_engineWaits (s : State) : OnlyCounts s (engineWaits s) :=
  OnlyCounts.foldl (fun t _ => ((onlyCounts_bump t _ _ _ _).trans (onlyCounts_bump _ _ _ _ _)).trans
    (onlyCounts_bump _ _ _ _ _)) _ s

theorem onlyCounts_regWaits (s : State) : OnlyCounts s (regWaits s) := by
  refine OnlyCounts.foldl (fun t i => OnlyCounts.foldl (fun u r => ?_) _ t) _ s
  by_cases hlink : r.2 = 1
  · rw [if_pos hlink]
    split
    · exact onlyCounts_bumpFree u _ _ _
    · exact OnlyCounts.refl u
  · rw [if_neg hlink]
    split
    · exact onlyCounts_bump u _ _ _ _
    · exact OnlyCounts.refl u

theorem onlyCounts_freeCounts (s : State) : OnlyCounts s (freeCounts s) := by
  unfold freeCounts
  refine (((onlyCounts_bumpFree s _ _ _).trans (OnlyCounts.foldl (fun t k => ?_) _ _)).trans
    (OnlyCounts.foldl (fun t k => ?_) _ _)).trans (OnlyCounts.foldl (fun t i => ?_) _ _)
  · exact onlyCounts_bumpFree t .landingWait 0 k
  · exact onlyCounts_bumpFree t .linkFecCorr 0 k
  · split
    · exact OnlyCounts.refl t
    · exact onlyCounts_bumpFree t .landingBytes i 0

/-! ### A count passes (12 R321; 13 R353) -/

/-- What the launches that wait make of a count: their stalls, and what they ask the Cut again (01 R18; 15 R402). -/
def launchesWait (s : State) : State := askAgain (s.launches.foldl stallOne s)

/-- Besides what the launches make of it, a count moves the counter and the regulators, and counts. -/
theorem countPasses_eq (s : State) : ∃ c k, countPasses s = { launchesWait s with
    lc := (launchesWait s).lc + 1
    parts := (launchesWait s).parts.map fun p => { p with regs := p.regs.map Regulator.gain }
    ctr := c, freeIdx := k } := by
  have hcounts : OnlyCounts (launchesWait s)
      (freeCounts (regWaits (engineWaits ((tierWaits (launchesWait s)).foldl tierWait (launchesWait s))))) :=
    (((OnlyCounts.foldl onlyCounts_tierWait _ _).trans (onlyCounts_engineWaits _)).trans (onlyCounts_regWaits _)).trans
      (onlyCounts_freeCounts _)
  obtain ⟨c, k, h⟩ := hcounts
  refine ⟨c, k, ?_⟩
  show ({ freeCounts _ with lc := _, parts := _ } : State) = _
  unfold launchesWait at h ⊢
  rw [h]

theorem stallOne_lc (s : State) (l : Launch) : (stallOne s l).lc = s.lc := by
  unfold stallOne
  split
  · rfl
  split
  · rfl
  split
  · rfl
  dsimp only
  split
  · exact bump_lc _ _ _ _ _
  · rfl

theorem launchesWait_lc (s : State) : (launchesWait s).lc = s.lc :=
  List.foldlRecOn (motive := fun t => t.lc = s.lc) s.launches stallOne rfl fun t ht l _ => (stallOne_lc t l).trans ht

theorem askAgain_of_none {s : State} (h : s.launches = []) : askAgain s = s := by
  have hasked : askAgain s = { s with cut := { s.cut with requests := s.cut.requests ++ [] } } := by
    unfold askAgain
    rw [h]
    rfl
  rw [hasked, List.append_nil]

/-- Without launches nothing stalls and nothing is asked again. -/
theorem launchesWait_of_none {s : State} (h : s.launches = []) : launchesWait s = s := by
  rw [launchesWait, h]
  exact askAgain_of_none h

theorem fireDue_of_none {s : State} (h : s.launches = []) : fireDue s = s := by
  unfold fireDue
  rw [h]
  rfl

/-! ### Resets that wait (12 R342) -/

theorem groupResetNow_of_not_due {s : State} (h : s.boot.resetDue = false) : groupResetNow s = s := by
  unfold groupResetNow
  rw [h]
  rfl

/-- Settles O2. A count is the stalls of launches, the counter and the regulators, and counting; without launches and without a
reset that is due only the last three are left. -/
theorem idleStepIsOneCount : Obligations.IdleStepIsOneCount := by
  unfold Obligations.IdleStepIsOneCount
  intro s hidle
  refine ⟨tick s, step_of_empty hidle, fun hoff => if_pos hoff, fun hon => ⟨if_neg hon, ?_, fun hdue hnone => ?_⟩⟩
  · obtain ⟨c, k, h⟩ := countPasses_eq (fireDue s)
    rw [h, launchesWait_lc]
  · obtain ⟨c, k, h⟩ := countPasses_eq s
    rw [launchesWait_of_none hnone] at h
    have ht : tick s = countPasses s := by
      rw [tick, if_neg hon, fireDue_of_none hnone, groupResetNow_of_not_due (by rw [h]; exact hdue)]
    rw [ht, h]
    exact ⟨rfl, rfl, rfl⟩

end Sys2Proof.Laws
end

section
/-! SUPPORT. Global commands: their own checks, which all four share, what an accepted one becomes, and when a deferred one joins.
The section settles O37. -/

namespace Sys2Proof.Laws

open Sys2Proof Sys2Proof.Machine

/-! ### The four commands (12 R333, R335) -/

/-- The own checks of a global command: its form, a partition that takes it, an epoch newer than the last of its domain, and room
for a further operation. -/
def globalNeed (c : Code) (r : Req) (s : State) : Need :=
  { Need.pass with
    form := globalForm s (reqPid s r) c r.pay
    state := globalState (reqPart s r).state &&
      decide (lookupD (reqPart s r).lastEpochs (fld r.pay 0 2) 0 < fld r.pay 4 4)
    room := if 16 ≤ (reqPart s r).globals.countP (·.open_) then some .noSpace else none }

/-- The state in which a partition keeps one operation more, whose epoch is the last of its domain. -/
def globalKept (i : Nat) (g : GlobalOp) (s : State) : State :=
  s.modPart i fun p => { p with globals := p.globals ++ [g], lastEpochs := setKey p.lastEpochs g.domain g.epoch }

/-- An operation waits behind one of its domain, else the partition joins. -/
theorem globalStart_eq (c : Code) (i : Nat) (l : List Byte) (t : Nat) (s : State) : globalStart c i l t s =
    if (s.part i).globals.any (fun x => x.open_ && x.domain == (globalOp c l t).domain) = true then
      globalKept i (globalOp c l t) s
    else groupResetNow (joinOp (globalKept i (globalOp c l t) s) i (globalOp c l t)) := rfl

/-- A partition that takes global commands is the one of the request's pair. -/
theorem part_reqPid_of_globalState {r : Req} {s : State} (h : globalState (reqPart s r).state = true) :
    s.part (reqPid s r) = reqPart s r :=
  part_reqPid_of_bound fun hu => by simp [hu, globalState] at h

section
variable {c : Code} {r : Req} {s : State} (h : Accepted c r s)
include h

theorem live_enter_global : live s (enter c (cmdGlobal c) r s) =
    .next (runCmd c (pairPart s r) (globalNeed c r s) (globalStart c (reqPid s r) r.pay) r s.nextId (counted r s)) := by
  have hb := bound_of_accepted h
  refine (live_enter_accepted h (cmdGlobal c)).trans (congrArg _ ?_)
  simp only [cmdGlobal, reqPid_counted hb, pairPart_counted hb, reqPart_counted hb]
  rfl

/-- An accepted command whose state check alone fails completes with ST_WRONG_STATE. -/
theorem runCmd_wrong_state {part : Option Nat} {n : Need} {eff : Nat → State → State} (hp : part = commandPart s c r)
    (hf : n.form = true) (hs : n.state = false) :
    runCmd c part n eff r s.nextId (counted r s) = finishPlain (came c r s) s.nextId .wrongState n.stateDetail := by
  have hb := bound_of_accepted h
  obtain ⟨hturn, hperm, hhead, hdig, -⟩ := h
  refine runCmd_fails hturn hp ?_ (firstFail_counted hb)
  simp [firstFail, hperm, hhead, hdig, hf, hs]

end

/-- The row of each of the four is one operation of its code. -/
theorem exec_global {i : Instr} {c : Code} {r : Req} {s : State} (hi : commandOf i = some (c, r))
    (hc : c ∈ [Code.barrierJoin, .broadcastSend, .snapshotTake, .groupReset]) :
    exec i s = live s (enter c (cmdGlobal c) r s) ∧ commandPart s c r = pairPart s r := by
  cases i <;> cases hi
  case barrierJoin => exact ⟨rfl, rfl⟩
  case broadcastSend => exact ⟨rfl, rfl⟩
  case snapshotTake => exact ⟨rfl, rfl⟩
  case groupReset => exact ⟨rfl, rfl⟩
  all_goals exact absurd hc (by decide)

/-! ### GLOBAL_DEFERRED_START (12 R335) -/

theorem exec_globalDeferredStart {s : State} (h : s.power.railTripped = false) (k d : Nat) :
    exec (.globalDeferredStart k d) s = .next (deferredStart k d s) := live_next h

theorem deferredStart_of_busy {s : State} {k d : Nat} (h : domainBusy (s.part k) d = true) : deferredStart k d s = s :=
  if_pos h

theorem deferredStart_of_free {s : State} {k d : Nat} {g : GlobalOp} (h : domainBusy (s.part k) d = false)
    (hg : (s.part k).globals.find? (fun g => g.open_ && g.joinedAt.isNone && g.domain == d) = some g) :
    deferredStart k d s = groupResetNow (joinOp s k g) := by
  simp only [deferredStart, h, hg, Bool.false_eq_true, if_false]

/-- Settles O37. The four commands share their checks and what follows; the first check that fails gives the status. -/
theorem globalCommands : Obligations.GlobalCommands := by
  unfold Obligations.GlobalCommands
  constructor
  · intro i c r s hi hc hacc k p g hform hstate s1
    obtain ⟨hexec, hpart⟩ := exec_global (s := s) hi hc
    have hrun := hexec.trans (live_enter_global hacc)
    have hk : reqPart s r = p := (part_reqPid_of_globalState hstate).symm
    refine ⟨fun hnew hroom => ?_, fun hold => ?_, fun hnew hfull => ?_⟩
    · rw [hrun, runCmd_accepted hacc hpart.symm hform ?_ rfl ?_, globalStart_eq]
      · rfl
      · exact Bool.and_eq_true_iff.2 ⟨hstate, decide_eq_true (hk ▸ hnew)⟩
      · exact if_neg (by rw [hk]; omega)
    · rw [hrun, runCmd_wrong_state hacc hpart.symm hform ?_]
      · rfl
      · exact Bool.and_eq_false_iff.2 (.inr (decide_eq_false (by rw [hk]; exact Nat.not_lt.2 hold)))
    · rw [hrun, runCmd_no_room hacc hpart.symm hform ?_ rfl (st := .noSpace) ?_]
      · rfl
      · exact Bool.and_eq_true_iff.2 ⟨hstate, decide_eq_true (hk ▸ hnew)⟩
      · exact if_pos (by rw [hk]; exact hfull)
  · intro s k d hrail
    refine ⟨fun hbusy => ?_, fun g hfree hg => ?_⟩
    · rw [exec_globalDeferredStart hrail, deferredStart_of_busy hbusy]
    · rw [exec_globalDeferredStart hrail, deferredStart_of_free hfree hg]

end Sys2Proof.Laws
end

section
/-! SUPPORT. Blaze tokens that arrive and members that time out: where a token goes by what its partition has joined, and what a
member that waits does once its time is over. The section settles O51. -/

namespace Sys2Proof.Laws

open Sys2Proof Sys2Proof.Machine

/-! ### What a token makes of its partition (12 R335) -/

theorem charge_of_nothing (s : State) (i : Nat) (k : Flowing) : charge s i k 0 = s := rfl

/-- Where no tokens go out nothing is delivered. -/
theorem deliver_nil (fuel : Nat) (s : State) : deliver fuel s [] = s := by
  cases fuel <;> rfl

theorem deliverAll_nil (s : State) (i : Nat) : deliverAll s i [] = s := deliver_nil deliverFuel s

/-- Can the epoch of a token no longer be joined: does no operation of it wait, and is it not newer than the last of its domain? -/
def tokenLate (p : Partition) (l : List Byte) : Bool :=
  !(p.globals.any fun g => g.open_ && g.joinedAt.isNone && g.domain == fld l 4 2 && g.epoch == fld l 0xC 4) &&
    decide (fld l 0xC 4 ≤ lookupD p.lastEpochs (fld l 4 2) 0)

theorem tokenLate_iff {p : Partition} {l : List Byte} : tokenLate p l = true ↔
    p.globals.all (fun g => !(g.open_ && g.joinedAt.isNone && g.domain == fld l 4 2 && g.epoch == fld l 0xC 4)) = true ∧
      fld l 0xC 4 ≤ lookupD p.lastEpochs (fld l 4 2) 0 := by
  rw [tokenLate, Bool.and_eq_true_iff, decide_eq_true_iff, List.not_any_eq_all_not]

/-- What makes a token drop whose epoch is not joined. -/
theorem tokenDrops_iff {p : Partition} {l : List Byte} :
    (p.state == .unbound || tokenLate p l || decide (64 ≤ p.heldTokens.length)) = true ↔
      p.state = .unbound ∨ tokenLate p l = true ∨ 64 ≤ p.heldTokens.length := by
  simp [or_assoc]

/-- A token that is held is counted, and stands behind those held before it. -/
theorem tokenKept_eq (s : State) (i : Nat) (f : Frame) :
    ((bump s .blazeReceived i 0 1).modPart i fun p => { p with heldTokens := p.heldTokens ++ [f] }) = { s with
      ctr := setKey s.ctr ⟨.blazeReceived, i, 0⟩ (lookupD s.ctr ⟨.blazeReceived, i, 0⟩ 0 + 1)
      parts := s.parts.set i { s.part i with heldTokens := (s.part i).heldTokens ++ [f] } } := rfl

theorem joinedOp_bump (s : State) (c : Ctr) (p k n i d e : Nat) : joinedOp (bump s c p k n) i d e = joinedOp s i d e := by
  simp only [joinedOp, bump_part]

section
variable {s : State} {i : Nat} {f : Frame}

theorem tokenAt_of_joined {g : GlobalOp} (hg : joinedOp s i (fld f.data 4 2) (fld f.data 0xC 4) = some g) :
    tokenAt s i f = takeToken12 (bump s .blazeReceived i 0 1) i g f.data := by
  simp only [tokenAt, joinedOp_bump, hg]

/-- A token of an epoch that is not joined is dropped or held. -/
theorem tokenAt_of_not_joined (hg : joinedOp s i (fld f.data 4 2) (fld f.data 0xC 4) = none) : tokenAt s i f =
    if (s.part i).state == .unbound || tokenLate (s.part i) f.data || decide (64 ≤ (s.part i).heldTokens.length) then
      (bump (bump s .blazeReceived i 0 1) .blazeDrop i 0 1, [])
    else ((bump s .blazeReceived i 0 1).modPart i fun p => { p with heldTokens := p.heldTokens ++ [f] }, []) := by
  simp only [tokenAt, joinedOp_bump, hg]
  rfl

end

/-! ### A token arrives (12 R331, R332) -/

theorem deliverFrame_of_blaze {f : Frame} (h : f.kind = .blaze) (s : State) : deliverFrame s f = blazeArrive f s := by
  unfold deliverFrame
  rw [h]

/-- The state in which the data of a token has passed its partition's regulator (01 R16). -/
def tokenCharged (f : Frame) (s : State) : State := charge s f.dstPart.toNat .link (f.data.length - 192)

section
variable {f : Frame} {s : State}

theorem blazeArrive_of_no_partition (h : 32 ≤ f.dstPart.toNat) : blazeArrive f s = s := if_pos h

section
variable (hi : f.dstPart.toNat < 32)
include hi

/-- A token for a partition of the module leaves what the partition makes of it, and what goes out from there. -/
theorem blazeArrive_of_token {r : State × List Outgoing} (hr : tokenAt (tokenCharged f s) f.dstPart.toNat f = r) :
    blazeArrive f s = groupResetNow (deliverAll r.1 f.dstPart.toNat r.2) := by
  rw [← hr]
  exact if_neg (Nat.not_le.2 hi)

variable (hg : joinedOp (tokenCharged f s) f.dstPart.toNat (fld f.data 4 2) (fld f.data 0xC 4) = none)
include hg

theorem blazeArrive_drops (hd : ((tokenCharged f s).part f.dstPart.toNat).state = .unbound ∨
      tokenLate ((tokenCharged f s).part f.dstPart.toNat) f.data = true ∨
      64 ≤ ((tokenCharged f s).part f.dstPart.toNat).heldTokens.length) :
    blazeArrive f s = groupResetNow (bump (bump (tokenCharged f s) .blazeReceived f.dstPart.toNat 0 1)
      .blazeDrop f.dstPart.toNat 0 1) := by
  rw [blazeArrive_of_token hi ((tokenAt_of_not_joined hg).trans (if_pos (tokenDrops_iff.2 hd))), deliverAll_nil]

theorem blazeArrive_holds (hd : ¬(((tokenCharged f s).part f.dstPart.toNat).state = .unbound ∨
      tokenLate ((tokenCharged f s).part f.dstPart.toNat) f.data = true ∨
      64 ≤ ((tokenCharged f s).part f.dstPart.toNat).heldTokens.length)) :
    blazeArrive f s = groupResetNow ((bump (tokenCharged f s) .blazeReceived f.dstPart.toNat 0 1).modPart f.dstPart.toNat
      fun p => { p with heldTokens := p.heldTokens ++ [f] }) := by
  rw [blazeArrive_of_token hi ((tokenAt_of_not_joined hg).trans (if_neg (mt tokenDrops_iff.1 hd))), deliverAll_nil]

end
end

/-! ### Timeouts (12 R336; log 28) -/

section
variable {s : State} {i d : Nat} {g : GlobalOp}

theorem exec_blazeChildTimeout (h : s.power.railTripped = false) (i d : Nat) :
    exec (.blazeChildTimeout i d) s = .next (childTimeout i d s) := live_next h

theorem exec_blazeDownTimeout (h : s.power.railTripped = false) (i d : Nat) :
    exec (.blazeDownTimeout i d) s = .next (downTimeout i d s) := live_next h

theorem childTimeout_of_none (h : domainOp s i d = none) : childTimeout i d s = s := by
  simp only [childTimeout, h]

theorem downTimeout_of_none (h : domainOp s i d = none) : downTimeout i d s = s := by
  simp only [downTimeout, h]

theorem childTimeout_of_joined {at_ : Nat} (h : domainOp s i d = some g) (hj : g.joinedAt = some at_) : childTimeout i d s =
    if (g.sentUpAt.isNone && decide (at_ + 1000000 * g.timeoutMs ≤ s.now)) = true then giveUp s i g fun _ => true else s := by
  simp only [childTimeout, h, hj]

theorem downTimeout_of_not_sent (h : domainOp s i d = some g) (hs : g.sentUpAt = none) : downTimeout i d s = s := by
  simp only [downTimeout, h, hs]

theorem downTimeout_of_sent {at_ : Nat} (h : domainOp s i d = some g) (hs : g.sentUpAt = some at_) : downTimeout i d s =
    if at_ + 1000000 * g.timeoutMs ≤ s.now then ownTimeout s i g else s := by
  simp only [downTimeout, h, hs]

/-- A member that completes on its own does so with the TIMEOUT flag and without classes (12 R337). -/
theorem ownTimeout_eq (s : State) (i : Nat) (g : GlobalOp) : ∃ flags covered missing release,
    ownTimeout s i g = completeOp { s with freeIdx := s.freeIdx + 3 } i g ⟨flags, covered, missing, [], []⟩ release [] ∧
      opStatus flags = .timeout :=
  ⟨tokFlags false false true false, _, _, _, rfl, by decide⟩

end

/-- Settles O51. A token is dropped, held or taken by what its partition has joined; the two timeouts act from their time on. -/
theorem blazeTokens : Obligations.BlazeTokens := by
  unfold Obligations.BlazeTokens
  constructor
  · intro f s hf i l c s1
    rw [deliverFrame_of_blaze hf]
    refine ⟨blazeArrive_of_no_partition, fun hi hg => ⟨fun hbound hlate hroom => ?_, fun hd => ?_⟩, fun g hi hg => ?_,
      fun hl => ?_, groupResetNow_of_not_due⟩
    · have hheld : ¬((c.part i).state = .unbound ∨ tokenLate (c.part i) l = true ∨ 64 ≤ (c.part i).heldTokens.length) := by
        rintro (h | h | h)
        · exact hbound h
        · exact hlate (tokenLate_iff.1 h)
        · omega
      rw [blazeArrive_holds hi hg hheld, show tokenCharged f s = c from rfl, tokenKept_eq]
    · exact blazeArrive_drops hi hg (hd.imp_right (Or.imp_left tokenLate_iff.2))
    · exact blazeArrive_of_token hi (tokenAt_of_joined hg)
    · show charge s i .link (l.length - 192) = s
      rw [Nat.sub_eq_zero_of_le hl, charge_of_nothing]
  · intro i d s hrail
    rw [exec_blazeChildTimeout hrail, exec_blazeDownTimeout hrail]
    refine ⟨fun hnone => ?_, fun g hg => ⟨fun at_ hj hs ht => ?_, fun at_ hj hwait => ?_, fun at_ hs ht => ?_, ?_⟩⟩
    · rw [childTimeout_of_none hnone, downTimeout_of_none hnone]
      exact ⟨rfl, rfl⟩
    · rw [childTimeout_of_joined hg hj, if_pos (by simp [hs, ht])]
    · refine congrArg _ ((childTimeout_of_joined hg hj).trans (if_neg fun hover => ?_))
      obtain ⟨hsent, htime⟩ := Bool.and_eq_true_iff.1 hover
      rcases hwait with h | h
      · simp [Option.isNone_iff_eq_none.1 hsent] at h
      · exact Nat.not_lt.2 (of_decide_eq_true htime) h
    · rw [downTimeout_of_sent hg hs, if_pos ht]
      obtain ⟨flags, covered, missing, release, heq, hst⟩ := ownTimeout_eq s i g
      exact ⟨flags, covered, missing, release, congrArg _ heq, hst⟩
    · rintro (hs | ⟨at_, hs, ht⟩)
      · rw [downTimeout_of_not_sent hg hs]
      · rw [downTimeout_of_sent hg hs, if_neg (Nat.not_le.2 ht)]

end Sys2Proof.Laws
end

section
/-! SUPPORT. Partitions that are bound and unbound: the lowest free units of each residue, the pairs that a binding takes and
leaves, and what is left of a partition that is unbound. The section settles O26. -/

namespace Sys2Proof.Laws

open Sys2Proof Sys2Proof.Machine

/-! ### The lowest free units of each residue (13 R350) -/

theorem firstFrom_mod {p : Nat → Bool} {fuel i step n : Nat} (h : firstFrom p fuel i step = some n) : n % step = i % step := by
  induction fuel generalizing i with
  | zero => cases h
  | succ fuel ih =>
    rw [firstFrom] at h
    split at h
    next => rw [Option.some.inj h]
    next => rw [ih h, Nat.add_mod_right]

/-- A unit chosen for an index: one of its residue below the limit that nobody has. -/
def UnitFor (step limit : Nat) (taken : List Nat) (i x : Nat) : Prop := x % step = i % step ∧ x < limit ∧ x ∉ taken

/-- One unit is chosen for each index, in order. -/
theorem pickUnits_chosen {step limit : Nat} {is taken xs : List Nat} (h : pickUnits step limit taken is = some xs) :
    xs.length = is.length ∧ ∀ (k i x : Nat), is[k]? = some i → xs[k]? = some x → UnitFor step limit taken i x := by
  induction is generalizing taken xs with
  | nil =>
    cases h
    exact ⟨rfl, fun k i x hi _ => nomatch hi⟩
  | cons j is ih =>
    rw [pickUnits] at h
    split at h
    next y hy =>
      split at h
      next hlt =>
        obtain ⟨ys, hys, rfl⟩ := Option.map_eq_some_iff.1 h
        obtain ⟨hlen, hrest⟩ := ih hys
        refine ⟨congrArg (· + 1) hlen, fun k i x hi hx => ?_⟩
        cases k with
        | zero =>
          cases hi
          cases hx
          have hfree : (!taken.contains y) = true := firstFrom_holds hy
          exact ⟨by rw [firstFrom_mod hy, Nat.mod_mod], hlt, by simpa only [Bool.not_eq_true', List.contains_eq_mem,
            decide_eq_false_iff_not] using hfree⟩
        | succ k =>
          obtain ⟨hmod, hlim, hnew⟩ := hrest k i x hi hx
          exact ⟨hmod, hlim, fun hm => hnew (List.mem_cons_of_mem _ hm)⟩
      next => cases h
    next => cases h

/-- For the first `n` indices `n` units are chosen, each for its index. -/
theorem pickUnits_range {step limit n : Nat} {taken xs : List Nat} (h : pickUnits step limit taken (List.range n) = some xs) :
    xs.length = n ∧ ∀ k x, xs[k]? = some x → UnitFor step limit taken k x := by
  obtain ⟨hlen, hall⟩ := pickUnits_chosen h
  rw [List.length_range] at hlen
  refine ⟨hlen, fun k x hx => hall k k x ?_ hx⟩
  obtain ⟨hk, -⟩ := List.getElem?_eq_some_iff.1 hx
  exact List.getElem?_range (hlen ▸ hk)

/-! ### What only the lines of WORK can tell from another partition -/

/-- Two partitions that differ at most in the lines of WORK that work holds. -/
def SameButWork (p q : Partition) : Prop := q = { p with work := q.work }

theorem SameButWork.refl (p : Partition) : SameButWork p p := rfl

theorem SameButWork.trans {p q r : Partition} (h : SameButWork p q) (h' : SameButWork q r) : SameButWork p r := by
  unfold SameButWork at *
  rw [h', h]

/-! ### Pairs one after another -/

section
variable {α : Type} {f : State → α → State} {key : α → Nat} (hne : ∀ t a k, k ≠ key a → (f t a).pair k = t.pair k)
include hne

theorem foldl_pair_ne {l : List α} {k : Nat} (hk : k ∉ l.map key) (s : State) : (l.foldl f s).pair k = s.pair k := by
  induction l generalizing s with
  | nil => rfl
  | cons a l ih =>
    rw [List.map_cons, List.mem_cons, not_or] at hk
    rw [List.foldl_cons, ih hk.2, hne s a k hk.1]

/-- A pair that is touched has at the end what its last touch gives it. -/
theorem foldl_pair_mem (hlen : ∀ t a, (f t a).pairs.length = t.pairs.length) {P : Pair → Prop} {k n : Nat}
    (hself : ∀ t a, key a = k → t.pairs.length = n → P ((f t a).pair k)) {l : List α} (hk : k ∈ l.map key) {s : State}
    (hs : s.pairs.length = n) : P ((l.foldl f s).pair k) := by
  induction l generalizing s with
  | nil => cases hk
  | cons a l ih =>
    rw [List.foldl_cons]
    by_cases hl : k ∈ l.map key
    · exact ih hl ((hlen s a).trans hs)
    · rw [foldl_pair_ne hne hl]
      exact hself s a (((List.mem_cons.1 hk).resolve_right hl).symm) hs

end

/-- A pair with a region of a binding, its indices and expected number at 0 (02 R30). -/
def takenPair (i : Nat) (e : Nat × Geometry × List Nat) (p : Pair) : Pair :=
  { Pair.reset with
    bound := true, part := some i, geom := e.2.1, segs := e.2.2,
    tailErr := p.tailErr, headErr := p.headErr, unboundWr := p.unboundWr, via := p.via }

theorem freshPair_pair (i : Nat) (t : State) (e : Nat × Geometry × List Nat) (k : Nat) :
    (freshPair i e t).pair k = (t.modPair e.1 (takenPair i e)).pair k := rfl

theorem freshPair_pair_ne (i : Nat) (t : State) (e : Nat × Geometry × List Nat) (k : Nat) (h : k ≠ e.1) :
    (freshPair i e t).pair k = t.pair k := by
  rw [freshPair_pair, pair_modPair_ne t h.symm]

theorem freshPair_pairs_length (i : Nat) (t : State) (e : Nat × Geometry × List Nat) :
    (freshPair i e t).pairs.length = t.pairs.length := modPair_pairs_length t e.1 (takenPair i e)

/-- A pair that has just been bound to a partition. -/
def BoundAfresh (i : Nat) (p : Pair) : Prop :=
  p.bound = true ∧ p.part = some i ∧ p.reqTail = 0 ∧ p.cplTail = 0 ∧ p.expSeq = 0 ∧ p.results = []

theorem freshPair_pair_self (i : Nat) {t : State} {e : Nat × Geometry × List Nat} (h : e.1 < t.pairs.length) :
    BoundAfresh i ((freshPair i e t).pair e.1) := by
  rw [freshPair_pair, pair_modPair_self t h]
  exact ⟨rfl, rfl, rfl, rfl, rfl, rfl⟩

theorem cutRegions_keys (segs : List Nat) (ps : List (Nat × Geometry)) : (cutRegions segs ps).map (·.1) = ps.map (·.1) := by
  induction ps generalizing segs with
  | nil => rfl
  | cons p ps ih => rw [cutRegions, List.map_cons, List.map_cons, ih]

section
variable (l : List Byte) (s : State)

/-- The pairs that a binding takes: the named ones and its peer pair. -/
def pairsTaken (l : List Byte) : List Nat := (withPeer (bindParse l).part (bindParse l).pairs).map (·.1)

theorem bindPairs_frame : bindPairs l s = { s with pairs := (bindPairs l s).pairs, landing := (bindPairs l s).landing } := by
  unfold bindPairs
  refine List.foldlRecOn (motive := fun t : State => t = { s with pairs := t.pairs, landing := t.landing }) _ _ rfl
    fun t ht e _ => ?_
  rw [ht]
  rfl

variable {l}

theorem bindPairs_pair_ne {k : Nat} (h : k ∉ pairsTaken l) : (bindPairs l s).pair k = s.pair k :=
  foldl_pair_ne (freshPair_pair_ne (bindParse l).part) (by rwa [cutRegions_keys]) s

theorem bindPairs_pair_mem {k : Nat} (h : k ∈ pairsTaken l) (hk : k < s.pairs.length) :
    BoundAfresh (bindParse l).part ((bindPairs l s).pair k) := by
  refine foldl_pair_mem (freshPair_pair_ne (bindParse l).part) (freshPair_pairs_length (bindParse l).part)
    (fun t e he ht => ?_) (by rwa [cutRegions_keys]) rfl
  subst he
  exact freshPair_pair_self _ (ht ▸ hk)

end

/-! ### PARTITION_BIND (13 R346 to R351) -/

theorem part_lt_of_bindForm {l : List Byte} {rebind : Bool} (h : bindForm l rebind = true) : (bindParse l).part < 32 := by
  refine Decidable.byContradiction fun hp => ?_
  simp only [bindForm, hp, decide_false, Bool.and_false, Bool.false_and, Bool.false_eq_true] at h

/-- A capacity check that passes. -/
theorem room_passes {c : Prop} [Decidable c] {d : Nat} {x : Option Status × Nat} :
    (if c then (some .noSpace, d) else x) = (none, 0) ↔ ¬c ∧ x = (none, 0) := by
  split <;> simp [*]

theorem picked_of_bindRoom {s : State} {b : BindPay} (h : bindRoom s b = (none, 0)) :
    ∃ segs frames, pickUnits 6 bindableSegs (takenSegs s) (List.range b.segs) = some segs ∧
      pickUnits 8 bindableFrames (takenFrames s) (List.range b.frames) = some frames := by
  unfold bindRoom at h
  split at h
  next => cases h
  next =>
    simp only [room_passes, Bool.not_eq_true, Option.isNone_eq_false_iff, Option.isSome_iff_exists] at h
    obtain ⟨-, ⟨segs, hsegs⟩, ⟨frames, hframes⟩, -⟩ := h
    exact ⟨segs, frames, hsegs, hframes⟩

/-- The digest is formed over what the partition holds, not over the digest it had (12 R329). -/
theorem digestOfPart_withDigest (p : Partition) (d : W64) : digestOfPart { p with digest := d } = digestOfPart p := by
  have h : digestMessage { p with digest := d } = digestMessage p := rfl
  rw [digestOfPart, h, digestOfPart]

theorem formDigest_part_self {s : State} {i : Nat} (h : i < s.parts.length) :
    (formDigest s i).part i = { s.part i with digest := digestOfPart (s.part i) } :=
  part_modPart_self s h fun p => { p with digest := digestOfPart p }

/-- A partition as bound, before its digest is formed. -/
def partAsBound (l : List Byte) (s : State) (segs frames : List Nat) : Partition :=
  let b := bindParse l
  let gen := if b.frames = 0 then s.t1.gen else (s.t1.gen + 1) % 2 ^ 48
  { Partition.unbound with
    state := .bound, segs, runs := b.runs, frames := frames.map fun f => (f, gen), pairs := b.pairs.map (·.1),
    kvCompress := b.kvCompress, regs := mkRegs b.regs, linkWeight := b.linkWeight, peers := b.peers,
    config := bytesAt l b.configStart b.configLen, generation := if b.frames = 0 then 0 else gen }

section
variable (l : List Byte) (s : State)

theorem bindEffect_frame : bindEffect l s = { s with
    parts := (bindEffect l s).parts, stands := (bindEffect l s).stands, t1 := { s.t1 with gen := (bindEffect l s).t1.gen } } := rfl

theorem bindEffect_stands : (bindEffect l s).stands =
    (bindStands s (bindParse l).part ((freeStands s).take (bindParse l).stands)).stands := rfl

variable {l s}

theorem bindEffect_part_ne {k : Nat} (h : k ≠ (bindParse l).part) : (bindEffect l s).part k = s.part k :=
  (part_modPart_ne _ h.symm _).trans (part_modPart_ne _ h.symm _)

/-- The partition is bound with what was chosen for it, and its digest is formed. -/
theorem bindEffect_part_self {segs frames : List Nat} (hi : (bindParse l).part < s.parts.length)
    (hsegs : pickUnits 6 bindableSegs (takenSegs s) (List.range (bindParse l).segs) = some segs)
    (hframes : pickUnits 8 bindableFrames (takenFrames s) (List.range (bindParse l).frames) = some frames) :
    (bindEffect l s).part (bindParse l).part =
      { partAsBound l s segs frames with digest := digestOfPart (partAsBound l s segs frames) } := by
  unfold bindEffect
  rw [formDigest_part_self ((modPart_parts_length _ _ _).symm ▸ hi), part_modPart_self _ (by exact hi), hsegs, hframes]
  rfl

/-- An accepted PARTITION_BIND has its effect, and ends unless a segment of it is still being zeroed. -/
theorem exec_partitionBind {r : Req} (h : Accepted .partitionBind r s) (hf : bindForm r.pay false = true)
    (hs : (s.part (bindParse r.pay).part).state = .unbound) (hr : bindRoom s (bindParse r.pay) = (none, 0)) :
    exec (.partitionBind r) s = .next (bindDone (bindEffect r.pay (came .partitionBind r s)) s.nextId r.pay) := by
  have hroom : bindRoom (counted r s) (bindParse r.pay) = (none, 0) := hr
  have hstate : ((counted r s).part (bindParse r.pay).part).state = .unbound := hs
  refine (live_enter_accepted h cmdPartitionBind).trans (congrArg _ ?_)
  simp only [cmdPartitionBind, hf, hroom, hstate, if_true]
  exact runCmd_accepted h rfl rfl rfl rfl rfl

end

/-! ### PARTITION_UNBIND (13 R356) -/

theorem freeWork_part (s : State) (owners : List Nat) (k : Nat) : SameButWork (s.part k) ((freeWork s owners).part k) := by
  have h : (freeWork s owners).part k =
      { s.part k with work := (s.part k).work.filter fun w => !owners.contains w.1 } := by
    simp only [State.part, freeWork, List.getD_eq_getElem?_getD, List.getElem?_map]
    cases s.parts[k]? with
    | none => rfl
    | some p => rfl
  rw [h]
  rfl

theorem dropLaunches_eq (s : State) (gone : Launch → Bool) : ∃ parts cut,
    dropLaunches s gone = { s with parts, cut, launches := s.launches.filter fun l => !gone l } := ⟨_, _, rfl⟩

theorem dropEngineWork_eq (s : State) (i : Nat) : ∃ parts cut units searches calls fetched stands,
    dropEngineWork s i = { s with
      parts, cut, units, searches, calls, fetched, stands
      launches := s.launches.filter fun l => !(l.part == i && !isStandTest l)
      jobs := s.jobs.filter fun j => j.part != i, fills := s.fills.filter fun f => f.part != i } := by
  obtain ⟨_, _, hlaunches⟩ := dropLaunches_eq s fun l => l.part == i && !isStandTest l
  rw [dropEngineWork, hlaunches]
  exact ⟨_, _, _, _, _, _, _, rfl⟩

theorem dropLaunches_part (s : State) (gone : Launch → Bool) (k : Nat) :
    SameButWork (s.part k) ((dropLaunches s gone).part k) := freeWork_part s _ k

/-- The state in which the commands, the requests and the engine work of a partition are abandoned, but for command `t`. -/
def workAbandoned (i t : Nat) (s : State) : State :=
  dropLaunches (dropEngineWork { s with
    cmds := s.cmds.filter fun c => c.part != some i || c.ticket == t, ctxs := s.ctxs.filter fun c => c.part != i } i)
    fun l => l.part == i

theorem workAbandoned_eq (i t : Nat) (s : State) : ∃ parts cut units searches calls fetched stands,
    workAbandoned i t s = { s with
      parts, cut, units, searches, calls, fetched, stands
      cmds := s.cmds.filter fun c => c.part != some i || c.ticket == t, ctxs := s.ctxs.filter fun c => c.part != i
      launches := (s.launches.filter fun l => !(l.part == i && !isStandTest l)).filter fun l => !(l.part == i)
      jobs := s.jobs.filter fun j => j.part != i, fills := s.fills.filter fun f => f.part != i } := by
  obtain ⟨_, _, units, searches, calls, fetched, stands, hwork⟩ := dropEngineWork_eq { s with
    cmds := s.cmds.filter fun c => c.part != some i || c.ticket == t, ctxs := s.ctxs.filter fun c => c.part != i } i
  rw [workAbandoned, hwork]
  exact ⟨_, _, units, searches, calls, fetched, stands, rfl⟩

theorem workAbandoned_part_ne {i k : Nat} (h : k ≠ i) (t : Nat) (s : State) :
    SameButWork (s.part k) ((workAbandoned i t s).part k) := by
  refine .trans ?_ (dropLaunches_part _ _ k)
  have hk := part_modPart_ne (dropLaunches s fun l => l.part == i && !isStandTest l) h.symm fun p => { p with work := [] }
  exact .trans (dropLaunches_part s (fun l => l.part == i && !isStandTest l) k) (hk ▸ rfl)

theorem releasePair_pair_ne (t : State) (k j : Nat) (h : j ≠ k) : (releasePair k t).pair j = t.pair j := by
  unfold releasePair
  rw [pair_modPair_ne t h.symm]

theorem releasePair_pairs_length (t : State) (k : Nat) : (releasePair k t).pairs.length = t.pairs.length :=
  (modPair_pairs_length t k _).trans rfl

theorem releasePair_pair_self (t : State) (k : Nat) : ((releasePair k t).pair k).bound = false := by
  unfold releasePair
  by_cases hk : k < t.pairs.length
  · rw [pair_modPair_self t hk]
    rfl
  · simp [State.pair, State.modPair, List.getD, hk, Pair.reset]

/-- The state in which some pairs are no longer bound. -/
def pairsReleased (ks : List Nat) (s : State) : State := ks.foldl (fun s k => releasePair k s) s

section
variable (ks : List Nat) (s : State)

theorem pairsReleased_eq : ∃ pairs, pairsReleased ks s = { s with pairs } := by
  unfold pairsReleased
  refine List.foldlRecOn (motive := fun t : State => ∃ pairs, t = { s with pairs }) _ _ ⟨_, rfl⟩ fun t ⟨_, ht⟩ k _ => ?_
  rw [ht]
  exact ⟨_, rfl⟩

variable {ks}

theorem pairsReleased_pair_ne {k : Nat} (h : k ∉ ks) : (pairsReleased ks s).pair k = s.pair k :=
  foldl_pair_ne (key := id) releasePair_pair_ne (by rwa [List.map_id]) s

theorem pairsReleased_pair_mem {k : Nat} (h : k ∈ ks) : ((pairsReleased ks s).pair k).bound = false :=
  foldl_pair_mem (key := id) releasePair_pair_ne releasePair_pairs_length (P := fun p => p.bound = false)
    (fun t j hj _ => hj ▸ releasePair_pair_self t j) (by rwa [List.map_id]) rfl

end

theorem mem_partStands {s : State} {i n : Nat} : n ∈ partStands s i ↔
    n < 64 ∧ ∃ x ∈ s.stands, x.logical = some n ∧ x.part = some i := by
  simp [partStands]

/-- A partition whose stands are freed has none. -/
theorem partStands_unbindStands (s : State) (i : Nat) : partStands (unbindStands s (partStands s i)) i = [] := by
  refine List.eq_nil_iff_forall_not_mem.2 fun n hn => ?_
  obtain ⟨hlt, y, hy, hlog, hpart⟩ := mem_partStands.1 hn
  obtain ⟨x, hx, rfl⟩ := List.mem_map.1 hy
  cases hxl : x.logical with
  | none => simp [hxl] at hlog
  | some m =>
    by_cases hm : m ∈ partStands s i
    · simp [hxl, hm] at hpart
    · simp only [hxl, List.contains_iff_mem, hm, if_false] at hlog hpart
      exact hm (mem_partStands.2 ⟨Option.some.inj hlog ▸ hlt, x, hx, hxl, hpart⟩)

/-- The state in which a partition is UNBOUND, its stands are free, and some segments are zeroed. -/
def partUnbound (i : Nat) (segs : List Nat) (s : State) : State :=
  (releaseSegs (unbindStands s (partStands s i)) segs).modPart i fun _ => Partition.unbound

theorem partUnbound_frame (i : Nat) (segs : List Nat) (s : State) : partUnbound i segs s = { s with
    parts := s.parts.set i Partition.unbound
    stands := (unbindStands s (partStands s i)).stands
    landing := Mem.zeroSegs s.landing segs
    zeroing := s.zeroing ++ segs.filter fun g => !s.zeroing.contains g } := rfl

theorem partUnbound_partStands (i : Nat) (segs : List Nat) (s : State) : partStands (partUnbound i segs s) i = [] :=
  partStands_unbindStands s i

theorem partUnbound_part_self {i : Nat} {s : State} (h : i < s.parts.length) (segs : List Nat) :
    (partUnbound i segs s).part i = Partition.unbound :=
  part_modPart_self (releaseSegs (unbindStands s (partStands s i)) segs) h fun _ => Partition.unbound

theorem partUnbound_part_ne {i k : Nat} (h : k ≠ i) (s : State) (segs : List Nat) : (partUnbound i segs s).part k = s.part k :=
  part_modPart_ne (releaseSegs (unbindStands s (partStands s i)) segs) h.symm fun _ => Partition.unbound

section
variable (i t : Nat) (s : State)

/-- The state in which the pairs of the partition are released as well. -/
def pairsLeft : State := pairsReleased ((s.part i).pairs ++ [64 + i]) (workAbandoned i t s)

/-- What unbinding leaves: the work abandoned, the pairs released, then the partition UNBOUND. -/
theorem unbindEffect_eq : unbindEffect i t s = partUnbound i (s.part i).segs (pairsLeft i t s) := rfl

/-- What unbinding does to the lists of work and to the memories, whatever it does to the rest. -/
theorem unbindEffect_frame : ∃ pairs parts cut units searches calls fetched stands,
    unbindEffect i t s = { s with
      pairs, parts, cut, units, searches, calls, fetched, stands
      cmds := s.cmds.filter fun c => c.part != some i || c.ticket == t, ctxs := s.ctxs.filter fun c => c.part != i
      launches := (s.launches.filter fun l => !(l.part == i && !isStandTest l)).filter fun l => !(l.part == i)
      jobs := s.jobs.filter fun j => j.part != i, fills := s.fills.filter fun f => f.part != i
      landing := Mem.zeroSegs s.landing (s.part i).segs
      zeroing := s.zeroing ++ (s.part i).segs.filter fun g => !s.zeroing.contains g } := by
  obtain ⟨_, hpairs⟩ := pairsReleased_eq ((s.part i).pairs ++ [64 + i]) (workAbandoned i t s)
  obtain ⟨_, _, units, searches, calls, fetched, stands, hwork⟩ := workAbandoned_eq i t s
  rw [unbindEffect_eq, partUnbound_frame, pairsLeft, hpairs, hwork]
  exact ⟨_, _, _, units, searches, calls, fetched, _, rfl⟩

theorem workAbandoned_parts_length : (workAbandoned i t s).parts.length = s.parts.length := by
  simp [workAbandoned, dropLaunches, dropEngineWork, freeWork]

theorem pairsLeft_parts : (pairsLeft i t s).parts = (workAbandoned i t s).parts := by
  obtain ⟨_, hpairs⟩ := pairsReleased_eq ((s.part i).pairs ++ [64 + i]) (workAbandoned i t s)
  rw [pairsLeft, hpairs]

theorem unbindEffect_partStands : partStands (unbindEffect i t s) i = [] := partUnbound_partStands ..

variable {i s}

theorem unbindEffect_part_self (h : i < s.parts.length) : (unbindEffect i t s).part i = Partition.unbound := by
  rw [unbindEffect_eq]
  exact partUnbound_part_self (by rwa [pairsLeft_parts, workAbandoned_parts_length]) _

theorem unbindEffect_part_ne {k : Nat} (h : k ≠ i) : SameButWork (s.part k) ((unbindEffect i t s).part k) := by
  rw [unbindEffect_eq, partUnbound_part_ne h, State.part, State.part, pairsLeft_parts]
  exact workAbandoned_part_ne h t s

theorem unbindEffect_pair (k : Nat) : (unbindEffect i t s).pair k = (pairsLeft i t s).pair k := by
  rw [unbindEffect_eq, partUnbound_frame]
  rfl

theorem workAbandoned_pair (k : Nat) : (workAbandoned i t s).pair k = s.pair k := by
  obtain ⟨_, _, _, _, _, _, _, hwork⟩ := workAbandoned_eq i t s
  rw [hwork]
  rfl

theorem unbindEffect_pair_mem {k : Nat} (h : k ∈ (s.part i).pairs ++ [64 + i]) :
    ((unbindEffect i t s).pair k).bound = false := by
  rw [unbindEffect_pair]
  exact pairsReleased_pair_mem _ h

theorem unbindEffect_pair_ne {k : Nat} (h : k ∉ (s.part i).pairs ++ [64 + i]) : (unbindEffect i t s).pair k = s.pair k := by
  rw [unbindEffect_pair]
  exact (pairsReleased_pair_ne _ h).trans (workAbandoned_pair t k)

end

/-- An accepted PARTITION_UNBIND of a partition that is bound and serves nothing unbinds it. -/
theorem exec_partitionUnbind {r : Req} {s : State} (h : Accepted .partitionUnbind r s) (hf : partitionForm r.pay = true)
    (hs : (s.part (fld r.pay 0 1)).state = .bound ∨ (s.part (fld r.pay 0 1)).state = .loaded ∨
      (s.part (fld r.pay 0 1)).state = .faulted) :
    exec (.partitionUnbind r) s = .next
      (finishPlain (unbindEffect (fld r.pay 0 1) s.nextId (came .partitionUnbind r s)) s.nextId .ok 0) := by
  have hstate : ((counted r s).part (fld r.pay 0 1)).state = .bound ∨ ((counted r s).part (fld r.pay 0 1)).state = .loaded ∨
    ((counted r s).part (fld r.pay 0 1)).state = .faulted := hs
  refine (live_enter_accepted h cmdPartitionUnbind).trans (congrArg _ ?_)
  simp only [cmdPartitionUnbind]
  refine runCmd_accepted h rfl hf ?_ rfl rfl
  simpa [or_assoc] using hstate

/-- A partition in a state other than UNBOUND is one of the machine's. -/
theorem part_lt_of_state {s : State} {i : Nat} (h : (s.part i).state ≠ .unbound) : i < s.parts.length := by
  refine Decidable.byContradiction fun hi => h ?_
  rw [State.part, List.getD_eq_getElem?_getD, List.getElem?_eq_none (Nat.not_lt.1 hi)]
  rfl

/-- Settles O26. A binding takes units of each index's residue that are free and gives the pairs to the partition; unbinding
leaves nothing of it. -/
theorem bindAndUnbind : Obligations.BindAndUnbind := by
  unfold Obligations.BindAndUnbind
  constructor
  · intro r s h hf hs hr hlen b u v q
    obtain ⟨segs, frames, hsegs, hframes⟩ := picked_of_bindRoom hr
    have hq : q = _ := bindEffect_part_self (l := r.pay) (s := came .partitionBind r s)
      (hlen.symm ▸ part_lt_of_bindForm hf) hsegs hframes
    obtain ⟨hsl, hsg⟩ := pickUnits_range hsegs
    obtain ⟨hfl, hfg⟩ := pickUnits_range hframes
    refine ⟨exec_partitionBind h hf hs hr, ?_⟩
    rw [hq]
    refine ⟨rfl, rfl, rfl, rfl, rfl, rfl, rfl, rfl, (digestOfPart_withDigest _ _).symm, rfl, hsl,
      (List.length_map (fun f => (f, _))).trans hfl, hsg, fun k f hk => ?_,
      fun k hk => bindEffect_part_ne hk, bindEffect_stands r.pay (came .partitionBind r s),
      bindEffect_frame r.pay (came .partitionBind r s), bindPairs_frame r.pay u, fun k hk => bindPairs_pair_ne u hk,
      fun k hk hlt => bindPairs_pair_mem u hk (lt_of_lt_of_eq hlt List.length_set.symm)⟩
    obtain ⟨x, hx, rfl⟩ := Option.map_eq_some_iff.1 (List.getElem?_map.symm.trans hk)
    exact hfg k x hx
  · intro r s h hf i hs v u
    have hi : i < v.parts.length := part_lt_of_state (s := s) (by rcases hs with hs | hs | hs <;> simp [hs])
    refine ⟨exec_partitionUnbind h hf hs, unbindEffect_part_self _ hi, fun k hk => unbindEffect_part_ne _ hk,
      fun k hk => unbindEffect_pair_mem _ hk, fun k hk => unbindEffect_pair_ne _ hk, ?_⟩
    have hstands : partStands u i = [] := unbindEffect_partStands _ _ _
    obtain ⟨_, _, _, _, _, _, _, _, hu⟩ : ∃ _ _ _ _ _ _ _ _, u = _ := unbindEffect_frame i s.nextId v
    rw [hu] at hstands ⊢
    refine ⟨fun c hc => ?_, fun j hj => ?_, fun f hf => ?_, fun l hl => ?_, fun c hc => ?_, hstands, rfl, fun g hg => ?_, rfl⟩
    · simpa using (List.mem_filter.1 hc).2
    · simpa using (List.mem_filter.1 hj).2
    · simpa using (List.mem_filter.1 hf).2
    · simpa using (List.mem_filter.1 hl).2
    · simpa using (List.mem_filter.1 hc).2
    · by_cases hz : g ∈ v.zeroing
      · exact List.mem_append_left _ hz
      · exact List.mem_append_right _ (List.mem_filter.2 ⟨hg, by simpa using hz⟩)

end Sys2Proof.Laws
end

section
/-! SUPPORT. PARTITION_REBIND when it is taken: what its checks read of a pair, the resources that it chooses, and whether it
takes effect at once. The section settles O27. -/

namespace Sys2Proof.Laws

open Sys2Proof Sys2Proof.Machine

/-! ### What taking a command leaves of a pair (02 R38) -/

/-- Of a pair only the number it expects can differ once a command is counted. -/
theorem counted_pair_but_seq (r : Req) (s : State) (k : Nat) :
    (counted r s).pair k = { s.pair k with expSeq := ((counted r s).pair k).expSeq } := by
  by_cases h : r.pair = k
  · subst h
    by_cases hk : r.pair < s.pairs.length
    · simp [State.pair, counted, List.getD, hk]
    · simp [State.pair, counted, List.getD, hk]
  · rw [counted_pair_ne h]

section
variable (r : Req) (s : State) (k : Nat)

@[simp] theorem counted_pair_geom : ((counted r s).pair k).geom = (s.pair k).geom := by
  rw [counted_pair_but_seq]

@[simp] theorem counted_pair_fenced : ((counted r s).pair k).fenced = (s.pair k).fenced := by
  rw [counted_pair_but_seq]

@[simp] theorem counted_pair_results : ((counted r s).pair k).results = (s.pair k).results := by
  rw [counted_pair_but_seq]

@[simp] theorem counted_pair_waiting : ((counted r s).pair k).waiting = (s.pair k).waiting := by
  rw [counted_pair_but_seq]

end

/-! ### The checks of a re-bind (13 R357 to R359) -/

section
variable (r : Req) (s : State)

theorem counted_part (k : Nat) : (counted r s).part k = s.part k := rfl

theorem rebindPairs_counted (b : BindPay) : rebindPairs (counted r s) b = rebindPairs s b := by
  simp only [rebindPairs, counted_pair_geom, counted_part]

theorem pairIdle_counted : pairIdle (counted r s) = pairIdle s := by
  funext k
  simp only [pairIdle, counted_pair_fenced, counted_pair_results, counted_pair_waiting]
  rfl

theorem partBusy_counted (i : Nat) : partBusy (counted r s) i = partBusy s i := by
  simp only [partBusy, fencedOf, counted_pair_fenced, counted_pair_waiting, counted_part]
  rfl

theorem rebindState_counted (b : BindPay) : rebindState (counted r s) b = rebindState s b := by
  simp only [rebindState, pairIdle_counted, partBusy_counted, counted_part]
  rfl

theorem rebindRoom_counted (b : BindPay) : rebindRoom (counted r s) b = rebindRoom s b := rfl

end

theorem chosen_of_rebindRoom {s : State} {b : BindPay} (h : rebindRoom s b = (none, 0)) :
    ∃ segs frames, newSegsFor s (s.part b.part) b = some segs ∧ newFramesFor s (s.part b.part) b = some frames := by
  unfold rebindRoom at h
  split at h
  next => cases h
  next =>
    simp only [room_passes, Bool.not_eq_true, Option.isNone_eq_false_iff, Option.isSome_iff_exists] at h
    obtain ⟨-, ⟨segs, hsegs⟩, ⟨frames, hframes⟩, -, -⟩ := h
    exact ⟨segs, frames, hsegs, hframes⟩

/-- A partition that may be re-bound is one of the machine's. -/
theorem part_lt_of_rebindState {s : State} {b : BindPay} (h : rebindState s b = true) : b.part < s.parts.length := by
  refine part_lt_of_state fun hu => ?_
  simp [rebindState, hu] at h

/-! ### A re-bind begins (13 R358, R360) -/

/-- What a re-bind by command `t` chooses, and the boundary that it waits for, if any. -/
def rebindChosen (t : Nat) (pay : List Byte) (s : State) (segs frames : List Nat) (effectAt : Option Nat) : Rebind :=
  let b := bindParse pay
  { ticket := t, pay, atStep := (s.part b.part).stepsFormed, newSegs := segs, newFrames := frames
    newStands := (freeStands s).take (b.stands - (partStands s b.part).length), effectAt, switched := false, fresh := [] }

theorem modPart_modPart {s : State} {i : Nat} (h : i < s.parts.length) (f g : Partition → Partition) :
    (s.modPart i f).modPart i g = s.modPart i fun p => g (f p) := by
  rw [State.modPart, part_modPart_self s h]
  simp only [State.modPart, List.set_set]

/-- The state in which a re-bind of a partition is pending. -/
def withRebind (i : Nat) (rb : Rebind) (s : State) : State := s.modPart i fun p => { p with rebind := some rb }

section
variable {s : State} {i : Nat} (hi : i < s.parts.length)
include hi

theorem withRebind_rebind (rb : Rebind) : ((withRebind i rb s).part i).rebind = some rb := by
  rw [withRebind, part_modPart_self s hi]

/-- A pending re-bind that is changed. -/
theorem withRebind_map (rb : Rebind) (f : Rebind → Rebind) :
    ((withRebind i rb s).modPart i fun p => { p with rebind := p.rebind.map f }) = withRebind i (f rb) s :=
  modPart_modPart hi (fun p => { p with rebind := some rb }) fun p => { p with rebind := p.rebind.map f }

omit hi in
theorem slicesRunning_withRebind (rb : Rebind) : slicesRunning (withRebind i rb s) i = slicesRunning s i := rfl

/-- A re-bind that has taken effect switches, unless slices of its partition are in progress. -/
theorem rebindGo_withRebind {rb : Rebind} (he : rb.effectAt.isSome = true) (hw : rb.switched = false) :
    rebindGo i (withRebind i rb s) = if slicesRunning s i = true then withRebind i rb s
      else rebindDone i (rebindSwitch i rb (withRebind i rb s)) := by
  simp only [rebindGo, withRebind_rebind hi, slicesRunning_withRebind, he, hw]
  cases slicesRunning s i with
  | true => rfl
  | false => rfl

/-- A pending re-bind that takes effect now. -/
theorem rebindEffect_withRebind {rb : Rebind} (hw : rb.switched = false) :
    rebindEffect i (withRebind i rb s) =
      if slicesRunning s i = true then withRebind i { rb with effectAt := some s.now } s
      else rebindDone i (rebindSwitch i { rb with effectAt := some s.now }
        (withRebind i { rb with effectAt := some s.now } s)) := by
  have heff : rebindEffect i (withRebind i rb s) = rebindGo i (withRebind i { rb with effectAt := some s.now } s) :=
    congrArg (rebindGo i) (withRebind_map hi rb fun rb => { rb with effectAt := some s.now })
  exact heff.trans (rebindGo_withRebind hi rfl hw)

end

/-- While a step of its partition runs a re-bind waits; else it takes effect. -/
theorem rebindStart_of_chosen {t : Nat} {pay : List Byte} {s : State} {segs frames : List Nat}
    (hsegs : newSegsFor s (s.part (bindParse pay).part) (bindParse pay) = some segs)
    (hframes : newFramesFor s (s.part (bindParse pay).part) (bindParse pay) = some frames) :
    let p := s.part (bindParse pay).part
    let u := withRebind (bindParse pay).part (rebindChosen t pay s segs frames none) s
    rebindStart t pay s =
      if p.state = .serving ∧ p.stepsDone < p.stepsFormed then u else rebindEffect (bindParse pay).part u := by
  intro p u
  simp only [rebindStart, hsegs, hframes, Option.getD_some, Bool.and_eq_true, beq_iff_eq, decide_eq_true_eq]
  rfl

/-- An accepted PARTITION_REBIND whose own checks pass begins. -/
theorem exec_partitionRebind {r : Req} {s : State} (h : Accepted .partitionRebind r s) (hf : bindForm r.pay true = true)
    (hp : rebindPairs s (bindParse r.pay) = true) (hs : rebindState s (bindParse r.pay) = true)
    (hr : rebindRoom s (bindParse r.pay) = (none, 0)) :
    exec (.partitionRebind r) s = .next (rebindStart s.nextId r.pay (came .partitionRebind r s)) := by
  refine (live_enter_accepted h cmdPartitionRebind).trans (congrArg _ ?_)
  simp only [cmdPartitionRebind, rebindPairs_counted, rebindState_counted, rebindRoom_counted, hf, hp, hs, hr, Bool.and_self,
    if_true]
  exact runCmd_accepted h rfl rfl rfl rfl rfl

/-- Settles O27. A re-bind that is taken waits for the boundary of a step that runs, else for slices in progress, else it
switches. -/
theorem partitionRebind : Obligations.PartitionRebind := by
  unfold Obligations.PartitionRebind
  intro r s h hf b p hp hs hr
  obtain ⟨segs, frames, hsegs, hframes⟩ := chosen_of_rebindRoom hr
  refine ⟨segs, frames, hsegs, hframes, ?_⟩
  intro rb u
  have hi : b.part < (came .partitionRebind r s).parts.length := part_lt_of_rebindState (s := s) hs
  rw [exec_partitionRebind h hf hp hs hr, rebindStart_of_chosen (s := came .partitionRebind r s) hsegs hframes,
    rebindEffect_withRebind hi rfl]
  rfl

end Sys2Proof.Laws
end

section
/-! SUPPORT. Work put in line: what each step of a unit that takes work adds and keeps, the launches of such turns, and the engine
commands that put one piece of work in line. The section settles O32. -/

namespace Sys2Proof.Laws

open Sys2Proof Sys2Proof.Machine

/-! ### What units that take work add and keep (13 R345; 15 R401, R402) -/

/-- What a piece of work is and the lines of WORK that it needs, whatever unit it stands on. -/
def jobNeeds (j : Job) : Nat × Nat × Nat × Option Nat × JobKind × Nat × Nat :=
  (j.id, j.part, j.ticket, j.ctx, j.kind, j.reruns, j.room)

/-- A piece of work stands on a unit, and no other of its id is in line for one. -/
def StandsOn (s : State) (id part : Nat) (v : EngineUnit) : Prop :=
  (∃ j ∈ s.jobs, j.id = id ∧ j.part = part ∧ j.unit = some v) ∧ ∀ x ∈ s.jobs, x.id = id → x.unit.isSome = true

/-- The request for current that a launch of a turn makes (15 R402). -/
def turnRequest (l : Launch) : CutRequest := ⟨l.id, l.part, l.amps, l.target, l.target - 512, 0, none⟩

/-- A launch that was formed between two states for the turn of a unit that needs current. -/
structure TurnFormed (s t : State) (l : Launch) : Prop where
  posted : l.posted = true ∧ l.fired = none ∧ l.granted = none
  numbered : s.nextId ≤ l.id ∧ l.id < t.nextId
  target : l.target = alignUp 256 (s.now + 512)
  work : ∃ id v, l.kind = .engine id ∧ StandsOn t id l.part v ∧ l.amps = unitAmps v ∧ unitAmps v ≠ 0

/-- Units have taken work between two states: launches of turns have come, and what no free unit takes is as it was. -/
structure WorkTaken (s t : State) : Prop where
  turns : TurnsTaken s t
  nextId : s.nextId ≤ t.nextId
  parts : ∀ n, SameButWork (s.part n) (t.part n)
  needs : t.jobs.map jobNeeds = s.jobs.map jobNeeds
  stands : ∀ id part v, StandsOn s id part v → StandsOn t id part v
  status : t.units.map (fun x => (x.unit, x.status)) = s.units.map fun x => (x.unit, x.status)
  busy : (s.units.map (·.unit)).Nodup → ∀ (n : Nat) (x y : EngineSt), s.units[n]? = some x → t.units[n]? = some y →
    x.job.isSome = true ∨ x.status ≠ .inService → y = x
  launched : ∃ ls, t.launches = s.launches ++ ls ∧ t.cut.requests = s.cut.requests ++ ls.map turnRequest ∧
    ∀ l ∈ ls, TurnFormed s t l

theorem WorkTaken.now {s t : State} (h : WorkTaken s t) : t.now = s.now := by
  rw [h.turns.frame]
  rfl

theorem TurnFormed.later {s t u : State} {l : Launch} (h : TurnFormed s t l) (h' : WorkTaken t u) : TurnFormed s u l := by
  obtain ⟨hposted, ⟨hlo, hhi⟩, htarget, id, v, hkind, hstands, hamps⟩ := h
  exact ⟨hposted, ⟨hlo, Nat.lt_of_lt_of_le hhi h'.nextId⟩, htarget, id, v, hkind, h'.stands id _ v hstands, hamps⟩

theorem TurnFormed.earlier {s t u : State} {l : Launch} (h : TurnFormed t u l) (h' : WorkTaken s t) : TurnFormed s u l := by
  obtain ⟨hposted, ⟨hlo, hhi⟩, htarget, hwork⟩ := h
  exact ⟨hposted, ⟨Nat.le_trans h'.nextId hlo, hhi⟩, h'.now ▸ htarget, hwork⟩

/-- A change of the machine that forms no launch. -/
theorem launched_none {s t : State} (hl : t.launches = s.launches) (hc : t.cut = s.cut) :
    ∃ ls, t.launches = s.launches ++ ls ∧ t.cut.requests = s.cut.requests ++ ls.map turnRequest ∧
      ∀ l ∈ ls, TurnFormed s t l :=
  ⟨[], by simp [hl], by simp [hc], by simp⟩

theorem eq_of_getElem?_eq_some {α : Type} {l : List α} {n : Nat} {x y : α} (hx : l[n]? = some x) (hy : l[n]? = some y) : y = x :=
  Option.some.inj (hy.symm.trans hx)

theorem WorkTaken.refl (s : State) : WorkTaken s s where
  turns := .refl s
  nextId := Nat.le_refl _
  parts _ := .refl _
  needs := rfl
  stands _ _ _ h := h
  status := rfl
  busy _ _ _ _ hx hy _ := eq_of_getElem?_eq_some hx hy
  launched := launched_none rfl rfl

/-- The unit names are those that stand beside the states of the units. -/
theorem units_nodup_of_status {s t : State}
    (h : t.units.map (fun x => (x.unit, x.status)) = s.units.map fun x => (x.unit, x.status))
    (hn : (s.units.map (·.unit)).Nodup) : (t.units.map (·.unit)).Nodup := by
  have hu := congrArg (List.map Prod.fst) h
  rw [List.map_map, List.map_map] at hu
  exact (congrArg List.Nodup hu).mpr hn

theorem WorkTaken.trans {s t u : State} (h : WorkTaken s t) (h' : WorkTaken t u) : WorkTaken s u where
  turns := h.turns.trans h'.turns
  nextId := Nat.le_trans h.nextId h'.nextId
  parts n := (h.parts n).trans (h'.parts n)
  needs := h'.needs.trans h.needs
  stands id part v hs := h'.stands id part v (h.stands id part v hs)
  status := h'.status.trans h.status
  busy hn n x y hx hy hb := by
    have hlen : s.units.length = t.units.length := by simpa using (congrArg List.length h.status).symm
    obtain ⟨hlt, -⟩ := List.getElem?_eq_some_iff.1 hx
    have ht : t.units[n]? = some t.units[n] := List.getElem?_eq_getElem (hlen ▸ hlt)
    have hsame := h.busy hn n x _ hx ht hb
    exact h'.busy (units_nodup_of_status h.status hn) n x y (hsame ▸ ht) hy hb
  launched := by
    obtain ⟨ls, hl, hc, hturn⟩ := h.launched
    obtain ⟨ls', hl', hc', hturn'⟩ := h'.launched
    refine ⟨ls ++ ls', by rw [hl', hl, List.append_assoc], by rw [hc', hc, List.map_append, List.append_assoc], fun l hm => ?_⟩
    rcases List.mem_append.1 hm with hm | hm
    · exact (hturn l hm).later h'
    · exact (hturn' l hm).earlier h

/-! ### A unit takes work (13 R345) -/

/-- The lines of WORK that an owner takes are all that can change. -/
theorem takeWork_eq (s : State) (i owner n : Nat) : ∃ parts, takeWork s i owner n = { s with parts } := by
  unfold takeWork
  split
  · exact ⟨_, rfl⟩
  · split <;> exact ⟨_, rfl⟩

theorem modPart_sameButWork {f : Partition → Partition} (hf : ∀ p, SameButWork p (f p)) (s : State) (i n : Nat) :
    SameButWork (s.part n) ((s.modPart i f).part n) := by
  by_cases h : i = n
  · subst h
    by_cases hi : i < s.parts.length
    · rw [part_modPart_self s hi]
      exact hf _
    · rw [State.modPart, List.set_eq_of_length_le (by omega)]
      exact .refl _
  · rw [part_modPart_ne s h]
    exact .refl _

theorem takeWork_part (s : State) (i owner n k : Nat) : SameButWork (s.part k) ((takeWork s i owner n).part k) := by
  unfold takeWork
  split
  · exact .refl _
  · split
    · exact modPart_sameButWork (f := fun p => { p with work := p.work ++ [(owner, _, n)] }) (fun _ => rfl) s i k
    · exact .refl _

/-- Changes of single pieces of work that leave what they are. -/
theorem map_jobNeeds {p : Job → Prop} [DecidablePred p] {f : Job → Job} (hf : ∀ j, jobNeeds (f j) = jobNeeds j)
    (l : List Job) : (l.map fun j => if p j then f j else j).map jobNeeds = l.map jobNeeds := by
  rw [List.map_map]
  refine List.map_congr_left fun j _ => ?_
  rw [Function.comp_apply, apply_ite jobNeeds, hf, ite_self]

/-- The unit that a piece of work is given to holds it, and notes its partition. -/
def unitGiven (u : EngineUnit) (j : Job) (x : EngineSt) : EngineSt :=
  if x.unit = u then { x with job := some j.id, last := some j.part } else x

theorem assignUnit_eq (s : State) (u : EngineUnit) (j : Job) : assignUnit s u j = { s with
    parts := (takeWork s j.part j.id j.room).parts
    jobs := s.jobs.map fun x => if x.id = j.id then { x with unit := some u } else x
    units := s.units.map (unitGiven u j) } := by
  obtain ⟨parts, h⟩ := takeWork_eq s j.part j.id j.room
  simp only [assignUnit, h]
  rfl

/-- Members of a list that a map keeps apart are equal where the map takes them to one value. -/
theorem eq_of_nodup_map {α β : Type} {f : α → β} {l : List α} (hn : (l.map f).Nodup) {a b : α} (ha : a ∈ l) (hb : b ∈ l)
    (he : f a = f b) : a = b := by
  induction l with
  | nil => cases ha
  | cons c l ih =>
    obtain ⟨hnew, hn⟩ := List.nodup_cons.1 hn
    have hout : ∀ x ∈ l, f x ≠ f c := fun x hx hxc => hnew (List.mem_map.2 ⟨x, hx, hxc⟩)
    rcases List.mem_cons.1 ha with hac | hal
    · rcases List.mem_cons.1 hb with hbc | hbl
      · rw [hac, hbc]
      · exact absurd (he.symm.trans (congrArg f hac)) (hout b hbl)
    · rcases List.mem_cons.1 hb with hbc | hbl
      · exact absurd (he.trans (congrArg f hbc)) (hout a hal)
      · exact ih hn hal hbl

/-- A free unit that takes a piece of work in line. -/
structure MayTake (s : State) (u : EngineUnit) (j : Job) : Prop where
  inLine : j ∈ s.jobs ∧ j.unit = none
  free : ∃ x ∈ s.units, x.unit = u ∧ x.status = .inService ∧ x.job = none

theorem mayTake_of_nextJob {s : State} {u : EngineUnit} {x : EngineSt} {j : Job}
    (hx : s.units.find? (fun x => x.unit == u) = some x) (hf : x.status = .inService ∧ x.job = none) (hj : nextJob s u x.last = some j) : MayTake s u j := by
  refine ⟨?_, x, List.mem_of_find?_eq_some hx, by simpa using List.find?_some hx, hf⟩
  obtain ⟨p, -, hp⟩ := Option.bind_eq_some_iff.1 hj
  have hready := List.mem_filter.1 (List.mem_of_find?_eq_some hp)
  simp only [Bool.and_eq_true, Option.isNone_iff_eq_none] at hready
  exact ⟨hready.1, hready.2.1.1.1.1⟩

section
variable {s : State} {u : EngineUnit} {j : Job} (h : MayTake s u j)
include h

/-- The piece of work stands on its unit. -/
theorem standsOn_assignUnit : StandsOn (assignUnit s u j) j.id j.part u := by
  rw [assignUnit_eq]
  refine ⟨⟨{ j with unit := some u }, List.mem_map.2 ⟨j, h.inLine.1, by simp⟩, rfl, rfl, rfl⟩, fun y hy hid => ?_⟩
  obtain ⟨x, -, rfl⟩ := List.mem_map.1 hy
  by_cases hx : x.id = j.id
  · rw [if_pos hx]
    rfl
  · rw [if_neg hx] at hid
    exact absurd hid hx

/-- Work that stands on a unit has another id than work in line, so it stays. -/
theorem standsOn_kept {id part : Nat} {v : EngineUnit} (hs : StandsOn s id part v) : StandsOn (assignUnit s u j) id part v := by
  obtain ⟨⟨y, hy, hid, hpart, hunit⟩, hall⟩ := hs
  have hne : id ≠ j.id := fun he => by
    have := hall j h.inLine.1 he.symm
    simp [h.inLine.2] at this
  rw [assignUnit_eq]
  refine ⟨⟨y, List.mem_map.2 ⟨y, hy, if_neg (hid ▸ hne)⟩, hid, hpart, hunit⟩, fun z hz hzid => ?_⟩
  obtain ⟨x, hx, rfl⟩ := List.mem_map.1 hz
  by_cases hxj : x.id = j.id
  · rw [if_pos hxj]
    rfl
  · rw [if_neg hxj] at hzid ⊢
    exact hall x hx hzid

theorem workTaken_assignUnit : WorkTaken s (assignUnit s u j) := by
  have heq := assignUnit_eq s u j
  refine ⟨turnsTaken_assignUnit s u j, ?_, ?_, ?_, fun _ _ _ => standsOn_kept h, ?_, ?_, ?_⟩
  · exact Nat.le_of_eq (congrArg State.nextId heq).symm
  · rw [heq]
    exact takeWork_part s j.part j.id j.room
  · rw [heq]
    exact map_jobNeeds (f := fun x => { x with unit := some u }) (fun _ => rfl) s.jobs
  · rw [heq]
    refine List.map_map.trans (List.map_congr_left fun x _ => ?_)
    show ((unitGiven u j x).unit, (unitGiven u j x).status) = _
    unfold unitGiven
    split <;> rfl
  · rw [heq]
    intro hn n x y hx hy hb
    obtain ⟨x0, hmem, hx0, hfree⟩ := h.free
    rw [List.getElem?_map, hx] at hy
    rw [← Option.some.inj hy]
    refine if_neg fun hxu => ?_
    have he : x = x0 := eq_of_nodup_map hn (List.mem_of_getElem? hx) hmem (hxu.trans hx0.symm)
    simp [he, hfree] at hb
  · rw [heq]
    exact launched_none rfl rfl

end

/-- Work that begins stays on its unit. -/
theorem workTaken_begin (s : State) (id now : Nat) : WorkTaken s (s.modJob id fun j => j.begin now) where
  turns := turnsTaken_modJob (f := fun j => j.begin now) (fun _ => rfl) s id
  nextId := Nat.le_refl _
  parts _ := .refl _
  needs := map_jobNeeds (f := fun j => j.begin now) (fun _ => rfl) s.jobs
  stands k part v hs := by
    have hf : ∀ x : Job, ∃ st, (if x.id = id then x.begin now else x) = { x with started := st } := fun x => by
      split <;> exact ⟨_, rfl⟩
    obtain ⟨⟨y, hy, hid, hpart, hunit⟩, hall⟩ := hs
    refine ⟨⟨_, List.mem_map.2 ⟨y, hy, rfl⟩, ?_⟩, fun z hz => ?_⟩
    · obtain ⟨st, he⟩ := hf y
      rw [he]
      exact ⟨hid, hpart, hunit⟩
    · obtain ⟨x, hx, rfl⟩ := List.mem_map.1 hz
      obtain ⟨st, he⟩ := hf x
      rw [he]
      exact hall x hx
  status := rfl
  busy _ _ _ _ hx hy _ := eq_of_getElem?_eq_some hx hy
  launched := launched_none rfl rfl

/-- A launch is formed and posted for work that stands on a unit that needs current. -/
theorem workTaken_postOwn {s : State} {id part : Nat} {v : EngineUnit} (hs : StandsOn s id part v) (hv : unitAmps v ≠ 0) :
    WorkTaken s (postOwn s (ownLaunch s part (.engine id) (unitAmps v))) where
  turns := ⟨rfl, rfl⟩
  nextId := Nat.le_succ _
  parts _ := .refl _
  needs := rfl
  stands _ _ _ h := h
  status := rfl
  busy _ _ _ _ hx hy _ := eq_of_getElem?_eq_some hx hy
  launched := by
    refine ⟨[ownLaunch s part (.engine id) (unitAmps v)], rfl, rfl, fun l hl => ?_⟩
    rw [List.mem_singleton.1 hl]
    exact ⟨⟨rfl, rfl, rfl⟩, ⟨Nat.le_refl _, Nat.lt_succ_self _⟩, rfl, id, v, rfl, hs, rfl, hv⟩

/-- A unit is given a piece of work: it begins, or a launch is formed for its turn. -/
theorem workTaken_giveUnit {s : State} {u : EngineUnit} {j : Job} (h : MayTake s u j) : WorkTaken s (giveUnit s u j) := by
  refine (workTaken_assignUnit h).trans ?_
  have hown : ownLaunch (assignUnit s u j) = ownLaunch s := by
    rw [assignUnit_eq]
    rfl
  simp only [giveUnit]
  rw [← hown]
  split
  next => exact workTaken_begin _ _ _
  next hamps => exact workTaken_postOwn (standsOn_assignUnit h) hamps

theorem workTaken_feedUnit (s : State) (u : EngineUnit) : WorkTaken s (feedUnit s u) := by
  unfold feedUnit
  split
  next x hx =>
    split
    next hfree =>
      split
      next j hj =>
        refine workTaken_giveUnit (mayTake_of_nextJob hx ?_ hj)
        simpa using hfree
      next => exact .refl s
    next => exact .refl s
  next => exact .refl s

theorem workTaken_feedUnits (s : State) : WorkTaken s (feedUnits s) := by
  unfold feedUnits
  exact List.foldlRecOn (motive := WorkTaken s) s.units _ (.refl s) fun t ht x _ => ht.trans (workTaken_feedUnit t x.unit)

/-! ### Work put in line (13 R345) -/

theorem workTaken_queueJob (s : State) (i t : Nat) (ctx : Option Nat) (k : JobKind) :
    WorkTaken (addJob s i t ctx k) (queueJob s i t ctx k) := workTaken_feedUnits _

/-- The target of a launch that firmware forms is the next multiple of 256 counts that leaves 512 (12 R323). -/
theorem alignUp_target (n : Nat) : alignUp 256 (n + 512) % 256 = 0 ∧ n + 512 ≤ alignUp 256 (n + 512) ∧
    alignUp 256 (n + 512) < n + 768 := by
  unfold alignUp cdiv
  omega

/-- The units that need current are the traversal engines, the Tally pipelines and the Yarder (15 R401). -/
theorem unitAmps_of_current {v : EngineUnit} (h : unitAmps v ≠ 0) :
    (∃ n, v = .traversal n ∧ unitAmps v = 6) ∨ (∃ n, v = .tally n ∧ unitAmps v = 2) ∨ (v = .yarder ∧ unitAmps v = 6) := by
  cases v with
  | traversal n => exact .inl ⟨n, rfl, rfl⟩
  | tally n => exact .inr (.inl ⟨n, rfl, rfl⟩)
  | yarder => exact .inr (.inr ⟨rfl, rfl⟩)
  | lane n => exact absurd rfl h
  | skidder => exact absurd rfl h

/-- The work of a launch that was formed for a turn, and the current it asks for by its unit. -/
theorem TurnFormed.job {s t : State} {l : Launch} (h : TurnFormed s t l) :
    ∃ j ∈ t.jobs, l.kind = .engine j.id ∧ l.part = j.part ∧
    ((∃ n, j.unit = some (.traversal n) ∧ l.amps = 6) ∨ (∃ n, j.unit = some (.tally n) ∧ l.amps = 2) ∨
      (j.unit = some .yarder ∧ l.amps = 6)) := by
  obtain ⟨-, -, -, id, v, hkind, ⟨⟨j, hj, hid, hpart, hunit⟩, -⟩, hamps, hv⟩ := h
  refine ⟨j, hj, hid ▸ hkind, hpart.symm, ?_⟩
  rw [hunit, hamps]
  rcases unitAmps_of_current hv with ⟨n, rfl, he⟩ | ⟨n, rfl, he⟩ | ⟨rfl, he⟩
  · exact .inl ⟨n, rfl, he⟩
  · exact .inr (.inl ⟨n, rfl, he⟩)
  · exact .inr (.inr ⟨rfl, he⟩)

/-! ### The engine commands (07 R195, R213; 08 R221; 10 R282) -/

section
variable {r : Req} {s : State}

theorem reqPid_came {c : Code} (h : (s.pair r.pair).bound = true) : reqPid (came c r s) r = reqPid s r := reqPid_counted h

theorem findTokenizer_counted (i id : Nat) : findTokenizer (counted r s) i id = findTokenizer s i id := rfl

theorem findGrammar_counted : findGrammar (counted r s) = findGrammar s := rfl

theorem detokFits_counted (i : Nat) (l : List Byte) : detokFits (counted r s) i l = detokFits s i l := rfl

variable (hs : engineState s r = true)
include hs

/-- An accepted TALLY_SUBMIT whose result fits the region of its pair is put in line. -/
theorem exec_tallySubmit (h : Accepted .tallySubmit r s) (hf : tallyForm r.pay = true)
    (hroom : tallySize r.pay ≤ resBytes (s.pair r.pair)) :
    exec (.tallySubmit r) s = .next (queueJob (came .tallySubmit r s) (reqPid s r) s.nextId none .tally) := by
  have hb := bound_of_accepted h
  have hres : resBytes ((counted r s).pair r.pair) = resBytes (s.pair r.pair) := by
    rw [counted_pair hb]
    rfl
  refine (live_enter_accepted h cmdTallySubmit).trans (congrArg _ ?_)
  simp only [cmdTallySubmit, pairPart_counted hb, engineState_counted hb, hres, if_neg (Nat.not_lt.2 hroom)]
  refine (runCmd_accepted h rfl hf hs rfl rfl).trans ?_
  rw [reqPid_came hb]

/-- An accepted TOKENIZE_SUBMIT of a tokenizer that is there is put in line, unless the tokenizer is damaged. -/
theorem exec_tokenizeSubmit {tk : Tokenizer} (h : Accepted .tokenizeSubmit r s) (hf : tokForm r.pay = true)
    (htk : findTokenizer s (reqPid s r) (fld r.pay 0 1) = some tk) :
    exec (.tokenizeSubmit r) s = .next (if tk.res.damaged = true then finishPlain (came .tokenizeSubmit r s) s.nextId .fault 0
      else queueJob (came .tokenizeSubmit r s) (reqPid s r) s.nextId none .tokenize) := by
  have hb := bound_of_accepted h
  refine (live_enter_accepted h cmdTokenizeSubmit).trans (congrArg _ ?_)
  simp only [cmdTokenizeSubmit, reqPid_counted hb, findTokenizer_counted, htk, pairPart_counted hb, engineState_counted hb]
  exact runCmd_accepted h rfl hf hs rfl rfl

/-- An accepted DETOKENIZE_SUBMIT whose tokenizer and grammar are there is put in line, unless one of them is damaged. -/
theorem exec_detokenizeSubmit {tk : Tokenizer} {g : Option Grammar} (h : Accepted .detokenizeSubmit r s)
    (hf : detokForm r.pay = true) (hfit : detokFits s (reqPid s r) r.pay = true)
    (htk : findTokenizer s (reqPid s r) (fld r.pay 0 1) = some tk)
    (hg : (detokOptions r.pay).grammar.bind (findGrammar s (reqPid s r)) = g)
    (hfound : ((detokOptions r.pay).grammar.isNone || g.isSome) = true) :
    exec (.detokenizeSubmit r) s = .next (if (tk.res.damaged || (g.map (·.res.damaged)).getD false) = true
      then finishPlain (came .detokenizeSubmit r s) s.nextId .fault 0
      else queueJob (came .detokenizeSubmit r s) (reqPid s r) s.nextId none .detokenize) := by
  have hb := bound_of_accepted h
  refine (live_enter_accepted h cmdDetokenizeSubmit).trans (congrArg _ ?_)
  simp only [cmdDetokenizeSubmit, reqPid_counted hb, findTokenizer_counted, findGrammar_counted, detokFits_counted, htk, hg,
    pairPart_counted hb, engineState_counted hb, hf, hfit, hfound]
  exact runCmd_accepted h rfl rfl hs rfl rfl

/-- An accepted PEER_GATHER of rows that this module holds is put in line. -/
theorem exec_peerGather {tb : Table} (h : Accepted .peerGather r s) (hlen : 16 ≤ r.pay.length) (hz2 : zeroAt r.pay 2 2 = true)
    (hz12 : zeroAt r.pay 12 4 = true) (hitems : 16 + 8 * fld r.pay 8 4 ≤ r.pay.length)
    (htb : findTable s (reqPid s r) (fld r.pay 0 1) = some tb)
    (hheld : ∀ x ∈ peerItems r.pay, x.2.1 < tb.shards.length ∧ (tableShard tb x.2.1).heldBy s.myId.toNat = true ∧
      (tableShard tb x.2.1).comp = x.1 ∧ (tableShard tb x.2.1).rowFirst ≤ x.2.2 ∧
      x.2.2 < (tableShard tb x.2.1).rowFirst + (tableShard tb x.2.1).rowCount) :
    exec (.peerGather r) s = .next (queueJob (came .peerGather r s) (reqPid s r) s.nextId none .gather) := by
  have hb := bound_of_accepted h
  refine (live_enter_accepted h cmdPeerGather).trans (congrArg _ ?_)
  simp only [cmdPeerGather, reqPid_counted hb, findTable_counted, htb, pairPart_counted hb, engineState_counted hb]
  refine runCmd_accepted h rfl ?_ hs ?_ rfl
  · simp [has, hlen, hz2, hz12, hitems]
  · refine List.all_eq_true.2 fun x hx => ?_
    obtain ⟨hshard, hown, hcomp, hlo, hhi⟩ := hheld x hx
    have hmine : (tableShard tb x.2.1).heldBy (counted r s).myId.toNat = true := hown
    simp [hshard, hmine, hcomp, hlo, hhi]

end

/-- Settles O32. Work put in line stands behind the rest and free units take what is there; an engine command puts its work in
line, or faults where an object it names is damaged. -/
theorem engineCommands : Obligations.EngineCommands := by
  unfold Obligations.EngineCommands
  constructor
  · intro s part t ctx k u
    have h : WorkTaken (addJob s part t ctx k) u := workTaken_queueJob s part t ctx k
    obtain ⟨ls, hlaunches, hrequests, hturns⟩ := h.launched
    refine ⟨h.turns.frame, h.parts, h.nextId, ⟨ls, hlaunches, hrequests, fun l hl => ?_⟩, ?_, h.status, h.busy⟩
    · obtain ⟨hposted, hfired, hgranted⟩ := (hturns l hl).posted
      obtain ⟨hlo, hhi⟩ := (hturns l hl).numbered
      obtain ⟨hmod, hge, hlt⟩ := alignUp_target s.now
      have htarget : l.target = alignUp 256 (s.now + 512) := (hturns l hl).target
      rw [htarget]
      exact ⟨hposted, hfired, hgranted, hlo, hhi, hmod, hge, hlt, (hturns l hl).job⟩
    · exact h.needs.trans List.map_append
  · intro r s hs i l
    refine ⟨exec_tallySubmit hs, fun tk => exec_tokenizeSubmit hs, fun tk h hf hfit htk hn => ?_,
      fun tk n g h hf hfit htk hn hg => ?_, fun tb => exec_peerGather hs⟩
    · rw [exec_detokenizeSubmit hs (g := none) h hf hfit htk (by rw [hn]; rfl) (by rw [hn]; rfl)]
      simp only [Option.map_none, Option.getD_none, Bool.or_false]
      rfl
    · rw [exec_detokenizeSubmit hs (g := some g) h hf hfit htk (by rw [hn]; exact hg) (by simp)]
      simp only [Option.map_some, Option.getD_some, Bool.or_eq_true]
      rfl

end Sys2Proof.Laws
end

section
/-! SUPPORT. The ways to READY and the gate registers: what detection of PCIe makes of the ports, what the end of the wipe leaves
when no configuration record is applied, and when a gate switch may be armed. The section settles O9 and O13. -/

namespace Sys2Proof.Laws

open Sys2Proof Sys2Proof.Machine

/-! ### PCIE_DETECT_END (14 R386, R387, R391) -/

section
variable {s : State} (h : s.power.railTripped = false)
include h

theorem exec_pcieDetectEnd (found : Bool) : exec (.pcieDetectEnd found) s = .next (pcieDetectEnd found s) := live_next h

theorem exec_moduleReady : exec .moduleReady s = .next (moduleReady s) := live_next h

end

/-- A module that wipes and waits for detection takes its end. -/
theorem pcieDetectEnd_of_waiting {s : State} (hw : s.boot.phase = .wiping) (hd : s.boot.pcieDone = false) (found : Bool) :
    pcieDetectEnd found s =
      (let s1 := { s with boot := { s.boot with pcieDone := true } }
       if found then { s1 with
         ident := { s1.ident with bridge := true }
         ports := s1.ports.mapIdx fun i p => if i < 4 then { p with state := .pcie } else p
         bridge := { s1.bridge with slots := [⟨0, 0, s1.myId.toNat, 0⟩] } }
       else { s1 with ports := s1.ports.mapIdx fun i p => if i < 4 then startTraining p else p }) :=
  if_neg (by simp [hw, hd])

/-! ### The fail count of a slot (16 R435) -/

/-- The fail count that was set reads back. -/
theorem failCount_setFailCount (s : State) (b : Bool) (n : Nat) : failCount (setFailCount s b n) b = min n 255 := by
  have hin : Mem.read 0xFF (setFailCount s b n).flash.mem (failAddr b + 0) = b8 (min n 255) :=
    Mem.read_writeRange_in s.flash.mem (failAddr b) [b8 (min n 255)] 0 (by simp)
  show (Mem.read 0xFF (setFailCount s b n).flash.mem (failAddr b)).toNat = _
  rw [Nat.add_zero] at hin
  rw [hin, b8, BitVec.toNat_ofNat]
  omega

/-- Setting a fail count leaves every other byte of the flash. -/
theorem read_setFailCount_ne {s : State} {b : Bool} {a : Nat} (h : a ≠ failAddr b) (n : Nat) :
    Mem.read 0xFF (setFailCount s b n).flash.mem a = Mem.read 0xFF s.flash.mem a :=
  Mem.read_writeRange_out s.flash.mem (failAddr b) [b8 (min n 255)] a (by simp only [List.length_singleton]; omega)

/-! ### MODULE_READY (16 R436, R455, R457; 18 R472; 05 R130) -/

/-- Fuses rise, and nothing else changes. -/
theorem raiseFuses_frame (s : State) : ∃ v k, raiseFuses s = { s with fuses := { s.fuses with secVersion := v, rootRevoke := k } } ∧
    s.fuses.secVersion ≤ v ∧ s.fuses.rootRevoke &&& k = s.fuses.rootRevoke := by
  unfold raiseFuses
  split
  · exact ⟨_, _, rfl, Nat.le_max_left _ _, by ext i; simp +contextual⟩
  · exact ⟨_, _, rfl, Nat.le_refl _, BitVec.and_self⟩

/-- What the end of the wipe makes of the module before its fuses rise: the record applied, READY set, the fail count cleared. -/
def wiped (s : State) : State :=
  let s1 := applyRecord { s with landing := [], t1 := T1.wiped }
  setFailCount { s1 with boot := { s1.boot with phase := .ready } } s1.boot.imageB 0

theorem moduleReady_of_wiping {s : State} (hw : s.boot.phase = .wiping) (hd : s.boot.pcieDone = true) :
    moduleReady s = raiseFuses (wiped s) := if_neg (by simp [hw, hd])

/-- Without a record nothing is applied. -/
theorem wiped_of_no_record {s : State} (h : s.sec.record = none) : wiped s =
    setFailCount { s with landing := [], t1 := T1.wiped, boot := { s.boot with phase := .ready } } s.boot.imageB 0 := by
  have happly : applyRecord { s with landing := [], t1 := T1.wiped } = { s with landing := [], t1 := T1.wiped } := by
    simp only [applyRecord, h]
  simp only [wiped, happly]

/-- Settles O9. Detection ends in one of two modes; the end of the wipe sets READY and clears the fail count, and without a record
only the stores, the flash byte of that count and the fuses move. -/
theorem detectionAndReady : Obligations.DetectionAndReady := by
  unfold Obligations.DetectionAndReady
  constructor
  · intro s hrail hw hd
    rw [exec_pcieDetectEnd hrail, exec_pcieDetectEnd hrail, pcieDetectEnd_of_waiting hw hd, pcieDetectEnd_of_waiting hw hd]
    exact ⟨rfl, rfl⟩
  · intro s hrail hw hd
    obtain ⟨v, k, hfuses, hv, hk⟩ := raiseFuses_frame (wiped s)
    refine ⟨moduleReady s, exec_moduleReady hrail, ?_⟩
    rw [moduleReady_of_wiping hw hd, hfuses]
    refine ⟨rfl, failCount_setFailCount _ _ 0, fun hnone => ?_⟩
    rw [wiped_of_no_record hnone] at hv hk ⊢
    exact ⟨rfl, fun a ha => read_setFailCount_ne ha 0, hv, hk⟩

/-! ### The gate switch (14 R385, R386) -/

section
variable {s : State} {i : Nat}

theorem exec_gateSwitchArm (h : s.power.railTripped = false) (i : Nat) (v : W32) :
    exec (.gateSwitchArm i v) s = .next (gateArm i v s) := live_next h

theorem exec_gateSwitchCancel (h : s.power.railTripped = false) (i : Nat) (v : W32) :
    exec (.gateSwitchCancel i v) s = .next (gateCancel i v s) := live_next h

theorem exec_gateBankSwitch (h : s.power.railTripped = false) (i : Nat) :
    exec (.gateBankSwitch i) s = .next (gateBankSwitch i s) := live_next h

/-- The gate registers of a port take a write once the cores run, but not on the PCIe ports of a bridge. -/
theorem gate_taken (hin : s.power.inputOn = true) (hrel : s.released = true) (hport : s.ident.bridge = false ∨ 4 ≤ i) :
    (!sbOpen s || gateIgnored s i) = false := by
  have hopen : sbOpen s = true := by simp [sbOpen, State.managed, hin, hrel]
  have hignored : gateIgnored s i = false := by
    rcases hport with hb | h4
    · simp [gateIgnored, hb]
    · simp [gateIgnored, h4]
  rw [hopen, hignored]
  rfl

theorem gateArm_of_taken (h : (!sbOpen s || gateIgnored s i) = false) (v : W32) : gateArm i v s = s.modPort i fun _ =>
    let p1 := gateCtlFields v (s.port i)
    if switchOk s p1 then { p1 with pending := true } else { p1 with pending := false, gateErr := true } :=
  if_neg (by simp [h])

theorem gateCancel_of_taken (h : (!sbOpen s || gateIgnored s i) = false) (v : W32) : gateCancel i v s =
    s.modPort i fun p => { gateCtlFields v p with pending := false } := if_neg (by simp [h])

/-- A switch less than 1,000 counts ahead may not be armed. -/
theorem switchOk_of_late {p : Port} (h : p.gateBase.toNat < s.now + 1000) : switchOk s p = false := by
  simp [switchOk, Nat.not_le.2 h]

theorem gateBankSwitch_of_due (hp : (s.port i).pending = true) (hbase : (s.port i).gateBase.toNat ≤ s.now)
    (hidle : (s.port i).busyUntil ≤ s.now) : gateBankSwitch i s = s.modPort i fun p =>
      { p with pending := false, activeBank := !p.activeBank, actCount := p.pendCount, activeBase := p.gateBase, gated := true } :=
  if_pos (by simp [hp, hbase, hidle])

theorem gateBankSwitch_of_not_pending (hp : (s.port i).pending = false) : gateBankSwitch i s = s := if_neg (by simp [hp])

end

/-- Settles O13. A write that the port takes arms, refuses or cancels the switch; at its time the pending bank is switched in. -/
theorem gateSwitch : Obligations.GateSwitch := by
  unfold Obligations.GateSwitch
  intro i v s hrail hin hrel _ hport
  have htaken := gate_taken hin hrel hport
  refine ⟨?_, fun hp hbase hidle => ?_, fun hp => ?_⟩
  · intro p
    rw [exec_gateSwitchCancel hrail, exec_gateSwitchArm hrail, gateCancel_of_taken htaken, gateArm_of_taken htaken]
    refine ⟨rfl, fun hok => ?_, fun hno => ?_, switchOk_of_late⟩
    · rw [show gateCtlFields v (s.port i) = p from rfl, if_pos hok]
      rfl
    · rw [show gateCtlFields v (s.port i) = p from rfl, if_neg (by simp [hno])]
      rfl
  · rw [exec_gateBankSwitch hrail, gateBankSwitch_of_due hp hbase hidle]
    rfl
  · rw [exec_gateBankSwitch hrail, gateBankSwitch_of_not_pending hp]

end Sys2Proof.Laws
end

section
/-! SUPPORT. Settings of the module and its security commands: what POWER_SET and BRIDGE_MAP set, what a report, a chain and an exported
package take, and what an import stores. The section settles O24. -/

namespace Sys2Proof.Laws

open Sys2Proof Sys2Proof.Machine

section
variable {r : Req} {s : State}

/-! ### POWER_SET and BRIDGE_MAP (14 R391; 15 R409) -/

theorem exec_powerSet (h : Accepted .powerSet r s) (hf : powerSetForm r.pay = true) :
    exec (.powerSet r) s = .next (finishPlain (powerSetEffect r.pay (came .powerSet r s)) s.nextId .ok s.cut.b) :=
  (live_enter_accepted h cmdPowerSet).trans (congrArg _ (runCmd_accepted h rfl hf rfl rfl rfl))

theorem bridgeMapForm_counted (l : List Byte) : bridgeMapForm (counted r s) l = bridgeMapForm s l := rfl

theorem mappedAfter_counted (l : List Byte) : mappedAfter (counted r s) l = mappedAfter s l := rfl

section
variable (h : Accepted .bridgeMap r s) (hf : bridgeMapForm s r.pay = true)
include h hf

theorem exec_bridgeMap_fits (hroom : mappedAfter s r.pay ≤ 512) : exec (.bridgeMap r) s =
    .next (finishPlain (bridgeMapEffect r.pay (came .bridgeMap r s)) s.nextId .ok (mappedAfter s r.pay)) := by
  refine (live_enter_accepted h cmdBridgeMap).trans (congrArg _ ?_)
  simp only [cmdBridgeMap, bridgeMapForm_counted, mappedAfter_counted]
  exact runCmd_accepted h rfl hf rfl rfl (if_neg (Nat.not_lt.2 hroom))

theorem exec_bridgeMap_no_room (hroom : 512 < mappedAfter s r.pay) : exec (.bridgeMap r) s =
    .next (finishPlain (came .bridgeMap r s) s.nextId .noSpace 0) := by
  refine (live_enter_accepted h cmdBridgeMap).trans (congrArg _ ?_)
  simp only [cmdBridgeMap, bridgeMapForm_counted, mappedAfter_counted]
  exact runCmd_no_room h rfl hf rfl rfl (if_pos hroom)

end

/-! ### ATTEST_GET (16 R444 to R449) -/

theorem exec_attestGet (h : Accepted .attestGet r s) (hf : attestForm r.pay = true) :
    exec (.attestGet r) s = .next (attestEffect r.pair r.pay s.nextId (came .attestGet r s)) :=
  (live_enter_accepted h cmdAttestGet).trans (congrArg _ (runCmd_accepted h rfl hf rfl rfl rfl))

section
variable {pair t : Nat} {l : List Byte}

theorem leavesGone_of_left (h : s.sec.aliasLeaf < 32768) : leavesGone s = false := decide_eq_false (Nat.not_le.2 h)

/-- Without a record of this boot's keys only SPDM messages are answered. -/
theorem attestEffect_of_no_record (hleaf : s.sec.leaf = none) (hm : fld l 0 1 ≠ 0) :
    attestEffect pair l t s = finishPlain s t .auth 0 := by
  unfold attestEffect
  rw [hleaf]
  split
  · contradiction
  · rfl
  all_goals contradiction

theorem attestEffect_chain {q : Nat} (hleaf : s.sec.leaf = some q) (hm : fld l 0 1 = 2) :
    attestEffect pair l t s = finish s t .ok (w32 (chainBytes s q).length) (some (chainBytes s q)) := by
  simp only [attestEffect, hleaf, hm]

theorem attestEffect_report (hleaf : s.sec.leaf.isSome = true) (hm : fld l 0 1 = 1) (hleft : s.sec.aliasLeaf < 32768) :
    attestEffect pair l t s =
      finish (useLeaf s) t .ok (w32 (aliasSigned s (reportHead s l)).length) (some (aliasSigned s (reportHead s l))) := by
  obtain ⟨q, hq⟩ := Option.isSome_iff_exists.1 hleaf
  simp only [attestEffect, hq, hm, leavesGone_of_left hleft, Bool.false_eq_true, if_false]

theorem attestEffect_no_leaf (hleaf : s.sec.leaf.isSome = true) (hm : fld l 0 1 = 1) (hgone : 32768 ≤ s.sec.aliasLeaf) :
    attestEffect pair l t s = finishPlain s t .noSpace 0 := by
  obtain ⟨q, hq⟩ := Option.isSome_iff_exists.1 hleaf
  have hnone : leavesGone s = true := decide_eq_true hgone
  simp only [attestEffect, hq, hm, hnone, if_true]

/-- While leaves are left an SPDM message is answered; the connection of its pair goes on, and a leaf may be used. -/
theorem attestEffect_spdm (hm : fld l 0 1 = 0) (hleft : s.sec.aliasLeaf < 32768) : ∃ bs st used,
    attestEffect pair l t s = finish
      { s with sec := { s.sec with spdm := setKey s.sec.spdm pair st, aliasLeaf := s.sec.aliasLeaf + boolNat used } }
      t .ok (w32 bs.length) (some bs) := by
  obtain ⟨⟨bs, st, used⟩, ha⟩ : ∃ a, Config.spdmRespond (lookupD s.sec.spdm pair 0) (bytesAt l 0x30 (fld l 4 4))
    ((List.range 37).map fun i => measurement s (i + 1)) (aliasName s) s.sec.aliasLeaf = a := ⟨_, rfl⟩
  refine ⟨bs, st, used, ?_⟩
  simp only [attestEffect, hm, attestSpdm, ha, leavesGone_of_left hleft, Bool.and_false, Bool.false_eq_true, if_false]
  cases used <;> rfl

end

/-! ### CONFIG_EXPORT and CONFIG_IMPORT (16 R458 to R460) -/

theorem storedRecord_counted : storedRecord (counted r s) = storedRecord s := rfl

theorem exec_configExport {rec_ : List Byte} (h : Accepted .configExport r s) (hlen : 48 ≤ r.pay.length)
    (hun : allUnbound s = true) (hrec : storedRecord s = some rec_) :
    exec (.configExport r) s = .next (exportEffect r.pay s.nextId (came .configExport r s)) := by
  refine (live_enter_accepted h cmdConfigExport).trans (congrArg _ ?_)
  exact runCmd_accepted h rfl (decide_eq_true hlen) hun (by rw [storedRecord_counted, hrec]; rfl) rfl

section
variable {l rec_ : List Byte} {t q : Nat}

theorem exportEffect_of_no_record (hleaf : s.sec.leaf = none) : exportEffect l t s = finishPlain s t .auth 0 := by
  simp only [exportEffect, hleaf]

theorem exportEffect_of_leaf (hleaf : s.sec.leaf = some q) (hleft : s.sec.aliasLeaf < 32768) (hrec : storedRecord s = some rec_) :
    exportEffect l t s = finish (useLeaf s) t .ok 0 (some (exportBytes s rec_ (bytesAt l 0 48) q)) := by
  simp only [exportEffect, hleaf, hrec, leavesGone_of_left hleft, Bool.false_eq_true, if_false, Option.getD_some]

end

/-- The form of the data that a CONFIG_IMPORT names: a record, or an exported package. -/
def importForm (l : List Byte) : Bool := if fld l 0 1 = 0 then recordForm (importData l) else packageForm (importData l)

theorem exec_configImport (h : Accepted .configImport r s) (hun : allUnbound s = true) (h16 : 16 ≤ r.pay.length)
    (hmode : fld r.pay 0 1 < 2) (hz1 : zeroAt r.pay 1 3 = true) (h8 : fld r.pay 8 4 % 8 = 0) (hz12 : zeroAt r.pay 12 4 = true)
    (hend : fld r.pay 8 4 + fld r.pay 4 4 ≤ r.pay.length) (hf : importForm r.pay = true) :
    exec (.configImport r) s = .next (importEffect r.pay s.nextId (came .configImport r s)) := by
  refine (live_enter_accepted h cmdConfigImport).trans (congrArg _ ?_)
  refine runCmd_accepted h rfl ?_ hun rfl rfl
  rw [importForm] at hf
  simp [has, h16, hmode, hz1, h8, hz12, hend, hf]

end

/-- Settles O24. Each command that passes its checks has one effect; the cases are the modes and what the module still has. -/
theorem settingsAndSecurity : Obligations.SettingsAndSecurity := by
  unfold Obligations.SettingsAndSecurity
  constructor
  · intro r s
    refine ⟨exec_powerSet, fun h hf => ⟨exec_bridgeMap_fits h hf, exec_bridgeMap_no_room h hf⟩⟩
  · intro r s
    refine ⟨fun h hf => ?_, fun h hlen hun rec_ hrec => ?_, fun h hun h16 hz1 h8 hz12 hend => ?_⟩
    · rw [exec_attestGet h hf]
      refine ⟨fun q hleaf hm => ?_, fun hleaf hm hleft => ?_, fun hleaf hm hgone => ?_, fun hleaf hm => ?_, fun hm hleft => ?_⟩
      · exact congrArg _ (attestEffect_chain hleaf hm)
      · exact congrArg _ (attestEffect_report hleaf hm hleft)
      · exact congrArg _ (attestEffect_no_leaf hleaf hm hgone)
      · exact congrArg _ (attestEffect_of_no_record hleaf hm)
      · obtain ⟨bs, st, used, heq⟩ := attestEffect_spdm (s := came .attestGet r s) (pair := r.pair) (t := s.nextId) hm hleft
        exact ⟨bs, st, used, congrArg _ heq⟩
    · rw [exec_configExport h hlen hun hrec]
      exact ⟨fun q hleaf hleft => congrArg _ (exportEffect_of_leaf hleaf hleft hrec),
        fun hleaf => congrArg _ (exportEffect_of_no_record hleaf)⟩
    · refine ⟨fun hm hf => ?_, fun hm hf => ?_⟩
      · rw [exec_configImport h hun h16 (by omega) hz1 h8 hz12 hend ((if_pos hm).trans hf)]
        exact congrArg _ (if_pos hm)
      · rw [exec_configImport h hun h16 (by omega) hz1 h8 hz12 hend ((if_neg (by omega)).trans hf)]
        exact congrArg _ (if_neg (by omega))

end Sys2Proof.Laws
end

section
/-! SUPPORT. The endpoint of a bridge: resets, the link, configuration space, and reads of host memory that end. The section settles
O48. -/

namespace Sys2Proof.Laws

open Sys2Proof Sys2Proof.Machine

/-! ### Reads that wait (14 R395) -/

/-- While no read waits none goes out. -/
theorem issueReads_of_none {s : State} (h : s.bridge.readWait = []) (k : Nat) : issueReads k s = s := by
  cases k with
  | zero => rfl
  | succ k => simp only [issueReads, h, List.find?_nil]

section
variable {s : State}

/-! ### The rows of the endpoint -/

section
variable (h : s.power.railTripped = false)
include h

theorem exec_functionLevelReset (fn : Nat) : exec (.functionLevelReset fn) s = .next (functionReset fn s) := live_next h

theorem exec_pcieLinkDown : exec .pcieLinkDown s = .next (linkDown s) := live_next h

theorem exec_pcieLinkUp (g w : Nat) : exec (.pcieLinkUp g w) s = .next (linkUp g w s) := live_next h

theorem exec_configurationSpaceWrite (w : CfgWrite) : exec (.configurationSpaceWrite w) s = .next (configWrite w s) := live_next h

theorem exec_hostCompletion (tag : Nat) (ok : Bool) (d : List Byte) :
    exec (.hostCompletion tag ok d) s = .next (hostCompletion tag ok d s) := live_next h

end

/-! ### A module that is no bridge -/

section
variable (hb : s.ident.bridge = false)
include hb

theorem functionReset_of_no_bridge (fn : Nat) : functionReset fn s = s := if_pos (by simp [hb])

theorem linkDown_of_no_bridge : linkDown s = s := if_neg (by simp [hb])

theorem linkUp_of_no_bridge (g w : Nat) : linkUp g w s = s := if_neg (by simp [hb])

theorem configWrite_of_no_bridge (w : CfgWrite) : configWrite w s = s := if_pos (by simp [hb])

end

/-! ### Resets of functions and of the link (14 R389, R396) -/

theorem linkUp_of_other_width {w : Nat} (hw : w ∉ [16, 8, 4]) (g : Nat) : linkUp g w s = s := by
  refine if_neg fun hup => hw ?_
  simp only [Bool.and_eq_true, Bool.or_eq_true, beq_iff_eq] at hup
  simp only [List.mem_cons, List.not_mem_nil, or_false]
  omega

section
variable (hb : s.ident.bridge = true)
include hb

theorem functionReset_of_bridge {fn : Nat} (hfn : fn ≤ s.bridge.numVFs) :
    functionReset fn s = { s with bridge := { s.bridge with
      relays := s.bridge.relays.map fun r => if r.fn == fn then { r with dead := true } else r
      winErr := s.bridge.winErr.filter (· != fn)
      msixEnabled := s.bridge.msixEnabled.filter (· != fn)
      msixTable := s.bridge.msixTable.filter fun e => e.1.1 != fn
      msixPending := s.bridge.msixPending.filter fun e => e.1 != fn } } :=
  if_neg (by simp [hb, hfn])

theorem linkDown_of_bridge : linkDown s = { s with bridge := { s.bridge with
    relays := s.bridge.relays.map fun r => { r with dead := true }, rate := 0 } } := if_pos hb

theorem linkUp_of_bridge {g w : Nat} (hw : w ∈ [16, 8, 4]) (hg : g ∈ [2, 5, 8, 16, 32, 64, 128]) :
    linkUp g w s = issueReads 16384 { s with bridge := { s.bridge with rate := g } } := by
  have hwidth : (w == 16 || w == 8 || w == 4) = true := by simpa [or_assoc] using hw
  exact if_pos (by rw [hb, hwidth, List.contains_iff_mem.2 hg]; rfl)

/-! ### Configuration space (14 R390, R395) -/

variable (hr : s.bridge.rate ≠ 0)
include hr

/-- A write reaches the configuration space of a bridge whose link is up. -/
theorem configWrite_numVFs (n : Nat) : configWrite (.numVFs n) s =
    if n ≤ totalVFs then { s with bridge := { s.bridge with numVFs := n } } else s := if_neg (by simp [hb, hr])

theorem configWrite_busMaster (fn : Nat) (on : Bool) : configWrite (.busMaster fn on) s = if fn ≤ s.bridge.numVFs then
      issueReads 16384 (flushMsix { s with bridge := { s.bridge with busMaster := withFn s.bridge.busMaster fn on } } fn)
    else s := if_neg (by simp [hb, hr])

theorem configWrite_msixEnable (fn : Nat) (on : Bool) : configWrite (.msixEnable fn on) s = if fn ≤ s.bridge.numVFs then
      flushMsix { s with bridge := { s.bridge with msixEnabled := withFn s.bridge.msixEnabled fn on } } fn
    else s := if_neg (by simp [hb, hr])

theorem configWrite_maxPayload {n : Nat} (hn : n ∈ [128, 256, 512]) : configWrite (.maxPayload n) s =
    { s with bridge := { s.bridge with maxPayload := n } } :=
  (if_neg (by simp [hb, hr])).trans (if_pos (List.contains_iff_mem.2 hn))

theorem configWrite_maxRead {n : Nat} (hn : n ∈ [128, 256, 512, 1024, 2048, 4096]) : configWrite (.maxRead n) s =
    { s with bridge := { s.bridge with maxRead := n } } :=
  (if_neg (by simp [hb, hr])).trans (if_pos (List.contains_iff_mem.2 hn))

theorem configWrite_aerClear {fn : Nat} (hfn : fn ≤ s.bridge.numVFs) (m : W32) : configWrite (.aerClear fn m) s =
    { s with bridge := { s.bridge with aer := setKey s.bridge.aer fn (lookupD s.bridge.aer fn 0 &&& ~~~m) } } :=
  (if_neg (by simp [hb, hr])).trans (if_pos hfn)

end

/-- Without MSI-X or without bus mastering of the function no vector is sent. -/
theorem flushMsix_of_off {fn : Nat} (h : fn ∉ s.bridge.msixEnabled ∨ fn ∉ s.bridge.busMaster) : flushMsix s fn = s := by
  refine if_neg fun hon => ?_
  simp only [Bool.and_eq_true, List.contains_iff_mem] at hon
  exact h.elim (· hon.1) (· hon.2)

theorem withFn_of_new {l : List Nat} {fn : Nat} (h : fn ∉ l) : withFn l fn true = l ++ [fn] := by
  simp [withFn, h]

theorem not_mem_withFn_off (l : List Nat) (fn : Nat) : fn ∉ withFn l fn false := by
  simp [withFn]

section
variable (hb : s.ident.bridge = true) (hr : s.bridge.rate ≠ 0) {fn : Nat} (hfn : fn ≤ s.bridge.numVFs)
include hb hr hfn

theorem configWrite_busMaster_off : configWrite (.busMaster fn false) s = issueReads 16384
    { s with bridge := { s.bridge with busMaster := s.bridge.busMaster.filter (· != fn) } } := by
  rw [configWrite_busMaster hb hr, if_pos hfn, flushMsix_of_off (.inr (not_mem_withFn_off _ fn))]
  rfl

variable (hmsix : fn ∉ s.bridge.msixEnabled) (hmaster : fn ∉ s.bridge.busMaster)
include hmsix hmaster

theorem configWrite_busMaster_on : configWrite (.busMaster fn true) s = issueReads 16384
    { s with bridge := { s.bridge with busMaster := s.bridge.busMaster ++ [fn] } } := by
  rw [configWrite_busMaster hb hr, if_pos hfn, withFn_of_new hmaster]
  exact congrArg _ (flushMsix_of_off (.inl hmsix))

theorem configWrite_msixEnable_on : configWrite (.msixEnable fn true) s =
    { s with bridge := { s.bridge with msixEnabled := s.bridge.msixEnabled ++ [fn] } } := by
  rw [configWrite_msixEnable hb hr, if_pos hfn, withFn_of_new hmsix]
  exact flushMsix_of_off (.inr hmaster)

end

/-! ### Reads of host memory that end (14 R394, R395; 05 R136) -/

/-- The read of a tag is answered: the tag is free. -/
def readAnswered (tag : Nat) (s : State) : State :=
  { s with bridge := { s.bridge with hostReads := s.bridge.hostReads.filter fun x => x.tag != tag } }

/-- A read has failed with an error of the function's AER status: what else was asked for the same asker ends. -/
def readFailed (h : HostReadSt) (b : Nat) (s : State) : State :=
  asksEnd (setAer { s with freeIdx := s.freeIdx + 1 } h.fn b) h

theorem readFailed_answered_myId (h : HostReadSt) (b tag : Nat) : (readFailed h b (readAnswered tag s)).myId = s.myId := by
  simp only [State.myId, readFailed, asksEnd, setAer, readAnswered]

theorem readFailed_answered_fill_get (h : HostReadSt) (b tag n : Nat) :
    (readFailed h b (readAnswered tag s)).fill? n = s.fill? n := by
  simp only [State.fill?, readFailed, asksEnd, setAer, readAnswered]

section
variable {tag : Nat} {h : HostReadSt} (hread : s.bridge.hostReads.find? (fun h => h.tag == tag) = some h)
include hread

theorem hostCompletion_of_other_length {d : List Byte} (hd : d.length ≠ h.len) : hostCompletion tag true d s = s := by
  simp only [hostCompletion, hread]
  exact if_pos (by simp [hd])

variable (hold : oldestRead s h = true)
include hold

theorem hostCompletion_ok {d : List Byte} (hd : d.length = h.len) : hostCompletion tag true d s =
    issueReads 16384 (if h.dead then readAnswered tag s else readBrings (readAnswered tag s) h true d) := by
  simp only [hostCompletion, hread]
  exact if_neg (by simp [hold, hd])

/-- An error is a timeout or an abort, whichever the free value says. -/
theorem hostCompletion_error (d : List Byte) : ∃ b, (b = 14 ∨ b = 15) ∧ hostCompletion tag false d s = issueReads 16384
    (if h.dead then readFailed h b (readAnswered tag s) else readBrings (readFailed h b (readAnswered tag s)) h false d) := by
  refine ⟨if (Config.freeValue s.freeIdx).toNat % 2 = 0 then aerTimeout else aerAbort, ?_, ?_⟩
  · split
    · exact .inl rfl
    · exact .inr rfl
  · simp only [hostCompletion, hread]
    exact if_neg (by simp [hold])

end

section
variable {h : HostReadSt}

theorem readBrings_peer (hm : h.module ≠ s.myId) (ok : Bool) (d : List Byte) :
    readBrings s h ok d = sendReadData s h.module true h.frameTag (if ok then d else []) := if_pos (by simp [hm])

variable (hm : h.module = s.myId) {n : Nat} (hn : h.fill = some n)
include hm hn

theorem readBrings_fill (d : List Byte) : readBrings s h true d = fillGrows s n d := by
  simp [readBrings, hm, hn]

theorem readBrings_fill_fails {f : Fill} (hf : s.fill? n = some f) (d : List Byte) :
    readBrings s h false d = sourceFails s f .fault := by
  simp [readBrings, hm, hn, hf]

end
end

/-- Settles O48. A module that is no bridge has no endpoint; a bridge's rows have one effect each, and a read of host memory ends for
the fill or the module that asked. -/
theorem endpointEvents : Obligations.EndpointEvents := by
  unfold Obligations.EndpointEvents
  intro s hrail
  refine ⟨fun hb => ?_, fun hb => ?_, fun k hnone => issueReads_of_none hnone k, fun tag h hread hold => ?_⟩
  · refine ⟨fun fn => ?_, ?_, fun g w => ?_, fun w => ?_⟩
    · rw [exec_functionLevelReset hrail, functionReset_of_no_bridge hb]
    · rw [exec_pcieLinkDown hrail, linkDown_of_no_bridge hb]
    · rw [exec_pcieLinkUp hrail, linkUp_of_no_bridge hb]
    · rw [exec_configurationSpaceWrite hrail, configWrite_of_no_bridge hb]
  · refine ⟨fun fn hfn => ?_, ?_, fun g w hw hg => ?_, fun g w hw => ?_, fun hr => ?_⟩
    · rw [exec_functionLevelReset hrail, functionReset_of_bridge hb hfn]
      simp only [beq_iff_eq]
    · rw [exec_pcieLinkDown hrail, linkDown_of_bridge hb]
    · rw [exec_pcieLinkUp hrail, linkUp_of_bridge hb hw hg]
    · rw [exec_pcieLinkUp hrail, linkUp_of_other_width hw]
    · simp only [exec_configurationSpaceWrite hrail]
      refine ⟨fun n hn => ?_, fun n hn => ?_, fun n hn => ?_, fun n hn => ?_, fun fn hfn => ⟨?_, fun m => ?_, fun hmsix hmaster => ?_⟩,
        fun fn on hfn => ?_⟩
      · rw [configWrite_numVFs hb hr, if_pos (show n ≤ totalVFs from hn)]
      · rw [configWrite_numVFs hb hr, if_neg (show ¬n ≤ totalVFs from Nat.not_le.2 hn)]
      · rw [configWrite_maxPayload hb hr hn]
      · rw [configWrite_maxRead hb hr hn]
      · rw [configWrite_busMaster_off hb hr hfn]
      · rw [configWrite_aerClear hb hr hfn]
      · rw [configWrite_busMaster_on hb hr hfn hmsix hmaster, configWrite_msixEnable_on hb hr hfn hmsix hmaster]
        exact ⟨rfl, rfl⟩
      · rw [configWrite_busMaster hb hr, configWrite_msixEnable hb hr, if_neg (Nat.not_le.2 hfn), if_neg (Nat.not_le.2 hfn)]
        exact ⟨rfl, rfl⟩
  · intro s1 same failed
    simp only [exec_hostCompletion hrail]
    refine ⟨fun hdead d hd => ?_, fun hlive hm => ⟨fun d hd => ?_, fun d => ?_⟩,
      fun n hlive hm hn => ⟨fun d hd => ?_, fun f hf d => ?_⟩, fun d hd => ?_⟩
    · rw [hostCompletion_ok hread hold hd, if_pos hdead]
      rfl
    · rw [hostCompletion_ok hread hold hd, if_neg (by simp [hlive]), readBrings_peer (s := readAnswered tag s) hm]
      rfl
    · obtain ⟨b, hb, heq⟩ := hostCompletion_error hread hold d
      rw [if_neg (by simp [hlive]), readBrings_peer (by rwa [readFailed_answered_myId])] at heq
      exact ⟨b, hb, congrArg _ heq⟩
    · rw [hostCompletion_ok hread hold hd, if_neg (by simp [hlive]), readBrings_fill (s := readAnswered tag s) hm hn]
      rfl
    · obtain ⟨b, hb, heq⟩ := hostCompletion_error hread hold d
      rw [if_neg (by simp [hlive]), readBrings_fill_fails (by rwa [readFailed_answered_myId]) hn
        (by rwa [readFailed_answered_fill_get])] at heq
      exact ⟨b, hb, congrArg _ heq⟩
    · rw [hostCompletion_of_other_length hread hd]

end Sys2Proof.Laws
end

section
/-! SUPPORT. Frames that come in, in the order of their flow, and what each kind does at its destination. The section settles O49 and
O50. -/

namespace Sys2Proof.Laws

open Sys2Proof Sys2Proof.Machine

/-! ### Receipt on a port (14 R369, R375) -/

section
variable {s : State} {i : Nat} {k : FrameKind} {f : Frame}

theorem awaited_iff {p : Port} {z : BitVec 12} : awaited p z = true ↔ p.discarding = false ∨ z = p.rxSeq + 1 := by
  simp [awaited]

/-- What keeps a frame from being received. -/
theorem notReceived_iff {p : Port} :
    (p.state != .up || f.kind != k || decide (20 < frameFlits f) || !awaited p f.linkSeq) = true ↔
      p.state ≠ .up ∨ f.kind ≠ k ∨ 20 < frameFlits f ∨ (p.discarding = true ∧ f.linkSeq ≠ p.rxSeq + 1) := by
  simp [awaited, or_assoc]

theorem receive_of_not (h : (s.port i).state ≠ .up ∨ f.kind ≠ k ∨ 20 < frameFlits f ∨
    ((s.port i).discarding = true ∧ f.linkSeq ≠ (s.port i).rxSeq + 1)) : receive k i f s = s := if_pos (notReceived_iff.2 h)

/-- A frame that is received is for this module, or goes on. -/
theorem receive_of_awaited (hup : (s.port i).state = .up) (hk : f.kind = k) (hn : frameFlits f ≤ 20)
    (hz : (s.port i).discarding = false ∨ f.linkSeq = (s.port i).rxSeq + 1) :
    receive k i f s =
      if f.dest = s.myId then flowArrive (received s i (frameFlits f)) f else forward (received s i (frameFlits f)) f :=
  if_neg (by simp [hup, hk, hn, awaited_iff.2 hz])

theorem forward_of_far (h : 7 ≤ f.hops) : forward s f =
    { s with ctr := setKey s.ctr ⟨.linkUnroutable, 0, 0⟩ (lookupD s.ctr ⟨.linkUnroutable, 0, 0⟩ 0 + 1) } := if_pos h

theorem forward_of_near (h : f.hops < 7) : forward s f =
    routeFrame s (if kindChannel f.kind = 1 then 1 else 0) { f with hops := f.hops + 1 } := if_neg (Nat.not_le.2 h)

/-! ### The order of a flow (14 R372) -/

theorem flowArrive_due (h : f.flowSeq = lookupD s.flowRx (flowKey f) 0) : flowArrive s f =
    (let t := deliverFrame { s with flowRx := setKey s.flowRx (flowKey f) (lookupD s.flowRx (flowKey f) 0 + 1) } f
     drainEarly (flowKey f) t.early.length t) := if_pos h

section
variable (h : f.flowSeq ≠ lookupD s.flowRx (flowKey f) 0)
include h

theorem flowArrive_early (hnear : (f.flowSeq - lookupD s.flowRx (flowKey f) 0).toNat < 32768)
    (hnew : ∀ x ∈ s.early, ¬(flowKey x = flowKey f ∧ x.flowSeq = f.flowSeq)) :
    flowArrive s f = { s with early := s.early ++ [f] } := by
  have hany : (s.early.any fun e => flowKey e == flowKey f && e.flowSeq == f.flowSeq) = false := by
    simpa using hnew
  refine (if_neg h).trans (if_pos ?_)
  rw [hany, decide_eq_true hnear]
  rfl

theorem flowArrive_past (hfar : 32768 ≤ (f.flowSeq - lookupD s.flowRx (flowKey f) 0).toNat) : flowArrive s f = s := by
  refine (if_neg h).trans (if_neg ?_)
  rw [decide_eq_false (Nat.not_lt.2 hfar)]
  simp

end
end

/-- Settles O49. A frame is received or not; what is received is delivered, held, dropped or sent on. -/
theorem frameReceived : Obligations.FrameReceived := by
  unfold Obligations.FrameReceived
  intro i k port f s hrow hrail p
  rw [exec_frame s hrow, live_next hrail]
  refine ⟨fun hnot => congrArg _ (receive_of_not hnot), fun hup hk hn hz => ?_⟩
  rw [receive_of_awaited hup hk hn hz]
  refine ⟨fun hdest => ?_, fun hdest => ?_⟩
  · rw [if_pos hdest]
    exact ⟨fun hdue => congrArg _ (flowArrive_due hdue), fun hdue hnear hnew => congrArg _ (flowArrive_early hdue hnear hnew),
      fun hdue hfar => congrArg _ (flowArrive_past hdue hfar)⟩
  · rw [if_neg hdest]
    exact ⟨fun hfar => congrArg _ (forward_of_far hfar), fun hnear => congrArg _ (forward_of_near hnear)⟩

/-! ### Frames by kind (14 R371) -/

section
variable {f : Frame} (s : State)

theorem deliverFrame_of_mboxWrite (h : f.kind = .mboxWrite) : deliverFrame s f = mboxWriteAt s f := by
  simp only [deliverFrame, h]

theorem deliverFrame_of_mboxRead (h : f.kind = .mboxRead) : deliverFrame s f = mboxReadAt s f := by
  simp only [deliverFrame, h]

theorem deliverFrame_of_readData (h : f.kind = .readData) : deliverFrame s f = readDataAt s f := by
  simp only [deliverFrame, h]

theorem deliverFrame_of_peerReq (h : f.kind = .peerReq) : deliverFrame s f = peerReqAt s f := by
  simp only [deliverFrame, h]

theorem deliverFrame_of_peerData (h : f.kind = .peerData) : deliverFrame s f = peerDataAt s f := by
  simp only [deliverFrame, h]

theorem deliverFrame_of_message (h : f.kind = .message) : deliverFrame s f = messageAt s f := by
  simp only [deliverFrame, h]

theorem deliverFrame_of_hostWrite (h : f.kind = .hostWrite) : deliverFrame s f = hostWriteAt s f := by
  simp only [deliverFrame, h]

theorem deliverFrame_of_hostRead (h : f.kind = .hostRead) : deliverFrame s f = hostReadAt s f := by
  simp only [deliverFrame, h]

end

section
variable {f : Frame} {s : State}

/-! ### Mailbox accesses (14 R371, R372, R393) -/

/-- Noting the bridge leaves a pair's segments. -/
theorem noteVia_segs (s : State) (k : Nat) (b : W16) : ((noteVia s k b).pair k).segs = (s.pair k).segs := by
  by_cases h : k < s.pairs.length
  · rw [noteVia, pair_modPair_self s h]
  · simp [noteVia, State.modPair, State.pair, List.getD, Nat.not_lt.1 h]

theorem regionOpen_of_bound {k : Nat} (hk : k < 64) (hb : (s.pair k).bound = true) : regionOpen s k = true := by
  simp [regionOpen, hk, hb]

section
variable (hpair : addrPair f.address < 64) (hreg : addrReg f.address = false)
  (hb : (s.pair (addrPair f.address)).bound = true)
include hpair hreg hb

theorem mboxWriteAt_region : mboxWriteAt s f =
    { noteVia s (addrPair f.address) f.src with
      landing := regionWrite s.landing (s.pair (addrPair f.address)).segs (addrOff f.address) f.data } := by
  simp only [mboxWriteAt, if_neg (Nat.not_le.2 hpair), hreg, regionOpen_of_bound hpair hb, Bool.false_eq_true, if_false, if_true,
    noteVia_segs]
  rfl

theorem mboxReadAt_region : mboxReadAt s f = sendReadData (noteVia s (addrPair f.address) f.src) f.src false f.tag
    (regionRead s.landing (s.pair (addrPair f.address)).segs (addrOff f.address) f.length.toNat) := by
  simp only [mboxReadAt, if_neg (Nat.not_le.2 hpair), hreg, regionOpen_of_bound hpair hb, Bool.false_eq_true, if_false, if_true,
    noteVia_segs]
  rfl

end

theorem mboxWriteAt_register (hpair : addrPair f.address < 64) (hreg : addrReg f.address = true) : mboxWriteAt s f =
    slotWriteBytes (addrPair f.address) (addrOff f.address) f.data (noteVia s (addrPair f.address) f.src) :=
  (if_neg (Nat.not_le.2 hpair)).trans (if_pos hreg)

section
variable (h : 64 ≤ addrPair f.address ∨
  addrReg f.address = false ∧ (s.pair (addrPair f.address)).bound = false)
include h

theorem mboxWriteAt_closed : mboxWriteAt s f = sendReadData s f.src false f.tag [] := by
  rcases h with h | ⟨hreg, hb⟩
  · exact if_pos h
  · simp [mboxWriteAt, hreg, regionOpen, hb]

theorem mboxReadAt_closed : mboxReadAt s f = sendReadData s f.src false f.tag [] := by
  rcases h with h | ⟨hreg, hb⟩
  · exact if_pos h
  · simp [mboxReadAt, hreg, regionOpen, hb]

end

/-! ### Answers to relayed reads (14 R392) -/

section
variable {r : Relay} (hpair : addrPair f.address ≠ 1) (htag : f.tag.toNat < 0xC000)
  (hr : s.bridge.relays.find? (fun r => r.tag == f.tag.toNat) = some r)
include hpair htag hr

theorem readDataAt_relay : readDataAt s f = if r.dead then dropRelay s r.tag
    else if f.length = 0 then readUnreach (dropRelay s r.tag) r.fn r.tag r.len
    else readDone (dropRelay s r.tag) r.fn r.tag (f.data.take r.len) := by
  simp only [readDataAt, if_neg hpair, if_neg (Nat.not_le.2 htag), hr]

end

/-! ### Peer commands (14 R380) -/

theorem peerReqAt_closed (h : peerOpen s f = false) : peerReqAt s f = denyPeer s f := if_pos (by simp [h])

theorem peerReqAt_open (h : peerOpen s f = true) : peerReqAt s f = placeAll (64 + f.dstPart.toNat)
    (s.modPair (64 + f.dstPart.toNat) fun p => { p with arriving := p.arriving ++ [⟨f.src, f.tag, f.data, []⟩] }) :=
  if_neg (by simp [h])

theorem peerDataAt_open (h : peerOpen s f = true) {x : PeerPartial}
    (hx : (s.pair (64 + f.dstPart.toNat)).arriving.find? (fun x => x.src == f.src && x.tag == f.tag && !peerWhole x) = some x) :
    peerDataAt s f = placeAll (64 + f.dstPart.toNat) (s.modPair (64 + f.dstPart.toNat) fun p => { p with
      arriving := p.arriving.erase x ++ [{ x with data := x.data ++ f.data }] }) := by
  simp only [peerDataAt, h, hx, Bool.not_true, Bool.false_eq_true, if_false]

/-! ### Messages (14 R380, R393) -/

theorem messageAt_reply (h : bitsOf f.address.toNat 63 56 = 0) :
    messageAt s f = replyArrives s f.src f.tag f.length.toNat f.data := if_pos h

theorem messageAt_interrupt (h : bitsOf f.address.toNat 63 56 = 1) (hb : s.ident.bridge = true) : messageAt s f =
    bridgeIrq s f.src.toNat (bitsOf f.address.toNat 55 32 / 256) (bitsOf f.address.toNat 55 32 % 256) := by
  simp [messageAt, h, hb, msgReply, msgIrq]

/-! ### Host memory (14 R394, R395) -/

theorem hostReadAt_of_no_bridge (hb : s.ident.bridge = false) : hostReadAt s f = sendReadData s f.src true f.tag [] :=
  if_pos (by simp [hb])

/-- The only read that waits, of no more than one request's bytes, goes out whole. -/
theorem issueReads_of_single {a : HostAsk} {t : Nat} (hw : s.bridge.readWait = [a]) (hm : a.fn ∈ s.bridge.busMaster)
    (hr : s.bridge.rate ≠ 0) (ht : freePcieTag s = some t) (hl : a.len ≤ s.bridge.maxRead - a.addr % s.bridge.maxRead) (k : Nat) :
    issueReads (k + 1) s = { s with
      bridge := { s.bridge with
        readWait := []
        hostReads := s.bridge.hostReads ++
          [{ tag := t, fn := a.fn, module := a.module, frameTag := a.frameTag, fill := a.fill, len := a.len }] }
      hostOut := s.hostOut ++ [.read (routingId a.fn) (w64 a.addr) a.len t] } := by
  have hfind : s.bridge.readWait.find? (fun a => s.bridge.busMaster.contains a.fn && s.bridge.rate != 0) = some a := by
    simp [hw, hm, hr]
  have herase : s.bridge.readWait.erase a = [] := by rw [hw, List.erase_cons_head]
  simp only [issueReads, hfind, ht, Nat.min_eq_left hl, Nat.lt_irrefl, false_and, if_false, herase]
  exact issueReads_of_none rfl k

section
variable {e : Slot} (hslot : slotOf s f.src.toNat (f.tag.toNat / 1024) = some e) (hb : s.ident.bridge = true)
  (hm : e.fn ∈ s.bridge.busMaster) (hr : s.bridge.rate ≠ 0)
include hslot hb hm hr

theorem hostWriteAt_of_mapped : hostWriteAt s f = bridgeWrite s e.fn f.address.toNat f.data := by
  simp [hostWriteAt, hslot, hb, hm, hr]

theorem hostReadAt_of_mapped {t : Nat} (hw : s.bridge.readWait = []) (ht : freePcieTag s = some t)
    (hl : f.length.toNat ≤ s.bridge.maxRead - f.address.toNat % s.bridge.maxRead) : hostReadAt s f = { s with
      bridge := { s.bridge with hostReads := s.bridge.hostReads ++
        [{ tag := t, fn := e.fn, module := f.src, frameTag := f.tag, fill := none, len := f.length.toNat }] }
      hostOut := s.hostOut ++ [.read (routingId e.fn) (w64 f.address.toNat) f.length.toNat t] } := by
  have hread : bridgeRead s f.src (f.tag.toNat / 1024) f.address.toNat f.length.toNat f.tag none =
      (issueReads 16384 { s with bridge := { s.bridge with readWait := s.bridge.readWait ++
        [{ fn := e.fn, module := f.src, frameTag := f.tag, fill := none, addr := f.address.toNat, len := f.length.toNat }] } },
        true) := by
    simp [bridgeRead, hslot, hm, hr]
  simp only [hostReadAt, hb, Bool.not_true, Bool.false_eq_true, if_false, hread, if_true, hw, List.nil_append]
  refine Eq.trans (issueReads_of_single (by exact rfl) (by exact hm) (by exact hr) (by exact ht) (by exact hl) 16383) ?_
  rw [← hw]

end
end

/-- Settles O50, kind by kind. -/
theorem frameDelivered : Obligations.FrameDelivered := by
  unfold Obligations.FrameDelivered
  intro f s pair open_ via
  refine ⟨fun hk => ?_, fun hk => ?_, fun hk hpair htag r hr => ?_, fun hk => ?_, fun hk ho x hx => ?_, fun hk h0 => ?_,
    fun hk h1 hb => ?_, fun hk e hslot hb hm hr => ?_, fun hk e t hslot hb hm hr hw ht hl => ?_, fun hk hb => ?_⟩
  · rw [deliverFrame_of_mboxWrite s hk]
    exact ⟨fun ⟨hpair, hreg, hb⟩ => mboxWriteAt_region hpair hreg hb, mboxWriteAt_register, mboxWriteAt_closed⟩
  · rw [deliverFrame_of_mboxRead s hk]
    exact ⟨fun ⟨hpair, hreg, hb⟩ => mboxReadAt_region hpair hreg hb, mboxReadAt_closed⟩
  · rw [deliverFrame_of_readData s hk, readDataAt_relay hpair htag hr]
    exact ⟨fun hdead => if_pos hdead, fun hlive hlen => (if_neg (by simp [hlive])).trans (if_neg hlen)⟩
  · rw [deliverFrame_of_peerReq s hk]
    exact ⟨peerReqAt_closed, peerReqAt_open⟩
  · rw [deliverFrame_of_peerData s hk]
    exact peerDataAt_open ho hx
  · rw [deliverFrame_of_message s hk, messageAt_reply h0]
  · rw [deliverFrame_of_message s hk, messageAt_interrupt h1 hb]
  · rw [deliverFrame_of_hostWrite s hk, hostWriteAt_of_mapped hslot hb hm hr]
    rfl
  · rw [deliverFrame_of_hostRead s hk, hostReadAt_of_mapped hslot hb hm hr hw ht hl]
  · rw [deliverFrame_of_hostRead s hk, hostReadAt_of_no_bridge hb]

end Sys2Proof.Laws
end

section
/-! SUPPORT. What a link port sends and what its far end acknowledges: the order of transmission, the replay buffer, credits, and
flits that are discarded. The section settles O52 and O53. -/

namespace Sys2Proof.Laws

open Sys2Proof Sys2Proof.Machine

section
variable {s : State} {i : Nat}

/-! ### One port (14 R373, R375) -/

/-- Two changes of a port are one. -/
theorem modPort_modPort (hi : i < s.ports.length) (f g : Port → Port) :
    (s.modPort i f).modPort i g = s.modPort i fun p => g (f p) := by
  show ({ s with ports := (s.ports.set i (f (s.port i))).set i (g ((s.modPort i f).port i)) } : State) = _
  rw [port_modPort_self s hi, List.set_set]
  rfl

/-! ### What goes first (14 R373, R375, R377, R381) -/

theorem exec_frameTransmit (h : s.power.railTripped = false) (i : Nat) :
    exec (.frameTransmit i) s = .next (frameTransmit i s) := live_next h

theorem frameTransmit_of_not (h : (s.port i).state ≠ .up ∧ (s.port i).state ≠ .retiring ∨ s.now < (s.port i).busyUntil) :
    frameTransmit i s = s := if_pos (by simpa using h)

section
variable (hlive : (s.port i).state = .up ∨ (s.port i).state = .retiring) (hidle : (s.port i).busyUntil ≤ s.now)
include hlive hidle

theorem port_transmits :
    (!((s.port i).state == .up || (s.port i).state == .retiring) || decide (s.now < (s.port i).busyUntil)) = false := by
  rcases hlive with h | h
  · simp [h, hidle]
  · simp [h, hidle]

omit hlive in
/-- Flits to be sent again go before all else, but not while the port retires. -/
theorem frameTransmit_again (hup : (s.port i).state = .up) (hr : (s.port i).resend ≠ []) : frameTransmit i s = sendAgain s i :=
  (if_neg (by rw [port_transmits (.inl hup) hidle]; exact Bool.false_ne_true)).trans (if_pos (by simp [hup, hr]))

variable (hno : (s.port i).state = .retiring ∨ (s.port i).resend = [])
include hno

omit hlive hidle in
theorem port_sends_nothing_again : ((s.port i).state == .up && !(s.port i).resend.isEmpty) = false := by
  rcases hno with h | h
  · simp [h]
  · simp [h]

/-- A NAK goes at once. -/
theorem frameTransmit_nak {n : BitVec 12} {rest : List LinkCtl} (hq : (s.port i).ctlQ = .nakMsg n :: rest) :
    frameTransmit i s = sendCtl s i := by
  simp only [frameTransmit, port_transmits hlive hidle, port_sends_nothing_again hno, hq, Bool.false_eq_true, if_false]

/-- Any other message of the link goes once the replay buffer has room for its flits; `hc` keeps it from the arm of a NAK. -/
theorem frameTransmit_ctl {c : LinkCtl} {rest : List LinkCtl} (hq : (s.port i).ctlQ = c :: rest) (hc : ∀ n, c ≠ .nakMsg n) :
    frameTransmit i s = if replayRoom (s.port i) (ctlFlits c) then sendCtl s i else s := by
  simp only [frameTransmit, port_transmits hlive hidle, port_sends_nothing_again hno, hq, Bool.false_eq_true, if_false]

theorem frameTransmit_queued (hq : (s.port i).ctlQ = []) :
    frameTransmit i s = if (s.port i).state == .up then sendQueued s i else s := by
  simp only [frameTransmit, port_transmits hlive hidle, port_sends_nothing_again hno, hq, Bool.false_eq_true, if_false]

end

/-! ### What a message and a frame take (14 R368, R369, R373, R375) -/

theorem sendCtl_nak {n : BitVec 12} {rest : List LinkCtl} (hq : (s.port i).ctlQ = .nakMsg n :: rest) : sendCtl s i =
    s.modPort i fun p => { p with ctlQ := rest, busyUntil := s.now + occupancy p 1 } := by
  unfold sendCtl State.modPort
  simp only [hq]
  rfl

/-- Any other message is numbered and kept; `hc` keeps it from the arm of a NAK. -/
theorem sendCtl_numbered {c : LinkCtl} {rest : List LinkCtl} (hq : (s.port i).ctlQ = c :: rest) (hc : ∀ n, c ≠ .nakMsg n) :
    sendCtl s i = s.modPort i fun p =>
      { numberFlits p (.ctl c) (ctlFlits c) with ctlQ := rest, busyUntil := s.now + occupancy p (ctlFlits c) } := by
  unfold sendCtl State.modPort
  simp only [hq]

/-- A frame that leaves changes its port and counters alone. -/
theorem sendData_frame (s : State) (i q : Nat) (f : Frame) : ∃ ctr, sendData s i q f =
    { s.modPort i fun p => { numberFlits p (.data q f) (frameFlits f) with
        credits := p.credits.set (creditIdx (kindChannel f.kind) f.hops)
          (p.credits.getD (creditIdx (kindChannel f.kind) f.hops) 0 - frameFlits f)
        busyUntil := s.now + occupancy p (frameFlits f) } with ctr } := by
  unfold sendData
  dsimp only
  split
  · exact ⟨s.ctr, rfl⟩
  · exact bump_eq _ _ _ _ _

end

/-- Settles O52. The order of transmission is a case split on the port; a message or a frame that goes is numbered and kept. -/
theorem frameTransmitted : Obligations.FrameTransmitted := by
  unfold Obligations.FrameTransmitted
  intro i s hrail p port
  rw [exec_frameTransmit hrail]
  refine ⟨fun hnot => congrArg _ (frameTransmit_of_not hnot), fun hlive hidle => ⟨fun hup hr => ?_, fun hno => ?_⟩,
    sendData_frame s i⟩
  · exact congrArg _ (frameTransmit_again hidle hup hr)
  · refine ⟨fun n rest hq => ?_, fun c rest hq hc => ⟨fun hroom => ?_, fun hfull => ?_⟩, fun hq hret => ?_, fun hq hup => ?_⟩
    · rw [frameTransmit_nak hlive hidle hno hq, sendCtl_nak hq]
      rfl
    · rw [frameTransmit_ctl hlive hidle hno hq hc, if_pos (show replayRoom (s.port i) (ctlFlits c) = true from decide_eq_true hroom),
        sendCtl_numbered hq hc]
      rfl
    · rw [frameTransmit_ctl hlive hidle hno hq hc, if_neg (by simpa [replayRoom] using hfull)]
    · rw [frameTransmit_queued hlive hidle hno hq, if_neg (by simp [show (s.port i).state = .retiring from hret])]
    · rw [frameTransmit_queued hlive hidle hno hq, if_pos (beq_iff_eq.2 hup)]

/-! ### Acknowledgement (14 R373, R375) -/

section
variable {s : State} {i : Nat}

theorem exec_nak (h : s.power.railTripped = false) (i : Nat) (n : BitVec 12) :
    exec (.nak i n) s = .next (nakTaken i n s) := live_next h

theorem exec_creditReturn (h : s.power.railTripped = false) (i : Nat) (a : BitVec 12) (c hop k : Nat) :
    exec (.creditReturn i a c hop k) s = .next (creditReturn i a c hop k s) := live_next h

theorem exec_flitDiscard (h : s.power.railTripped = false) (i : Nat) (b : Bool) :
    exec (.flitDiscard i b) s = .next (flitDiscard i b s) := live_next h

theorem nakTaken_of_not {n : BitVec 12} (h : (s.port i).state ≠ .up ∨ ackSplit (s.port i) n = none) : nakTaken i n s = s := by
  refine if_pos ?_
  rcases h with h | h
  · simp [h]
  · simp [h]

theorem creditReturn_of_not_up (h : (s.port i).state ≠ .up) (a : BitVec 12) (c hop k : Nat) :
    creditReturn i a c hop k s = s := if_pos (by simp [h])

theorem flitDiscard_of_not_up (h : (s.port i).state ≠ .up) (b : Bool) : flitDiscard i b s = s := if_pos (by simp [h])

/-- What is acknowledged and the rest make up the replay buffer. -/
theorem ackSplit_append {p : Port} {n : BitVec 12} {done rest : List Sent} (h : ackSplit p n = some (done, rest)) :
    done ++ rest = p.replay := by
  unfold ackSplit at h
  split at h
  · cases h
    exact List.take_append_drop _ _
  · simp only [Option.ite_none_right_eq_some, Option.some.injEq, Prod.mk.injEq] at h
    obtain ⟨-, rfl, rfl⟩ := h
    rfl

/-- A port whose flits up to a number are acknowledged: the rest stays, to be sent again as far as that was due. -/
def ackedPort (rest : List Sent) (p : Port) : Port :=
  { p with replay := rest, resend := p.resend.filter fun x => rest.contains x }

section
variable {n : BitVec 12} {done rest : List Sent} (hsplit : ackSplit (s.port i) n = some (done, rest))
  (hquiet : ∀ x ∈ done, ackedPair s x = none)
include hsplit hquiet

/-- Flits that end no reply to a peer only leave the replay buffer. -/
theorem takeAck_of_quiet : takeAck s i n = s.modPort i (ackedPort rest) := by
  have hnone : done.filterMap (ackedPair s) = [] := List.filterMap_eq_nil_iff.2 hquiet
  simp only [takeAck, hsplit, hnone]
  rfl

variable (hi : i < s.ports.length) (hup : (s.port i).state = .up) (hdue : s.boot.resetDue = false)
include hi hup hdue

theorem nakTaken_all (hrest : rest = []) : nakTaken i n s = s.modPort i (ackedPort rest) := by
  have hempty : ((s.modPort i (ackedPort rest)).port i).replay.isEmpty = true := by
    rw [port_modPort_self s hi, ackedPort, hrest]
    rfl
  simp only [nakTaken, takeAck_of_quiet hsplit hquiet, hempty, if_true]
  exact (if_neg (by simp [hup, hsplit])).trans (groupResetNow_of_not_due hdue)

theorem nakTaken_rest (hrest : rest ≠ []) : nakTaken i n s =
    bump (s.modPort i fun p => { p with replay := rest, resend := rest }) .linkReplay 0 i 1 := by
  have hleft : ((s.modPort i (ackedPort rest)).port i).replay.isEmpty = false := by
    rw [port_modPort_self s hi, ackedPort]
    simpa using hrest
  simp only [nakTaken, takeAck_of_quiet hsplit hquiet, hleft, Bool.false_eq_true, if_false, modPort_modPort hi]
  exact (if_neg (by simp [hup, hsplit])).trans (groupResetNow_of_not_due hdue)

theorem creditReturn_taken {c hop k : Nat} (hc : c < 3) (hhop : hop < 8) (hk : k < 2048) : creditReturn i n c hop k s =
    s.modPort i fun p => { ackedPort rest p with
      credits := p.credits.set (creditIdx c hop) (p.credits.getD (creditIdx c hop) 0 + k) } := by
  simp only [creditReturn, takeAck_of_quiet hsplit hquiet, modPort_modPort hi]
  refine (if_neg (by simp [hup])).trans ?_
  rw [if_pos ⟨hc, hhop, hk⟩]
  exact groupResetNow_of_not_due hdue

end

/-! ### Flits that are discarded (14 R370, R374 to R376) -/

/-- A port that asks for what follows the last good flit. -/
def discards (p : Port) : Port := { p with discarding := true, ctlQ := p.ctlQ ++ [.nakMsg p.rxSeq] }

theorem flitDiscard_corrected (hup : (s.port i).state = .up) : flitDiscard i false s = s.modPort i discards :=
  if_neg (by simp [hup])

/-- The lane of an uncorrectable codeword: an active one, if there is any, by the free value (log 72). -/
def struckLane (s : State) (i : Nat) : Nat :=
  (activeLanes (s.port i)).getD ((Config.freeValue s.freeIdx).toNat % max 1 (activeLanes (s.port i)).length) 0

theorem struckLane_mem (h : activeLanes (s.port i) ≠ []) : struckLane s i ∈ activeLanes (s.port i) := by
  have hpos : 0 < (activeLanes (s.port i)).length := List.length_pos_iff.2 h
  have hlt : (Config.freeValue s.freeIdx).toNat % max 1 (activeLanes (s.port i)).length < (activeLanes (s.port i)).length := by
    rw [Nat.max_eq_right hpos]
    exact Nat.mod_lt _ hpos
  rw [struckLane, List.getD_eq_getElem?_getD, List.getElem?_eq_getElem hlt, Option.getD_some]
  exact List.getElem_mem hlt

/-- A port after an uncorrectable codeword on a lane: it is kept for a second, and the flit discarded. -/
def laneStruck (now k : Nat) (p : Port) : Port :=
  discards { p with uncorr := (p.uncorr.filter fun e => decide (now < e.2 + 1000000000)) ++ [(k, now)] }

/-- The module after an uncorrectable codeword, the lane still in use. -/
def codewordLost (s : State) (i : Nat) : State :=
  { bump { s with freeIdx := s.freeIdx + 1 } .linkFecUncorr 0 (4 * i + struckLane s i) 1 with
    ports := s.ports.set i (laneStruck s.now (struckLane s i) (s.port i)) }

theorem flitDiscard_uncorrectable (hi : i < s.ports.length) (hup : (s.port i).state = .up) : flitDiscard i true s =
    if 16 < (laneStruck s.now (struckLane s i) (s.port i)).uncorr.countP (fun e => e.1 == struckLane s i)
    then retireLane i (struckLane s i) true (codewordLost s i) else codewordLost s i := by
  have hnak : (laneFails { s with freeIdx := s.freeIdx + 1 } i (struckLane s i)).modPort i discards = codewordLost s i :=
    modPort_modPort (s := bump { s with freeIdx := s.freeIdx + 1 } .linkFecUncorr 0 (4 * i + struckLane s i) 1) hi _ _
  have hport : (codewordLost s i).port i = laneStruck s.now (struckLane s i) (s.port i) := by
    simp [codewordLost, State.port, List.getD, hi]
  have hgo : flitDiscard i true s =
      let s1 := (laneFails { s with freeIdx := s.freeIdx + 1 } i (struckLane s i)).modPort i discards
      if 16 < (s1.port i).uncorr.countP (fun e => e.1 == struckLane s i) then retireLane i (struckLane s i) true s1 else s1 :=
    if_neg (by simp [hup])
  rw [hgo]
  simp only [hnak, hport]

end

/-- Settles O53. What is acknowledged leaves the replay buffer and the rest is sent again; a discarded flit is answered, and an
uncorrectable codeword counted for its lane. -/
theorem linkAcknowledged : Obligations.LinkAcknowledged := by
  unfold Obligations.LinkAcknowledged
  intro i s hrail hi hdue p
  simp only [exec_nak hrail, exec_creditReturn hrail, exec_flitDiscard hrail]
  refine ⟨fun hdown => ?_, fun hup => ?_⟩
  · simp only [nakTaken_of_not (.inl hdown), creditReturn_of_not_up hdown, flitDiscard_of_not_up hdown, implies_true, and_self]
  · refine ⟨fun n hnone => ?_, fun n done rest hsplit hquiet => ⟨fun hrest => ?_, fun hrest => ?_, fun c h k hc hh hk => ?_⟩,
      fun n done rest => ackSplit_append, ?_, struckLane s i, (codewordLost s i).ctr, struckLane_mem, ?_, ?_⟩
    · rw [nakTaken_of_not (.inr hnone)]
    · rw [nakTaken_all hsplit hquiet hi hup hdue hrest, hrest]
      rfl
    · rw [nakTaken_rest hsplit hquiet hi hup hdue hrest]
      rfl
    · rw [creditReturn_taken hsplit hquiet hi hup hdue hc hh hk, creditIdx, Nat.mul_comm c 8]
      rfl
    · rw [flitDiscard_corrected hup]
      rfl
    · exact lookupD_bump_self _ .linkFecUncorr 0 (4 * i + struckLane s i) 1
    · rw [flitDiscard_uncorrectable hi hup]
      rfl

end Sys2Proof.Laws
end

section
/-! SUPPORT. Routes, lanes, ports and lost peers: messages that an UP port takes, vectors that go out, lanes that are retired, ports that
train, and peers that are lost and come back. The section settles O54. -/

namespace Sys2Proof.Laws

open Sys2Proof Sys2Proof.Machine

section
variable {s : State} {i : Nat}

/-! ### HELLO and distance vectors (14 R375, R378) -/

section
variable (h : s.power.railTripped = false)
include h

theorem exec_hello (link : CtlFrom) (m : W16) (t n : Nat) :
    exec (.hello link m t n) s = .next (helloTaken link.port m link.linkSeq s) := live_next h

theorem exec_distanceVector (link : CtlFrom) (v : List (W16 × Nat)) :
    exec (.distanceVector link v) s = .next (vectorTaken link.port v link.linkSeq s) := live_next h

theorem exec_distanceVectorSend : exec .distanceVectorSend s = .next (vectorSend s) := live_next h

theorem exec_laneRetire (i lane : Nat) : exec (.laneRetire i lane) s = .next (retireLane i lane true s) := live_next h

theorem exec_retire (link : CtlFrom) (lane : Nat) :
    exec (.retire link lane) s = .next (retireTaken link.port lane link.linkSeq s) := live_next h

theorem exec_portUp (i : Nat) : exec (.portUp i) s = .next (portUp i s) := live_next h

theorem exec_peerLost (m : W16) : exec (.peerLost m) s = .next (peerLost m s) := live_next h

theorem exec_peerReinstated (m : W16) : exec (.peerReinstated m) s = .next (peerReinstated m s) := live_next h

end

/-- What keeps a message of the link from being taken. -/
theorem notTaken_iff {p : Port} {z : BitVec 12} : (p.state != .up || !awaited p z) = true ↔
    p.state ≠ .up ∨ p.discarding = true ∧ z ≠ p.rxSeq + 1 := by
  simp [awaited]

theorem taken_of_awaited {p : Port} {z : BitVec 12} (hup : p.state = .up) (hz : p.discarding = false ∨ z = p.rxSeq + 1) :
    ¬(p.state != .up || !awaited p z) = true := by
  simp [hup, awaited_iff.2 hz]

section
variable {z : BitVec 12}

section
variable (h : (s.port i).state ≠ .up ∨ (s.port i).discarding = true ∧ z ≠ (s.port i).rxSeq + 1)
include h

theorem helloTaken_of_not (m : W16) : helloTaken i m z s = s := if_pos (notTaken_iff.2 h)

theorem vectorTaken_of_not (v : List (W16 × Nat)) : vectorTaken i v z s = s := if_pos (notTaken_iff.2 h)

end

section
variable (hup : (s.port i).state = .up) (hz : (s.port i).discarding = false ∨ z = (s.port i).rxSeq + 1)
include hup hz

theorem helloTaken_own : helloTaken i s.myId z s = routesChanged s (bump (portDown s i) .linkDupId 0 0 1) :=
  (if_neg (taken_of_awaited hup hz)).trans (if_pos rfl)

theorem helloTaken_other (hi : i < s.ports.length) {m : W16} (hm : m ≠ s.myId) : helloTaken i m z s = routesChanged s
    (s.modPort i fun p => { p with rxSeq := p.rxSeq + 1, discarding := false, peerId := m }) := by
  refine (if_neg (taken_of_awaited hup hz)).trans ((if_neg hm).trans ?_)
  rw [received, modPort_modPort hi]
  rfl

theorem vectorTaken_of_awaited (v : List (W16 × Nat)) : vectorTaken i v z s =
    routesChanged s { received s i (ctlFlits (.vector v)) with vectors := setKey s.vectors i v } :=
  if_neg (taken_of_awaited hup hz)

end
end

/-! ### The module's own vector (12 R342; 14 R378) -/

/-- Queueing vectors adds no token. -/
theorem tokensWait_queueVectors (s : State) : tokensWait (queueVectors s) = tokensWait s := by
  simp only [tokensWait, queueVectors, List.any_map]
  congr 1
  funext q
  by_cases hup : q.state = .up
  · simp only [Function.comp, if_pos hup]
  · simp only [Function.comp, if_neg hup]

theorem resetRecordWaits_queueVectors (s : State) : resetRecordWaits (queueVectors s) = resetRecordWaits s := rfl

theorem vectorSend_of_no_reset (h : s.boot.resetDue = false ∨ tokensWait s = true ∨ resetRecordWaits s = true) :
    vectorSend s = queueVectors s := by
  refine if_neg ?_
  rw [tokensWait_queueVectors, resetRecordWaits_queueVectors, show (queueVectors s).boot = s.boot from rfl]
  rcases h with h | h | h
  · simp [h]
  · simp [h]
  · simp [h]

theorem vectorSend_of_reset (hdue : s.boot.resetDue = true) (htok : tokensWait s = false) (hrec : resetRecordWaits s = false) :
    vectorSend s = resetTo s .groupReset := by
  refine if_pos ?_
  rw [tokensWait_queueVectors, resetRecordWaits_queueVectors, show (queueVectors s).boot = s.boot from rfl, hdue, htok, hrec]
  rfl

/-! ### Lanes (14 R376, R377) -/

/-- A port that has lost a lane, and trains on the rest. -/
def withoutLane (lane : Nat) (p : Port) : Port :=
  { p with retiredLanes := p.retiredLanes ||| BitVec.ofNat 4 (2 ^ lane), lanes := p.lanes &&& ~~~BitVec.ofNat 4 (2 ^ lane)
           state := .retiring }

/-- The module that notes a lane's retirement: it is degraded, with an event and a count. -/
def laneNoted (i : Nat) (s : State) : State :=
  { s with
    ident := { s.ident with events := s.ident.events ||| 4, degraded := true }
    ctr := setKey s.ctr ⟨.linkLaneRet, 0, i⟩ (lookupD s.ctr ⟨.linkLaneRet, 0, i⟩ 0 + 1) }

theorem degrade_setEvent_bump (i : Nat) (s : State) : degrade (setEvent (bump s .linkLaneRet 0 i 1) 2) = laneNoted i s := rfl

/-- The module whose port has lost a lane. -/
def laneLost (i lane : Nat) (s : State) : State := (laneNoted i s).modPort i (withoutLane lane)

theorem laneLost_modPort {lane : Nat} (hi : i < s.ports.length) (f : Port → Port) : (laneLost i lane s).modPort i f =
    (laneNoted i s).modPort i fun p => f (withoutLane lane p) :=
  modPort_modPort (s := laneNoted i s) hi _ _

theorem laneLost_received {lane : Nat} (hi : i < s.ports.length) : laneLost i lane (received s i 1) =
    (laneNoted i s).modPort i fun p => withoutLane lane { p with rxSeq := p.rxSeq + 1, discarding := false } :=
  modPort_modPort (s := laneNoted i s) hi (fun p => { p with rxSeq := p.rxSeq + 1, discarding := false }) (withoutLane lane)

theorem retireLane_of_not {lane : Nat} (h : ((s.port i).state ≠ .up ∧ (s.port i).state ≠ .retiring) ∨ 4 ≤ lane ∨
    (s.port i).lanes.getLsbD lane = false) (detecting : Bool) : retireLane i lane detecting s = s := by
  refine if_pos ?_
  rcases h with ⟨hup, hret⟩ | h | h
  · simp [hup, hret]
  · simp [h]
  · simp [h]

section
variable {lane : Nat} (hlive : (s.port i).state = .up ∨ (s.port i).state = .retiring) (hlane : lane < 4)
  (hbit : (s.port i).lanes.getLsbD lane = true) (hi : i < s.ports.length)
include hlive hlane hbit hi

/-- A port without a lane left is DOWN; else its frames go by other ports while it trains. -/
theorem retireLane_eq (detecting : Bool) : retireLane i lane detecting s =
    if (withoutLane lane (s.port i)).lanes = 0 then routesChanged s (portDown (laneLost i lane s) i)
    else routesChanged s (reroutePort
      (if detecting then (laneLost i lane s).modPort i fun p => { p with ctlQ := .retire lane :: p.ctlQ } else laneLost i lane s)
      i) := by
  have hgo : (!((s.port i).state == .up || (s.port i).state == .retiring) || decide (4 ≤ lane) ||
      !(s.port i).lanes.getLsbD lane) = false := by
    rcases hlive with h | h
    · simp [h, hlane, hbit]
    · simp [h, hlane, hbit]
  have hport : (laneLost i lane s).port i = withoutLane lane (s.port i) :=
    port_modPort_self (laneNoted i s) hi _
  rw [← hport, laneLost, ← degrade_setEvent_bump]
  exact if_neg (by rw [hgo]; exact Bool.false_ne_true)

theorem retireLane_last (h : (withoutLane lane (s.port i)).lanes = 0) (detecting : Bool) :
    retireLane i lane detecting s = routesChanged s (portDown (laneLost i lane s) i) := by
  rw [retireLane_eq hlive hlane hbit hi, if_pos h]

variable (h : (withoutLane lane (s.port i)).lanes ≠ 0)
include h

/-- The end that detects it tells the other. -/
theorem retireLane_detecting : retireLane i lane true s = routesChanged s (reroutePort
    ((laneLost i lane s).modPort i fun p => { p with ctlQ := .retire lane :: p.ctlQ }) i) := by
  rw [retireLane_eq hlive hlane hbit hi, if_neg h, if_pos rfl]

theorem retireLane_told : retireLane i lane false s = routesChanged s (reroutePort (laneLost i lane s) i) := by
  rw [retireLane_eq hlive hlane hbit hi, if_neg h, if_neg Bool.false_ne_true]

/-- The end that is told has received the message. -/
theorem retireLane_told_received : retireLane i lane false (received s i 1) = routesChanged (received s i 1) (reroutePort
    ((laneNoted i s).modPort i fun p =>
      withoutLane lane { p with rxSeq := p.rxSeq + 1, discarding := false }) i) := by
  have hport : (received s i 1).port i = { s.port i with rxSeq := (s.port i).rxSeq + 1, discarding := false } :=
    port_modPort_self s hi _
  rw [retireLane_told (by rwa [hport]) hlane (by rwa [hport]) (by rwa [received, modPort_ports_length])
    (by rw [hport]; exact h), laneLost_received hi]

end

theorem retireTaken_of_awaited {lane : Nat} {z : BitVec 12} (hlive : (s.port i).state = .up ∨ (s.port i).state = .retiring)
    (hz : (s.port i).discarding = false ∨ z = (s.port i).rxSeq + 1) :
    retireTaken i lane z s = retireLane i lane false (received s i 1) := by
  refine if_pos ?_
  rw [awaited_iff.2 hz]
  simpa using hlive

/-! ### Ports that train (14 R373, R377, R378) -/

theorem portUp_of_not (h : bit (s.port i).ctl.toNat 0 = true ∨ ((s.port i).state ≠ .training ∧ (s.port i).state ≠ .retiring)) :
    portUp i s = s := by
  unfold portUp
  dsimp only
  split
  · rfl
  next hfree =>
    obtain ⟨htrain, hretire⟩ := h.resolve_left hfree
    split
    · contradiction
    · contradiction
    · rfl

theorem portUp_trained (hfree : bit (s.port i).ctl.toNat 0 = false) (htrain : (s.port i).state = .training)
    (hlanes : ~~~(s.port i).retiredLanes ≠ 0) : portUp i s = routesChanged s (s.modPort i fun p => { p with
      state := .up, lanes := ~~~(s.port i).retiredLanes, credits := Port.linkUpCredits, txSeq := 0, rxSeq := 0xFFF, replay := []
      resend := [], discarding := false, peerId := 0xFFFF, ctlQ := [helloCtl s i (~~~(s.port i).retiredLanes)] }) := by
  simp only [portUp, hfree, Bool.false_eq_true, if_false, htrain, if_neg hlanes]

/-! ### Lost peers (15 R420) -/

theorem peerLost_of_not {m : W16} (h : m = s.myId ∨ m ∈ s.lost ∨ reachable s m = true ∨
    s.now < lookupD s.unreach m 0 + 250000000) : peerLost m s = s :=
  if_pos (h.imp_right (Or.imp_left List.contains_iff_mem.2))

/-- Where no partition has global operations the loss of a module ends none. -/
theorem globalsLose_of_none (h : ∀ j, j < 32 → (s.part j).globals = []) (m : W16) : globalsLose m s = s :=
  List.foldlRecOn (motive := fun t => t = s) _ _ rfl fun t ht j hj => by
    rw [ht, h j (List.mem_range.1 hj)]
    rfl

/-- The module once a peer is declared lost, before what waits for the peer is looked for. -/
def peerDeclared (m : W16) (s : State) : State :=
  { forgetFlows s m with
    lost := s.lost ++ [m]
    ident := { s.ident with events := s.ident.events ||| 8, degraded := true }
    ctr := setKey s.ctr ⟨.peerDeclaredLost, 0, 0⟩ (lookupD s.ctr ⟨.peerDeclaredLost, 0, 0⟩ 0 + 1) }

theorem degrade_setEvent_forgetFlows (m : W16) (s : State) :
    degrade (setEvent (bump { forgetFlows s m with lost := s.lost ++ [m] } .peerDeclaredLost 0 0 1) 3) = peerDeclared m s := rfl

/-- The tables of all partitions once they have lost a source (08 R233). -/
def sourcesLost (me m : Nat) (s : State) : State :=
  { s with parts := s.parts.map fun p => { p with tables := p.tables.map (sourceLost me m) } }

theorem sourcesLost_of_none (h : ∀ q ∈ s.parts, q.tables = []) (me m : Nat) : sourcesLost me m s = s := by
  have hkept : ∀ q ∈ s.parts, ({ q with tables := q.tables.map (sourceLost me m) } : Partition) = id q := fun q hq => by
    rw [show q.tables.map (sourceLost me m) = q.tables by rw [h q hq]; rfl]
    rfl
  rw [sourcesLost, List.map_congr_left hkept, List.map_id]

/-- Where nothing waits for the peer, nothing else follows. -/
theorem peerLost_alone {m : W16} (hm : m ≠ s.myId) (hnew : m ∉ s.lost) (hr : reachable s m = false)
    (ht : lookupD s.unreach m 0 + 250000000 ≤ s.now) (hcalls : s.calls = []) (hglobals : ∀ j, j < 32 → (s.part j).globals = [])
    (htables : ∀ q ∈ s.parts, q.tables = []) : peerLost m s = peerDeclared m s := by
  have hnone : sourcesLost s.myId.toNat m.toNat (peerDeclared m s) = peerDeclared m s :=
    sourcesLost_of_none (s := peerDeclared m s) htables _ _
  refine (if_neg ?_).trans ?_
  · simpa [hm, hnew, hr, lostBound] using ht
  · simp only [degrade_setEvent_forgetFlows]
    show globalsLose m (((sourcesLost s.myId.toNat m.toNat (peerDeclared m s)).calls.filter _).foldl _
      (sourcesLost s.myId.toNat m.toNat (peerDeclared m s))) = _
    rw [hnone, show (peerDeclared m s).calls = [] from hcalls, List.filter_nil, List.foldl_nil]
    exact globalsLose_of_none (s := peerDeclared m s) hglobals m

theorem peerReinstated_of_not {m : W16} (h : m ∉ s.lost ∨ reachable s m = false) : peerReinstated m s = s := by
  refine if_neg fun hback => ?_
  obtain ⟨hlost, hreach⟩ := Bool.and_eq_true_iff.1 hback
  rcases h with h | h
  · exact h (List.contains_iff_mem.1 hlost)
  · exact Bool.false_ne_true (h.symm.trans hreach)

theorem peerReinstated_of_reachable {m : W16} (hlost : m ∈ s.lost) (hr : reachable s m = true) : peerReinstated m s = { s with
    lost := s.lost.filter (· != m), unreach := eraseKey s.unreach m
    parts := s.parts.map fun p => { p with tables := p.tables.map fun t =>
      { t with lostSources := t.lostSources.filter (· != m.toNat) } } } :=
  if_pos (by rw [List.contains_iff_mem.2 hlost, hr]; rfl)

end

/-- Settles O54. Messages are taken by an UP port as awaited, a lane that is lost leaves the port on the rest or DOWN, and a peer is
lost and comes back by what routes there are. -/
theorem routesAndPeers : Obligations.RoutesAndPeers := by
  unfold Obligations.RoutesAndPeers
  intro i s hrail hi p
  simp only [exec_hello hrail, exec_distanceVector hrail, exec_distanceVectorSend hrail, exec_laneRetire hrail, exec_retire hrail,
    exec_portUp hrail, exec_peerLost hrail, exec_peerReinstated hrail]
  refine ⟨fun z hnot => ⟨fun m t n => ?_, fun v => ?_⟩, fun z hup hz => ⟨fun m t n hm => ?_, fun t n => ?_, fun v => ?_⟩,
    fun hno => ?_, fun hdue htok hrec => ?_, fun lane hnot => ?_, fun lane hlive hlane hbit => ?_, fun hnot => ?_,
    fun hfree htrain hlanes => ?_, fun m hnot => ?_, fun m hm hnew hr ht hcalls hglobals htables => ?_, fun m hnot => ?_,
    fun m hlost hr => ?_⟩
  · rw [helloTaken_of_not hnot]
  · rw [vectorTaken_of_not hnot]
  · rw [helloTaken_other hup hz hi hm]
    rfl
  · rw [helloTaken_own hup hz]
    rfl
  · rw [vectorTaken_of_awaited hup hz]
    rfl
  · rw [vectorSend_of_no_reset hno]
    rfl
  · rw [vectorSend_of_reset hdue htok hrec]
  · rw [retireLane_of_not hnot]
  · refine ⟨fun h0 => ?_, fun hleft => ⟨?_, fun z hz => ?_⟩⟩
    · rw [retireLane_last hlive hlane hbit hi h0]
      rfl
    · rw [retireLane_detecting hlive hlane hbit hi hleft, laneLost_modPort hi]
      rfl
    · rw [retireTaken_of_awaited hlive hz, retireLane_told_received hlive hlane hbit hi hleft]
      rfl
  · rw [portUp_of_not hnot]
  · rw [portUp_trained hfree htrain hlanes]
    rfl
  · rw [peerLost_of_not hnot]
  · exact ⟨_, congrArg _ (peerLost_alone hm hnew hr ht hcalls hglobals htables), rfl, rfl, rfl⟩
  · rw [peerReinstated_of_not hnot]
  · rw [peerReinstated_of_reachable hlost hr]

end Sys2Proof.Laws
end

section
/-! SUPPORT. The outcome of every row: the two of the supply always have their effect, every other one stops after the rail trip
alone. The section settles O3. -/

namespace Sys2Proof.Laws

open Sys2Proof Sys2Proof.Machine

/-- Every row but the two of the supply is a change of a live machine (15 R400, R429; log 8). -/
theorem exec_eq_live {i : Instr} (s : State) (hon : ∀ straps, i ≠ .powerOn straps) (hloss : i ≠ .powerLoss) :
    ∃ t, exec i s = live s t := by
  cases i with
  | powerOn straps => exact absurd rfl (hon straps)
  | powerLoss => exact absurd rfl hloss
  | _ => exact ⟨_, rfl⟩

theorem exec_powerOn (straps : BitVec 3) (s : State) : exec (.powerOn straps) s = .next (powerOn straps s) := rfl

theorem exec_powerLoss (s : State) : exec .powerLoss s = .next (powerLoss s) := rfl

/-- After the rail trip nothing is promised (15 R400). -/
theorem live_tripped {s : State} (h : s.power.railTripped = true) (t : State) : live s t = .fault .nothingPromised := if_pos h

/-- Settles O3. The rows of the supply complete in every state; each other row is a change of a live machine, which completes
before the rail trip and stops after it. -/
theorem commandsComplete : Obligations.CommandsComplete := by
  unfold Obligations.CommandsComplete
  refine ⟨fun i s hrail => ?_, fun i s htrip hon hloss => ?_⟩
  · by_cases hon : ∃ straps, i = .powerOn straps
    · obtain ⟨straps, rfl⟩ := hon
      exact ⟨_, exec_powerOn straps s⟩
    by_cases hloss : i = .powerLoss
    · subst hloss
      exact ⟨_, exec_powerLoss s⟩
    obtain ⟨t, ht⟩ := exec_eq_live s (fun straps h => hon ⟨straps, h⟩) hloss
    exact ⟨t, ht.trans (live_next hrail)⟩
  · obtain ⟨t, ht⟩ := exec_eq_live s hon hloss
    exact ht.trans (live_tripped htrip t)

end Sys2Proof.Laws
end

section
/-! SUPPORT. Side-band reads with an effect: which registers answer, and what a read of PwrMeas and of SbLcCount returns and
leaves. The section settles O12. -/

namespace Sys2Proof.Laws

open Sys2Proof Sys2Proof.Machine

/-! ### Words and their bytes -/

theorem leBytes_length (k n : Nat) : (leBytes k n).length = k := by
  induction k generalizing n with
  | zero => rfl
  | succ k ih => rw [leBytes, List.length_cons, ih]

/-- A read of the whole word returns all its bytes. -/
theorem take_word {m : Nat} (h : 4 ≤ m) (n : Nat) : (leBytes 4 n).take m = leBytes 4 n :=
  List.take_of_length_le (by rwa [leBytes_length])

/-- A word that reads 0 returns bytes of 0. -/
theorem take_zero_word {n : Nat} (h : n ≤ 4) : (leBytes 4 0).take n = List.replicate n 0 := by
  have hz : leBytes 4 0 = List.replicate 4 0 := rfl
  rw [hz, List.take_replicate, Nat.min_eq_left h]

theorem halfWord_low (v : W64) : (halfWord v false).toNat = v.toNat % 2 ^ 32 := by
  simp [halfWord]

theorem halfWord_high (v : W64) : halfWord v true = BitVec.ofNat 32 (v.toNat / 2 ^ 32) := by
  refine BitVec.eq_of_toNat_eq ?_
  simp [halfWord, Nat.shiftRight_eq_div_pow]

/-! ### The registers outside the management domain (18 R478) -/

theorem sbOpen_of_released {s : State} (hin : s.power.inputOn = true) (hrel : s.released = true) : sbOpen s = true := by
  simp [sbOpen, State.managed, hin, hrel]

theorem sbOpen_of_not_released {s : State} (hrel : s.released = false) : sbOpen s = false := by
  simp [sbOpen, hrel]

section
variable {s : State} (h : s.power.railTripped = false)
include h

theorem exec_pwrMeasRead (n : Nat) : exec (.pwrMeasRead n) s = .next (pwrMeasRead n s) := live_next h

theorem exec_sbLcCountRead (high : Bool) (n : Nat) : exec (.sbLcCountRead high n) s = .next (sbLcCountRead high n s) :=
  live_next h

end

/-! ### PwrMeas (15 R410; 18 R476) -/

section
variable {s : State} {n : Nat}

theorem pwrMeasRead_whole (ho : sbOpen s = true) (hn : 4 ≤ n) : pwrMeasRead n s =
    { s with readOut := leBytes 4 (pwrMeas s).toNat, cut := { s.cut with peak := 0 } } := by
  simp only [pwrMeasRead, ho, hn, take_word hn, decide_true, Bool.and_self, if_true]

theorem pwrMeasRead_part (ho : sbOpen s = true) (hn : n < 4) :
    pwrMeasRead n s = { s with readOut := (leBytes 4 (pwrMeas s).toNat).take n } := by
  simp only [pwrMeasRead, ho, Nat.not_le.2 hn, decide_false, Bool.and_false, Bool.false_eq_true, if_false, if_true]

theorem pwrMeasRead_closed (ho : sbOpen s = false) (hn : n ≤ 4) : pwrMeasRead n s = { s with readOut := List.replicate n 0 } := by
  have hzero : (0 : W32).toNat = 0 := rfl
  simp only [pwrMeasRead, ho, hzero, take_zero_word hn, Bool.false_and, Bool.false_eq_true, if_false]

/-! ### SbLcCount (18 R476) -/

theorem sbLcCountRead_whole (ho : sbOpen s = true) (hn : 4 ≤ n) : sbLcCountRead false n s =
    { s with readOut := leBytes 4 (s.lc.toNat % 2 ^ 32)
             sb := { s.sb with lcLatch := BitVec.ofNat 32 (s.lc.toNat / 2 ^ 32) } } := by
  simp only [sbLcCountRead, ho, hn, take_word hn, halfWord_low, halfWord_high, Bool.not_true, Bool.false_eq_true, if_false,
    if_true]

theorem sbLcCountRead_part (ho : sbOpen s = true) (hn : n < 4) :
    sbLcCountRead false n s = { s with readOut := (leBytes 4 (s.lc.toNat % 2 ^ 32)).take n } := by
  simp only [sbLcCountRead, ho, Nat.not_le.2 hn, halfWord_low, Bool.not_true, Bool.false_eq_true, if_false]

theorem sbLcCountRead_latch (ho : sbOpen s = true) (n : Nat) :
    sbLcCountRead true n s = { s with readOut := (leBytes 4 s.sb.lcLatch.toNat).take n } := by
  simp [sbLcCountRead, ho]

theorem sbLcCountRead_closed (ho : sbOpen s = false) (hn : n ≤ 4) (high : Bool) :
    sbLcCountRead high n s = { s with readOut := List.replicate n 0 } := by
  simp [sbLcCountRead, ho, Nat.min_eq_left hn]

end

/-- Settles O12. Whether the registers answer, then which word is read and whether all of it. -/
theorem sideBandReads : Obligations.SideBandReads := by
  unfold Obligations.SideBandReads
  intro s n hrail
  simp only [exec_pwrMeasRead hrail, exec_sbLcCountRead hrail]
  refine ⟨fun hin hrel => ?_, fun hrel hn => ?_⟩
  · have ho := sbOpen_of_released hin hrel
    exact ⟨fun m hm => congrArg _ (pwrMeasRead_whole ho hm), fun hn => congrArg _ (pwrMeasRead_part ho hn),
      fun m hm => congrArg _ (sbLcCountRead_whole ho hm), fun hn => congrArg _ (sbLcCountRead_part ho hn),
      congrArg _ (sbLcCountRead_latch ho n)⟩
  · have ho := sbOpen_of_not_released hrel
    exact ⟨congrArg _ (pwrMeasRead_closed ho hn), fun high => congrArg _ (sbLcCountRead_closed ho hn high)⟩

end Sys2Proof.Laws
end

section
/-! SUPPORT. A core that is retired: the mask that is left, and what CORE_RETIRE does while enough cores remain. The section
settles O7. -/

namespace Sys2Proof.Laws

open Sys2Proof Sys2Proof.Machine

/-! ### The mask of the cores (15 R421) -/

/-- A core is in the mask that is left where it was in the mask and is not the one retired. -/
theorem withoutCore_getLsbD {core : Nat} (h : core < 8) (m : BitVec 8) (k : Nat) :
    (withoutCore m core).getLsbD k = (m.getLsbD k && k != core) := by
  have hbit : (BitVec.ofNat 8 (2 ^ core)).getLsbD k = (k == core) := by
    rw [BitVec.getLsbD_ofNat, Nat.testBit_two_pow]
    by_cases hk : k = core
    · simp [hk, h]
    · simp [hk, Ne.symm hk]
  by_cases hk : k < 8
  · rw [withoutCore, BitVec.getLsbD_and, BitVec.getLsbD_not, hbit]
    simp [hk, bne]
  · rw [BitVec.getLsbD_of_ge _ _ (Nat.not_lt.1 hk), BitVec.getLsbD_of_ge _ _ (Nat.not_lt.1 hk), Bool.false_and]

/-! ### CORE_RETIRE (15 R421) -/

theorem exec_coreRetire {s : State} (h : s.power.railTripped = false) (core : Nat) (ctxs tickets : List Nat) :
    exec (.coreRetire core ctxs tickets) s = .next (coreRetire core ctxs tickets s) := live_next h

/-- With enough cores left the requests that the core was updating are replayed, then the other commands it had taken end. -/
theorem coreRetire_of_enough {s : State} {core : Nat} (hrel : s.released = true) (hcore : s.boot.coreMask.getLsbD core = true)
    (hleft : 5 ≤ (List.range 8).countP ((withoutCore s.boot.coreMask core).getLsbD ·)) (ctxs tickets : List Nat) :
    coreRetire core ctxs tickets s = tickets.foldl abortCommand (ctxs.foldl replayRequest
      (bump { s with boot := { s.boot with coreMask := withoutCore s.boot.coreMask core } } .coreRetired 0 0 1)) := by
  unfold coreRetire
  rw [if_neg (by simp [hrel, hcore])]
  exact if_neg (Nat.not_lt.2 hleft)

/-- Settles O7. The mask is told apart bit by bit; the rest is the row's one case with enough cores left. -/
theorem coreRetired : Obligations.CoreRetired := by
  unfold Obligations.CoreRetired
  intro core ctxs tickets s hrail hlt hrel hcore hleft
  refine ⟨?_, fun k hk => ?_, ?_⟩
  · rw [withoutCore_getLsbD hlt]
    simp
  · rw [withoutCore_getLsbD hlt]
    simp [hk]
  · rw [exec_coreRetire hrail, coreRetire_of_enough hrel hcore hleft]
    rfl

end Sys2Proof.Laws
end

section
/-! SUPPORT. PARTITION_RECOVER: the engine work that goes, the pairs that restart, and the partition that is left with its
binding. The section settles O29. -/

namespace Sys2Proof.Laws

open Sys2Proof Sys2Proof.Machine

/-! ### The engine work of a partition goes (13 R356) -/

/-- Of partitions only lines of WORK change. -/
theorem dropEngineWork_part (s : State) (i k : Nat) : SameButWork (s.part k) ((dropEngineWork s i).part k) :=
  (dropLaunches_part s (fun l => l.part == i && !isStandTest l) k).trans
    (modPart_sameButWork (f := fun p => { p with work := [] }) (fun _ => rfl) (dropLaunches s _) i k)

theorem dropEngineWork_parts_length (s : State) (i : Nat) : (dropEngineWork s i).parts.length = s.parts.length := by
  simp [dropEngineWork, dropLaunches, freeWork]

/-! ### Pairs that restart (02 R30) -/

/-- What every pair keeps through a change of one pair that keeps it. -/
theorem keeps_modPair {α : Type} {g : Pair → α} {f : Pair → Pair} (hf : ∀ p, g (f p) = g p) (t : State) (i k : Nat) :
    g ((t.modPair i f).pair k) = g (t.pair k) := by
  by_cases h : i = k
  · subst h
    by_cases hi : i < t.pairs.length
    · rw [pair_modPair_self t hi, hf]
    · rw [State.modPair, List.set_eq_of_length_le (by omega)]
  · rw [pair_modPair_ne t h]

/-- A pair whose indices and expected number are 0 and that has no payloads. -/
def Restarted (p : Pair) : Prop := p.results = [] ∧ p.cplTail = 0 ∧ p.expSeq = 0

theorem restartPair_pair_self (t : State) (k : Nat) : Restarted ((restartPair t k).pair k) := by
  unfold restartPair
  by_cases hk : k < t.pairs.length
  · rw [pair_modPair_self t hk]
    exact ⟨rfl, rfl, rfl⟩
  · simp [State.pair, State.modPair, List.getD, hk, Pair.reset, Restarted]

theorem restartPair_pair_ne (t : State) (k j : Nat) (h : j ≠ k) : (restartPair t k).pair j = t.pair j := by
  unfold restartPair
  rw [pair_modPair_ne t h.symm]

theorem restartPair_pairs_length (t : State) (k : Nat) : (restartPair t k).pairs.length = t.pairs.length :=
  modPair_pairs_length t k _

/-- What binds a pair: that it is bound, and its region. -/
def pairBinding (p : Pair) : Bool × List Nat := (p.bound, p.segs)

/-- A pair that restarts stays bound to its region, and so does every other. -/
theorem restartPair_binding (t : State) (k j : Nat) : pairBinding ((restartPair t k).pair j) = pairBinding (t.pair j) :=
  keeps_modPair (f := fun p => { Pair.reset with
    bound := p.bound, part := p.part, geom := p.geom, segs := p.segs, tailErr := p.tailErr, headErr := p.headErr
    unboundWr := p.unboundWr, via := p.via }) (fun _ => rfl) t k j

section
variable (ks : List Nat) (s : State)

theorem restartPairs_eq : ∃ pairs, ks.foldl restartPair s = { s with pairs } := by
  refine List.foldlRecOn (motive := fun t : State => ∃ pairs, t = { s with pairs }) _ _ ⟨_, rfl⟩ fun t ⟨_, ht⟩ k _ => ?_
  rw [ht]
  exact ⟨_, rfl⟩

theorem restartPairs_binding (k : Nat) : pairBinding ((ks.foldl restartPair s).pair k) = pairBinding (s.pair k) :=
  List.foldlRecOn (motive := fun t : State => pairBinding (t.pair k) = pairBinding (s.pair k)) _ _ rfl
    fun t ht j _ => (restartPair_binding t j k).trans ht

variable {ks}

theorem restartPairs_mem {k : Nat} (h : k ∈ ks) : Restarted ((ks.foldl restartPair s).pair k) :=
  foldl_pair_mem (key := id) restartPair_pair_ne restartPair_pairs_length
    (fun t j hj _ => hj ▸ restartPair_pair_self t j) (by rwa [List.map_id]) rfl

end

/-! ### PARTITION_RECOVER (15 R425) -/

/-- The generation of the frames that a recovery leaves: a new one where there are frames (05 R145). -/
def recoveredGen (i : Nat) (s : State) : Nat := if (s.part i).frames.isEmpty then s.t1.gen else (s.t1.gen + 1) % 2 ^ 48

/-- The state in which a partition's commands and requests are gone. -/
def commandsGone (i : Nat) (s : State) : State :=
  { s with cmds := s.cmds.filter fun c => c.part != some i, ctxs := s.ctxs.filter fun c => c.part != i }

/-- The state in which a partition's work is gone, its segments read zero and its pairs have restarted. -/
def workCleared (i : Nat) (s : State) : State :=
  let w := dropEngineWork (commandsGone i s) i
  ((s.part i).pairs ++ [64 + i]).foldl restartPair
    { w with landing := Mem.zeroSegs w.landing (s.part i).segs, t1 := { w.t1 with gen := recoveredGen i s } }

/-- A partition with its binding and nothing else, before its digest is formed. -/
def boundAgain (i : Nat) (s : State) (q : Partition) : Partition :=
  { Partition.unbound with
    state := .bound, segs := q.segs, runs := q.runs, frames := q.frames.map fun f => (f.1, recoveredGen i s), pairs := q.pairs
    kvCompress := q.kvCompress, regs := q.regs, linkWeight := q.linkWeight, peers := q.peers, config := q.config
    generation := if (s.part i).frames.isEmpty then q.generation else recoveredGen i s, lastRebindUs := q.lastRebindUs }

theorem boundAgain_sameButWork {p q : Partition} (h : SameButWork p q) (i : Nat) (s : State) :
    boundAgain i s q = boundAgain i s p := by
  rw [h]
  rfl

section
variable (i : Nat) (s : State)

theorem workCleared_frame : ∃ pairs parts cut units searches calls fetched stands launches,
    workCleared i s = { s with
      pairs, parts, cut, units, searches, calls, fetched, stands, launches
      cmds := s.cmds.filter fun c => c.part != some i, ctxs := s.ctxs.filter fun c => c.part != i
      jobs := s.jobs.filter fun j => j.part != i, fills := s.fills.filter fun f => f.part != i
      landing := Mem.zeroSegs s.landing (s.part i).segs, t1 := { s.t1 with gen := recoveredGen i s } } := by
  unfold workCleared
  obtain ⟨_, _, units, searches, calls, fetched, stands, hwork⟩ := dropEngineWork_eq (commandsGone i s) i
  rw [hwork]
  obtain ⟨_, hpairs⟩ := restartPairs_eq ((s.part i).pairs ++ [64 + i]) _
  exact ⟨_, _, _, units, searches, calls, fetched, stands, _, hpairs⟩

theorem workCleared_parts : (workCleared i s).parts = (dropEngineWork (commandsGone i s) i).parts := by
  unfold workCleared
  obtain ⟨_, hpairs⟩ := restartPairs_eq ((s.part i).pairs ++ [64 + i]) _
  rw [hpairs]

theorem workCleared_part (k : Nat) : SameButWork (s.part k) ((workCleared i s).part k) := by
  rw [State.part, State.part, workCleared_parts]
  exact dropEngineWork_part _ i k

/-- A pair of the partition has restarted in the region that it had. -/
theorem workCleared_pair {k : Nat} (h : k ∈ (s.part i).pairs ++ [64 + i]) :
    pairBinding ((workCleared i s).pair k) = pairBinding (s.pair k) ∧ Restarted ((workCleared i s).pair k) := by
  refine ⟨(restartPairs_binding _ _ k).trans ?_, restartPairs_mem _ h⟩
  obtain ⟨_, _, _, _, _, _, _, hwork⟩ := dropEngineWork_eq (commandsGone i s) i
  rw [hwork]
  rfl

/-- With its work cleared the partition is bound again, and its digest is formed. -/
theorem recoverEffect_eq : recoverEffect i s = formDigest ((workCleared i s).modPart i (boundAgain i s)) i := rfl

theorem recoverEffect_frame : ∃ pairs parts cut units searches calls fetched stands launches,
    recoverEffect i s = { s with
      pairs, parts, cut, units, searches, calls, fetched, stands, launches
      cmds := s.cmds.filter fun c => c.part != some i, ctxs := s.ctxs.filter fun c => c.part != i
      jobs := s.jobs.filter fun j => j.part != i, fills := s.fills.filter fun f => f.part != i
      landing := Mem.zeroSegs s.landing (s.part i).segs, t1 := { s.t1 with gen := recoveredGen i s } } := by
  obtain ⟨_, _, _, _, _, _, _, _, _, hclear⟩ := workCleared_frame i s
  rw [recoverEffect_eq, hclear]
  exact ⟨_, _, _, _, _, _, _, _, _, rfl⟩

theorem recoverEffect_landing : (recoverEffect i s).landing = Mem.zeroSegs s.landing (s.part i).segs := by
  obtain ⟨_, _, _, _, _, _, _, _, _, hu⟩ := recoverEffect_frame i s
  rw [hu]

/-- Nothing of the partition's work is left. -/
theorem recoverEffect_work : (∀ c ∈ (recoverEffect i s).cmds, c.part ≠ some i) ∧
    (∀ c ∈ (recoverEffect i s).ctxs, c.part ≠ i) ∧ ∀ j ∈ (recoverEffect i s).jobs, j.part ≠ i := by
  obtain ⟨_, _, _, _, _, _, _, _, _, hu⟩ := recoverEffect_frame i s
  rw [hu]
  exact ⟨fun c hc => by simpa using (List.mem_filter.1 hc).2, fun c hc => by simpa using (List.mem_filter.1 hc).2,
    fun j hj => by simpa using (List.mem_filter.1 hj).2⟩

variable {i s}

theorem recoverEffect_part_ne {k : Nat} (h : k ≠ i) : SameButWork (s.part k) ((recoverEffect i s).part k) := by
  have hk : (recoverEffect i s).part k = (workCleared i s).part k := by
    rw [recoverEffect_eq, formDigest, part_modPart_ne _ h.symm, part_modPart_ne _ h.symm]
  rw [hk]
  exact workCleared_part i s k

theorem recoverEffect_part_self (h : i < s.parts.length) : (recoverEffect i s).part i =
    { boundAgain i s (s.part i) with digest := digestOfPart (boundAgain i s (s.part i)) } := by
  have hlen : i < (workCleared i s).parts.length := by
    rw [workCleared_parts, dropEngineWork_parts_length]
    exact h
  rw [recoverEffect_eq, formDigest_part_self (by rwa [modPart_parts_length]), part_modPart_self _ hlen,
    boundAgain_sameButWork (workCleared_part i s i)]

theorem recoverEffect_pair {k : Nat} (h : k ∈ (s.part i).pairs ++ [64 + i]) :
    pairBinding ((recoverEffect i s).pair k) = pairBinding (s.pair k) ∧ Restarted ((recoverEffect i s).pair k) := by
  rw [recoverEffect_eq, formDigest, modPart_pair, modPart_pair]
  exact workCleared_pair i s h

end

/-- Taking a command leaves every pair bound as it was. -/
theorem came_pair_binding (c : Code) (r : Req) (s : State) (k : Nat) :
    pairBinding ((came c r s).pair k) = pairBinding (s.pair k) :=
  keeps_modPair (f := fun p => { p with expSeq := p.expSeq + 1 }) (fun _ => rfl) s r.pair k

/-- The command in progress with a new ticket is the one that has come. -/
theorem own_came {r : Req} {s : State} (c : Code) (h : s.cmd? s.nextId = none) :
    ((came c r s).cmds.filter fun x => x.ticket == s.nextId) = [mkCmd c (commandPart s c r) r s.nextId] := by
  have hnone : (s.cmds.filter fun x => x.ticket == s.nextId) = [] :=
    List.filter_eq_nil_iff.2 fun x hx => List.find?_eq_none.1 h x hx
  simp [came, hnone, mkCmd]

/-- An accepted PARTITION_RECOVER of its pair's FAULTED partition has its effect, and completes in the restarted ring. -/
theorem exec_partitionRecover {r : Req} {s : State} (h : Accepted .partitionRecover r s) (hf : partitionForm r.pay = true)
    (hp : namedPart r.pay = pairPart s r) (hs : (reqPart s r).state = .faulted) :
    let u := recoverEffect (reqPid s r) (came .partitionRecover r s)
    exec (.partitionRecover r) s = .next
      (finishPlain { u with cmds := u.cmds ++ [mkCmd .partitionRecover (pairPart s r) r s.nextId] } s.nextId .ok 0) := by
  have hb := bound_of_accepted h
  have ⟨⟨⟨_, _, _, _, hnew⟩, _⟩, _⟩ := h
  refine (live_enter_accepted h cmdPartitionRecover).trans (congrArg _ ?_)
  simp only [cmdPartitionRecover, reqPid_counted hb, pairPart_counted hb, reqPart_counted hb]
  refine (runCmd_accepted h rfl (by simp [hf, hp]) (by simp [hs]) rfl rfl).trans ?_
  rw [own_came .partitionRecover hnew]
  rfl

/-- Settles O29. The partition is bound again and nothing else, and every list of work and every pair of it is cleared. -/
theorem partitionRecover : Obligations.PartitionRecover := by
  unfold Obligations.PartitionRecover
  intro r s h hf hp hs i p
  have hi : i < s.parts.length := part_lt_of_state (by rw [part_reqPid_of_bound (by simp [hs]), hs]; decide)
  have hself := recoverEffect_part_self (s := came .partitionRecover r s) hi
  refine ⟨recoverEffect i (came .partitionRecover r s), exec_partitionRecover h hf hp hs, ?_, ?_, ?_,
    fun k hk => recoverEffect_part_ne hk, ?_, ?_, ?_⟩
  · rw [hself]
    rfl
  · rw [hself]
    exact List.map_map
  · rw [hself]
    intro f hmem
    obtain ⟨g, hg, rfl⟩ := List.mem_map.1 hmem
    exact if_neg (by simp [List.ne_nil_of_mem hg])
  · rw [recoverEffect_landing]
    rfl
  · intro k hk
    obtain ⟨hbind, hres, htail, hseq⟩ := recoverEffect_pair (s := came .partitionRecover r s) hk
    have hkeep := hbind.trans (came_pair_binding .partitionRecover r s k)
    exact ⟨congrArg Prod.fst hkeep, congrArg Prod.snd hkeep, hres, htail, hseq⟩
  · obtain ⟨hcmds, hctxs, hjobs⟩ := recoverEffect_work i (came .partitionRecover r s)
    exact ⟨hctxs, hcmds, hjobs⟩

end Sys2Proof.Laws
end

section
/-! SUPPORT. LOOPBACK_SET and SELFTEST_RUN and the ends of their tests: what an accepted command starts or ends, and when the oldest
test of a partition is over. The section settles O38. -/

namespace Sys2Proof.Laws

open Sys2Proof Sys2Proof.Machine

/-! ### LOOPBACK_SET (15 R427) -/

/-- The tests whose every port is among some ports end now. -/
def loopbacksOff (ports : List Nat) (s : State) : State :=
  { s with parts := s.parts.map fun p => { p with loopbacks := p.loopbacks.map fun x =>
      if (x.2.1.all ports.contains) then (x.1, x.2.1, min x.2.2 s.now) else x } }

/-- What LOOPBACK_SET does once its checks pass, by its mode. -/
def loopbackEffect (i : Nat) (l : List Byte) (t : Nat) (s : State) : State :=
  let ports := maskPorts (fld l 0 2)
  if fld l 2 1 = 0 then
    finish (loopbacksOff ports s) t .ok 0 (some (loopResult ports (ports.map fun _ => (0, 0))))
  else s.modPart i fun p => { p with loopbacks := p.loopbacks ++ [(t, ports, s.now + 1000 * fld l 4 4)] }

section
variable {r : Req} {s : State}

theorem testState_counted (h : (s.pair r.pair).bound = true) : testState (counted r s) r = testState s r := by
  unfold testState
  rw [reqPart_counted h]

/-- A partition that may be tested is one of the machine's. -/
theorem part_lt_of_testState (h : testState s r = true) : reqPid s r < s.parts.length := by
  have hs : (reqPart s r).state ≠ .unbound := by
    intro hu
    simp [testState, hu] at h
  exact part_lt_of_state (by rwa [part_reqPid_of_bound hs])

theorem exec_loopbackSet (h : Accepted .loopbackSet r s) (hlen : 8 ≤ r.pay.length) (hmode : fld r.pay 2 1 ≤ 2)
    (hz : zeroAt r.pay 3 1 = true) (hmin : 1 ≤ fld r.pay 4 4) (hmax : fld r.pay 4 4 ≤ 10000000) (ht : testState s r = true)
    (hports : (maskPorts (fld r.pay 0 2)).all (portLoops s) = true) :
    exec (.loopbackSet r) s = .next (loopbackEffect (reqPid s r) r.pay s.nextId (came .loopbackSet r s)) := by
  have hb := bound_of_accepted h
  have hports' : (maskPorts (fld r.pay 0 2)).all (portLoops (counted r s)) = true := hports
  refine (live_enter_accepted h cmdLoopbackSet).trans (congrArg _ ?_)
  simp only [cmdLoopbackSet, reqPid_counted hb, pairPart_counted hb, testState_counted hb]
  exact runCmd_accepted h rfl (by simp [has, hlen, hmode, hz, hmin, hmax]) (by simp [ht, hports']) rfl rfl

end

/-! ### LOOPBACK_TEST_END (15 R427) -/

theorem exec_loopbackTestEnd {s : State} (h : s.power.railTripped = false) (k : Nat) (results : List (W64 × W64)) :
    exec (.loopbackTestEnd k results) s = .next (loopbackEnd k results s) := live_next h

/-- The oldest test completes once its time is over, with a result for each of its ports. -/
theorem loopbackEnd_of_over {s : State} {k t at_ : Nat} {ps : List Nat} {results : List (W64 × W64)}
    {rest : List (Nat × List Nat × Nat)} (hl : (s.part k).loopbacks = (t, ps, at_) :: rest) (hover : at_ ≤ s.now)
    (hlen : results.length = ps.length) : loopbackEnd k results s =
      finish (s.modPart k fun p => { p with loopbacks := p.loopbacks.filter fun y => y.1 != t }) t .ok 0
        (some (loopResult ps results)) := by
  simp [loopbackEnd, hl, hover, hlen]

/-! ### SELFTEST_RUN (15 R428; 17 X19) -/

/-- The state in which a self-test stands in a partition's line. -/
def selftestQueued (i t target : Nat) (s : State) : State :=
  s.modPart i fun p => { p with selftests := p.selftests ++ [(t, target)] }

section
variable {r : Req} {s : State}

/-- At the head of the line a test of stands asks for the current of each; another begins by itself. -/
theorem testStands_queued {i : Nat} (hi : i < s.parts.length) (hnone : (s.part i).selftests = []) (t target : Nat) :
    testStands (selftestQueued i t target s) i =
      if target = 0 then (testedStands s i).foldl (fun s k => standTest s k i) (selftestQueued i t target s)
      else selftestQueued i t target s := by
  have hl : ((selftestQueued i t target s).part i).selftests = [(t, target)] := by
    rw [selftestQueued, part_modPart_self s hi, hnone]
    rfl
  have hstands : testedStands (selftestQueued i t target s) i = testedStands s i := rfl
  unfold testStands
  rw [hl, hstands]
  cases target with
  | zero => rfl
  | succ n => rfl

/-- What SELFTEST_RUN does once its checks pass: the test stands in line, and begins where it is the first. -/
def selftestStarted (i t target : Nat) (s : State) : State :=
  if (s.part i).selftests.isEmpty then testStands (selftestQueued i t target s) i else selftestQueued i t target s

theorem selftestStarted_eq {i : Nat} (hi : i < s.parts.length) (t target : Nat) : selftestStarted i t target s =
    if target = 0 ∧ (s.part i).selftests = [] then
      (testedStands s i).foldl (fun s k => standTest s k i) (selftestQueued i t target s)
    else selftestQueued i t target s := by
  unfold selftestStarted
  by_cases hnone : (s.part i).selftests = []
  · simp only [hnone, List.isEmpty_nil, if_true, and_true]
    exact testStands_queued hi hnone t target
  · rw [if_neg fun hw => hnone (List.isEmpty_iff.1 hw), if_neg fun hw => hnone hw.2]

theorem exec_selftestRun (h : Accepted .selftestRun r s) (hlen : 8 ≤ r.pay.length) (htarget : fld r.pay 0 1 ≤ 3)
    (hz : zeroAt r.pay 1 7 = true) (ht : testState s r = true) (hs : fld r.pay 0 1 < 2 ∨ (reqPart s r).state = .bound) :
    exec (.selftestRun r) s = .next (selftestStarted (reqPid s r) s.nextId (fld r.pay 0 1) (came .selftestRun r s)) := by
  have hb := bound_of_accepted h
  refine (live_enter_accepted h cmdSelftestRun).trans (congrArg _ ?_)
  simp only [cmdSelftestRun, reqPid_counted hb, pairPart_counted hb, reqPart_counted hb, testState_counted hb]
  refine runCmd_accepted h rfl (by simp [has, hlen, htarget, hz]) ?_ rfl rfl
  rcases hs with hs | hs <;> simp [ht, hs]

end

/-! ### SELFTEST_RUN_END (15 R428; 17 X19) -/

theorem exec_selftestRunEnd {s : State} (h : s.power.railTripped = false) (k : Nat) (failed : List Nat) :
    exec (.selftestRunEnd k failed) s = .next (selftestEnd k failed s) := live_next h

section
variable {s : State} {k t target : Nat} {rest : List (Nat × Nat)} (hl : (s.part k).selftests = (t, target) :: rest)
include hl

/-- A test does not end before its launches have fired. -/
theorem selftestEnd_of_waiting (hf : testsFired s k = false) (failed : List Nat) : selftestEnd k failed s = s := by
  simp [selftestEnd, hl, hf]

/-- A test that ends has its effect, its command completes, and the next in line begins. -/
theorem selftestEnd_of_fired (hf : testsFired s k = true) (failed : List Nat) : ∃ mask first, selftestEnd k failed s =
    testStands (finish (selftestEffect
      ((if target = 0 then dropTests s (testedStands s k) else s).modPart k fun p => { p with selftests := rest })
      k target (selftestOwn s k target failed)) t .ok 0
        (some (selftestResult target (selftestOwn s k target failed).length mask first))) k := by
  simp only [selftestEnd, hl, hf, Bool.not_true, Bool.false_eq_true, if_false]
  exact ⟨_, _, rfl⟩

end

/-- Settles O38. Each command goes by its mode or target; a test ends once its time is over or its launches have fired. -/
theorem testCommands : Obligations.TestCommands := by
  unfold Obligations.TestCommands
  intro r s i l ports
  refine ⟨fun h hlen hmode hz hmin hmax ht hports => ?_, ?_, fun k i => rfl, ?_, ?_⟩
  · rw [exec_loopbackSet h hlen hmode hz hmin hmax ht hports]
    exact ⟨fun hm => congrArg _ (if_neg hm), fun hm => congrArg _ (if_pos hm)⟩
  · intro h hlen htarget hz ht hs s1
    have hi := part_lt_of_testState ht
    refine (exec_selftestRun h hlen htarget hz ht hs).trans (congrArg _ ?_)
    exact selftestStarted_eq (s := came .selftestRun r s) hi s.nextId (fld l 0 1)
  · intro k t ps at_ results rest hrail hl hover hlen
    rw [exec_loopbackTestEnd hrail, loopbackEnd_of_over hl hover hlen, ← hl]
    rfl
  · intro k t target failed rest hrail hl s0 s1 own
    rw [exec_selftestRunEnd hrail]
    refine ⟨fun hf => congrArg _ (selftestEnd_of_waiting hl hf failed), fun hf => ?_⟩
    obtain ⟨mask, first, hend⟩ := selftestEnd_of_fired hl hf failed
    exact ⟨mask, first, congrArg _ hend⟩

end Sys2Proof.Laws
end

section
/-! SUPPORT. The ends of self-tests: a unit or a stand that was under test, and a spare that was tested for a stand. The section
settles O44. -/

namespace Sys2Proof.Laws

open Sys2Proof Sys2Proof.Machine

theorem exec_unitSelftestDone {s : State} (h : s.power.railTripped = false) (u : TestUnit) (pass : Bool) :
    exec (.unitSelftestDone u pass) s = .next (postAll (unitTested u pass s)) := live_next h

theorem exec_spareSelftestDone {s : State} (h : s.power.railTripped = false) (pass : Bool) :
    exec (.spareSelftestDone pass) s = .next (postAll (spareTested pass s)) := live_next h

/-- A test that failed, or one of the third fault in 24 h or a later one, does not return the unit to service. -/
theorem not_passed {s : State} {pass : Bool} {l : List Nat} (h : pass = false ∨ 3 ≤ (recent s dayCounts l).length) :
    (pass && decide ((recent s dayCounts l).length < 3)) = false := by
  rcases h with h | h
  · simp [h]
  · simp [Nat.not_lt.2 h]

/-! ### Shared units (15 R414) -/

section
variable {s : State} {u : EngineUnit} {x : EngineSt} (hx : s.unit? u = some x)
include hx

theorem unitTested_engine_idle (h : x.status ≠ .testing) (pass : Bool) : unitTested (.engine u) pass s = s := by
  simp [unitTested, hx, h]

theorem unitTested_engine_passed (h : x.status = .testing) (hf : (recent s dayCounts x.faults).length < 3) :
    unitTested (.engine u) true s = feedUnits (s.modUnit u fun y => { y with status := .inService }) := by
  simp [unitTested, hx, h, hf]

theorem unitTested_engine_retired {pass : Bool} (h : x.status = .testing)
    (hf : pass = false ∨ 3 ≤ (recent s dayCounts x.faults).length) : unitTested (.engine u) pass s = retireUnit s u := by
  simp [unitTested, hx, h, not_passed hf]

end

/-! ### Stands (15 R414; 17 X19) -/

section
variable {s : State} {n k : Nat} {x : Stand} (hn : standAt s n = some k) (hx : s.stands[k]? = some x)
include hn hx

theorem unitTested_stand_idle (h : x.status ≠ .testing ∨ kindFired s (.standTest k) = false) (pass : Bool) :
    unitTested (.stand n) pass s = s := by
  rcases h with h | h <;> simp [unitTested, hn, hx, h]

theorem unitTested_stand_passed (h : x.status = .testing) (hk : kindFired s (.standTest k) = true)
    (hf : (recent s dayCounts x.faults).length < 3) : unitTested (.stand n) true s =
      { dropTests s [k] with stands := s.stands.set k { x with status := .active } } := by
  have hf' : (recent (dropTests s [k]) dayCounts x.faults).length < 3 := hf
  simp only [unitTested, hn, hx, h, hk, hf', bne_self_eq_false, Bool.not_true, Bool.or_self, Bool.false_eq_true, if_false,
    decide_true, Bool.and_self, if_true]
  exact modStand_some (s := dropTests s [k]) hx _

theorem unitTested_stand_retired {pass : Bool} (h : x.status = .testing) (hk : kindFired s (.standTest k) = true)
    (hf : pass = false ∨ 3 ≤ (recent s dayCounts x.faults).length) :
    unitTested (.stand n) pass s = retireStand (dropTests s [k]) k := by
  simp [unitTested, hn, hx, h, hk, not_passed (s := dropTests s [k]) hf]

end

/-! ### Spares (15 R415, R426) -/

/-- A spare whose test may end is under test for its stand, its launch has fired, and no re-bind holds the substitution back. -/
theorem of_spareReady {s : State} {j k : Nat} {x : Stand} (h : spareReady s = some (j, k)) (hx : s.stands[j]? = some x) :
    x.status = .sparetesting ∧ x.replaces = some k ∧ kindFired s (.standTest j) = true ∧
      rebindWaits s ((s.stands[k]?).bind (·.part)) = false := by
  obtain ⟨i, -, hi⟩ := List.exists_of_findSome?_eq_some h
  split at hi
  next y hy =>
    split at hi
    next m hm =>
      split at hi
      next hc =>
        cases hi
        cases hx.symm.trans hy
        simp only [Bool.and_eq_true, beq_iff_eq, Bool.not_eq_true'] at hc
        obtain ⟨⟨hstatus, hfired⟩, hfree⟩ := hc
        exact ⟨hstatus, hm, hfired, hfree⟩
      next => cases hi
    next => cases hi
  next => cases hi

theorem spareTested_of_none {s : State} (h : spareReady s = none) (pass : Bool) : spareTested pass s = s := by
  simp [spareTested, h]

section
variable {s : State} {j k : Nat} {old x : Stand} (h : spareReady s = some (j, k)) (hk : s.stands[k]? = some old)
  (hj : s.stands[j]? = some x)
include h hk hj

/-- A spare that passes takes the number and the partition of the stand, which is an event, and the module is degraded. -/
theorem spareTested_passed (hjk : j ≠ k) : spareTested true s = { dropTests s [j] with
    stands := (s.stands.set j { x with
      status := .active, logical := old.logical, part := old.part, task := none, replaces := none }).set k
      { old with logical := none, part := none }
    ident := { s.ident with events := s.ident.events ||| 1, degraded := true } } := by
  have hk' : (s.stands.set j { x with
      status := .active, logical := old.logical, part := old.part, task := none, replaces := none })[k]? = some old := by
    rw [List.getElem?_set_ne hjk, hk]
  simp only [spareTested, h, hk, if_true]
  rw [modStand_some (s := dropTests s [j]) hj, modStand_some hk']
  rfl

/-- A spare that fails is retired, and the next is tried. -/
theorem spareTested_failed : spareTested false s = trySpare { dropTests s [j] with
    stands := s.stands.set j { x with status := .retired, replaces := none }
    ctr := setKey s.ctr ⟨.unitRetired, 0, 0⟩ (lookupD s.ctr ⟨.unitRetired, 0, 0⟩ 0 + 1) } k := by
  simp only [spareTested, h, hk, Bool.false_eq_true, if_false]
  rw [modStand_some (s := dropTests s [j]) hj]
  rfl

end

/-- Settles O44. The test was that of a unit, a stand or a spare; each end goes by whether it was under test and whether it
passed. -/
theorem selfTests : Obligations.SelfTests := by
  unfold Obligations.SelfTests
  intro s pass hrail
  simp only [exec_unitSelftestDone hrail, exec_spareSelftestDone hrail]
  refine ⟨fun u x hx => ⟨fun h => ?_, fun h hp hf => ?_, fun h hf => ?_⟩,
    fun n k x hn hx => ⟨fun h => ?_, fun h hk hp hf => ?_, fun h hk hf => ?_⟩,
    fun j k old x h hk hj hjk => ⟨?_, ?_, ?_⟩, fun h => ?_⟩
  · rw [unitTested_engine_idle hx h]
  · rw [hp, unitTested_engine_passed hx h hf]
    rfl
  · rw [unitTested_engine_retired hx h hf]
  · rw [unitTested_stand_idle hn hx h]
  · rw [hp, unitTested_stand_passed hn hx h hk hf]
  · rw [unitTested_stand_retired hn hx h hk hf]
  · have hready := of_spareReady h hj
    rwa [hk] at hready
  · rw [spareTested_passed h hk hj hjk]
  · rw [spareTested_failed h hk hj]
  · rw [spareTested_of_none h]

end Sys2Proof.Laws
end

section
/-! SUPPORT. Power and heat: the rounds of the Cut arbiter, what a round finds for and against a request, the budget loop, and
what a thermal sample leaves. The section settles O46. -/

namespace Sys2Proof.Laws

open Sys2Proof Sys2Proof.Machine

/-! ### Rounds and boundaries (15 R402, R403, R405) -/

section
variable {s : State} (h : s.power.railTripped = false)
include h

theorem exec_cutMainRound : exec .cutMainRound s = .next (cutMain s) := live_next h

theorem exec_cutLateRound : exec .cutLateRound s = .next (cutLate s) := live_next h

theorem exec_epochBoundary : exec .epochBoundary s = .next (epochBoundary s) := live_next h

theorem exec_budgetUpdate (pavg peak : Nat) : exec (.budgetUpdate pavg peak) s = .next (budgetUpdate pavg peak s) := live_next h

theorem exec_thermalSample (temps : List Int) (mv ma cmv : Nat) :
    exec (.thermalSample temps mv ma cmv) s = .next (thermalSample temps mv ma cmv s) := live_next h

end

section
variable {s : State}

theorem cutMain_at_boundary (h : s.now % 256 = 0) :
    cutMain s = cutRound (s.now + 256) (fun r => decide (r.epoch ≤ s.now + 256)) (epochEnds s) := if_pos h

theorem cutMain_elsewhere (h : s.now % 256 ≠ 0) : cutMain s = s := if_neg h

theorem cutLate_at_half (h : s.now % 256 = 128) :
    cutLate s = cutRound (s.now + 128) (fun r => r.epoch == s.now + 128) (askAgain s) := if_pos h

theorem cutLate_elsewhere (h : s.now % 256 ≠ 128) : cutLate s = s := if_neg h

theorem epochBoundary_at_boundary (h : s.now % 256 = 0) : epochBoundary s = epochEnds s := if_pos h

theorem epochBoundary_elsewhere (h : s.now % 256 ≠ 0) : epochBoundary s = s := if_neg h

/-! ### One request of a round (15 R403, R404) -/

theorem refusal_passes {p : Prop} [Decidable p] {c : WaitCause} {o : Option WaitCause} :
    (if p then some c else o) = none ↔ ¬p ∧ o = none := by
  by_cases h : p <;> simp [h]

/-- A request that nothing stands against fits the budget or is alone, fits the cap of its partition, and passes no older request
that blocks; the module is not in CRIT. -/
theorem fits_of_refusal_none {r : CutRequest} {older : List CutRequest} (h : refusal s r older = none) :
    (heldAmps s + 128 + r.amps ≤ s.cut.b ∨ heldAmps s = 0 ∧ r.amps ≤ 1152) ∧ s.cut.therm ≠ .crit ∧
      (s.cut.caps.getD r.part 0 = 0 ∨ heldPart s r.part + r.amps ≤ s.cut.caps.getD r.part 0) ∧
      ∀ x ∈ older, x.refusals < 2 := by
  simp only [refusal, refusal_passes] at h
  obtain ⟨hbudget, hcap, htherm, horder, -⟩ := h
  refine ⟨?_, htherm, ?_, ?_⟩
  · simp only [Bool.not_eq_true, Bool.not_eq_false', Bool.or_eq_true, Bool.and_eq_true, decide_eq_true_eq, beq_iff_eq] at hbudget
    exact hbudget.imp_right fun ⟨⟨hheld, _⟩, hamps⟩ => ⟨hheld, hamps⟩
  · simp only [Bool.and_eq_true, bne_iff_ne, decide_eq_true_eq] at hcap
    omega
  · simpa [CutRequest.blocking] using horder

/-- A request that nothing stands against is granted, and its credits are counted. -/
theorem decideOne_grants {r : CutRequest} (e : Nat)
    (h : refusal s r ((agedRequests s).takeWhile fun x => x.launch != r.launch) = none) : ∃ ctr, decideOne e s r = { s with
      cut := { s.cut with requests := s.cut.requests.filter fun x => x.launch != r.launch }
      launches := s.launches.map fun l => if l.id = r.launch then { l with granted := some e } else l
      ctr := ctr } := by
  simp only [decideOne, h]
  exact ⟨_, (onlyCtr_bump _ .cutGrant r.part 0 r.amps).eq⟩

/-- A refused request names the next epoch, with the cause. -/
theorem decideOne_refuses {r : CutRequest} {c : WaitCause} (e : Nat)
    (h : refusal s r ((agedRequests s).takeWhile fun x => x.launch != r.launch) = some c) : decideOne e s r = { s with
      cut := { s.cut with requests := s.cut.requests.map fun x => if x.launch = r.launch
        then { x with epoch := e + 256, refusals := x.refusals + 1, cause := some c } else x } } := by
  simp only [decideOne, h]
  rfl

end

/-! ### The budget (15 R399, R410) -/

/-- B is the loop's term within its limits, and LIMIT names the term that decides it. -/
theorem budgetOf_eq (s : State) (pavg : Nat) :
    let b := max 256 (loopTerm s pavg).toNat
    budgetOf s pavg = (min b (min 1280 s.cut.bth),
      if b ≤ min 1280 s.cut.bth then (if 256 ≤ (loopTerm s pavg).toNat then 0 else 1) else if s.cut.bth < 1280 then 3 else 2) := by
  intro b
  change (if b ≤ min 1280 s.cut.bth then (b, if 256 ≤ (loopTerm s pavg).toNat then 0 else 1)
    else if s.cut.bth < 1280 then (s.cut.bth, 3) else (1280, 2)) = _
  by_cases hb : b ≤ min 1280 s.cut.bth
  · rw [if_pos hb, if_pos hb, Nat.min_eq_left hb]
  · rw [if_neg hb, if_neg hb, Nat.min_eq_right (Nat.le_of_not_le hb)]
    by_cases ht : s.cut.bth < 1280
    · rw [if_pos ht, if_pos ht, Nat.min_eq_right (Nat.le_of_lt ht)]
    · rw [if_neg ht, if_neg ht, Nat.min_eq_left (Nat.not_lt.1 ht)]

/-! ### Thermal states (15 R400) -/

/-- Tmax is the greatest of the first six readings. -/
theorem tmaxOf_eq {temps : List Int} {tmax : Int} (hmem : tmax ∈ temps.take 6) (hmax : ∀ x ∈ temps.take 6, x ≤ tmax) :
    tmaxOf temps = tmax := by
  have h : (temps.take 6).max? = some tmax := List.max?_eq_some_iff.2 ⟨hmem, hmax⟩
  cases temps with
  | nil => cases hmem
  | cons a rest => exact Option.some.inj (List.max?_cons'.symm.trans h)

theorem thermNext_hot {tmax : Int} (h : 1050 ≤ tmax) (t : ThermState) : thermNext t tmax = .crit := if_pos h

theorem thermNext_below {tmax : Int} (h : tmax < 1050) (t : ThermState) : thermNext t tmax = match t with
    | .normal => if 950 ≤ tmax then .warn else .normal
    | .warn => if tmax < 900 then .normal else .warn
    | .crit => if tmax < 1000 then .warn else .crit := if_neg (by omega)

theorem bthNext_in_warn {new : ThermState} (h : new ≠ .normal) (bth : Nat) : bthNext .warn new bth = max 256 (bth - 32) := by
  cases new with
  | normal => exact absurd rfl h
  | warn => rfl
  | crit => rfl

theorem bthNext_to_normal {old : ThermState} (h : old ≠ .crit) (bth : Nat) : bthNext old .normal bth = 1280 := by
  cases old with
  | normal => rfl
  | warn => rfl
  | crit => exact absurd rfl h

theorem thermalSample_of_other_length {temps : List Int} (h : temps.length ≠ 8) (mv ma cmv : Nat) (s : State) :
    thermalSample temps mv ma cmv s = s := if_pos h

/-- Eight temperatures give the thermal state and Bth, are kept with the other values, and turn the rail off at 110.0 degrees. -/
theorem thermalSample_of_eight {temps : List Int} (h : temps.length = 8) (mv ma cmv : Nat) (s : State) : ∃ ctr,
    thermalSample temps mv ma cmv s = { s with
      cut := { s.cut with
        therm := thermNext s.cut.therm (tmaxOf temps)
        bth := bthNext s.cut.therm (thermNext s.cut.therm (tmaxOf temps)) s.cut.bth
        tmax := tmaxOf temps, temps, milliVolts := mv, milliAmps := ma, coreMilliVolts := cmv }
      power := { s.power with railTripped := s.power.railTripped || decide (1100 ≤ tmaxOf temps) }
      ctr := ctr } := by
  unfold thermalSample
  rw [if_neg fun hne => hne h]
  cases s.cut.therm with
  | normal => exact ⟨_, rfl⟩
  | warn => exact ⟨_, rfl⟩
  | crit => exact ⟨_, rfl⟩

/-- Settles O46. The rounds go by the count, a request by what stands against it; the budget is the loop's term within its limits,
and a sample goes by the thermal state and Tmax. -/
theorem powerAndHeat : Obligations.PowerAndHeat := by
  unfold Obligations.PowerAndHeat
  refine ⟨fun s hrail => ?_, fun s hrail => ?_⟩
  · rw [exec_cutMainRound hrail, exec_cutLateRound hrail, exec_epochBoundary hrail]
    refine ⟨fun hc => ?_, fun hc => ?_, fun hc => ?_, fun hc => ?_, ?_⟩
    · rw [cutMain_elsewhere hc, epochBoundary_elsewhere hc]
      exact ⟨rfl, rfl⟩
    · rw [cutLate_elsewhere hc]
    · rw [cutMain_at_boundary hc, epochBoundary_at_boundary hc]
      exact ⟨rfl, rfl⟩
    · rw [cutLate_at_half hc]
    · intro e r older
      refine ⟨fun hnone => ?_, fun c hsome => decideOne_refuses e hsome⟩
      obtain ⟨hbudget, htherm, hcap, horder⟩ := fits_of_refusal_none hnone
      exact ⟨hbudget, htherm, hcap, horder, decideOne_grants e hnone⟩
  · refine ⟨?_, fun c => ⟨rfl, rfl⟩, fun temps mv ma cmv hlen => ?_, ?_⟩
    · intro pavg peak loop b
      refine ⟨_, ?_, rfl⟩
      rw [exec_budgetUpdate hrail, budgetUpdate, budgetOf_eq]
      rfl
    · rw [exec_thermalSample hrail, thermalSample_of_other_length hlen]
    · intro temps mv ma cmv tmax hlen hmem hmax
      obtain ⟨ctr, ht⟩ := thermalSample_of_eight hlen mv ma cmv s
      rw [tmaxOf_eq hmem hmax, hrail, Bool.false_or] at ht
      refine ⟨_, exec_thermalSample hrail temps mv ma cmv, ?_⟩
      rw [ht]
      refine ⟨rfl, fun hhot => thermNext_hot hhot _, fun hcool => (thermNext_below hcool _).trans rfl, beq_iff_eq,
        fun hwarn hn => ?_, fun hcrit hn => ?_⟩
      · show bthNext s.cut.therm _ s.cut.bth = _
        rw [hwarn]
        exact bthNext_in_warn (hwarn ▸ hn) s.cut.bth
      · show bthNext s.cut.therm (thermNext s.cut.therm tmax) s.cut.bth = _
        rw [show thermNext s.cut.therm tmax = .normal from hn]
        exact bthNext_to_normal hcrit s.cut.bth

end Sys2Proof.Laws
end

section
/-! SUPPORT. What every step carries along: the queue and the fuses. One frame rule for each operation of the model that makes a
state, in the order of its files; the few that blow a fuse are in the sections after this one. Each rule is two equations, which
`simp` uses as such, so that the rules of what an operation calls give its own once its branches are told apart. -/

namespace Sys2Proof.Laws

open Sys2Proof Sys2Proof.Machine

/-! ### Two fields that stay -/

/-- The queue and the fuses of `t` are those of `s`. -/
@[simp] abbrev Keeps (s t : State) : Prop := t.pending = s.pending ∧ t.fuses = s.fuses

theorem Keeps.trans {s t u : State} (h : Keeps s t) (h' : Keeps t u) : Keeps s u := ⟨h'.1.trans h.1, h'.2.trans h.2⟩

/-- What an operation makes, under a name of its own: its branches are told apart in the name's equation. -/
theorem keeps_of_result {s t : State} (h : ∀ u, t = u → Keeps s u) : Keeps s t := h t rfl

@[simp] theorem pending_ite {c : Prop} [Decidable c] (s t : State) :
    (if c then s else t).pending = if c then s.pending else t.pending := apply_ite State.pending c s t

@[simp] theorem fuses_ite {c : Prop} [Decidable c] (s t : State) :
    (if c then s else t).fuses = if c then s.fuses else t.fuses := apply_ite State.fuses c s t

/-- A fold whose step keeps them, with the state in any place of what is folded. -/
theorem foldl_keeps_of {α β : Type} (g : β → State) {f : β → α → β} (h : ∀ b a, Keeps (g b) (g (f b a))) (l : List α) (b : β) :
    Keeps (g b) (g (l.foldl f b)) := by
  induction l generalizing b with
  | nil => exact ⟨rfl, rfl⟩
  | cons a l ih => exact (h b a).trans (ih _)

@[simp] theorem foldl_keeps {α : Type} {f : State → α → State} (h : ∀ s a, Keeps s (f s a)) (l : List α) (s : State) :
    Keeps s (l.foldl f s) := foldl_keeps_of id h l s

@[simp] theorem foldl_fst_keeps {α β : Type} {f : State × β → α → State × β} (h : ∀ x a, Keeps x.1 (f x a).1) (l : List α)
    (x : State × β) : Keeps x.1 (l.foldl f x).1 := foldl_keeps_of Prod.fst h l x

@[simp] theorem foldl_snd_keeps {α β : Type} {f : β × State → α → β × State} (h : ∀ x a, Keeps x.2 (f x a).2) (l : List α)
    (x : β × State) : Keeps x.2 (l.foldl f x).2 := foldl_keeps_of Prod.snd h l x

/-! ### Machine/Egress -/

@[simp] theorem enqueueAt_keeps (s : State) (i q : Nat) (f : Frame) : Keeps s (enqueueAt s i q f) := by simp [enqueueAt]

@[simp] theorem routeFrame_keeps (s : State) (q : Nat) (f : Frame) : Keeps s (routeFrame s q f) := by
  unfold routeFrame
  split <;> simp

@[simp] theorem reroutePort_keeps (s : State) (i : Nat) : Keeps s (reroutePort s i) := by simp [reroutePort]

@[simp] theorem portDown_keeps (s : State) (i : Nat) : Keeps s (portDown s i) := by
  unfold portDown
  extract_lets frames s1 s2
  refine Keeps.trans (t := s2) ⟨rfl, rfl⟩ (Keeps.trans (foldl_keeps (fun s e => ?_) frames s2) (reroutePort_keeps _ i))
  split <;> simp

@[simp] theorem queueVectors_keeps (s : State) : Keeps s (queueVectors s) := ⟨rfl, rfl⟩

@[simp] theorem routesChanged_keeps (old s : State) : Keeps s (routesChanged old s) := by simp [routesChanged]

@[simp] theorem sendFrame_keeps (s : State) (q : Nat) (f : Frame) : Keeps s (sendFrame s q f) := by simp [sendFrame]

@[simp] theorem sendMessage_keeps (s : State) (dest : W16) (dstPart srcPart : Byte) (kind sub : Nat) (tag : W16)
    (data : List Byte) : Keeps s (sendMessage s dest dstPart srcPart kind sub tag data) := by simp [sendMessage]

/-! ### Machine/Ops -/

@[simp] theorem modReg_keeps (s : State) (i : Nat) (k : Flowing) (f : Regulator → Regulator) :
    Keeps s (State.modReg s i k f) := by
  unfold State.modReg
  split <;> simp

@[simp] theorem charge_keeps (s : State) (i : Nat) (k : Flowing) (n : Nat) : Keeps s (charge s i k n) := by simp [charge]

@[simp] theorem regulated_keeps {f : State → State} (hf : ∀ s, Keeps s (f s)) (i : Nat) (k : Flowing) (s : State) :
    Keeps s (regulated i k f s) := by
  simp [regulated, hf]

@[simp] theorem bumpFree_keeps (s : State) (name : Ctr) (part idx : Nat) :
    Keeps s (bumpFree s name part idx) := by simp [bumpFree]

@[simp] theorem chargeFree_keeps (s : State) (i : Nat) (k : Flowing) : Keeps s (chargeFree s i k) := by simp [chargeFree]

@[simp] theorem raiseMsix_keeps (s : State) (fn vector : Nat) : Keeps s (raiseMsix s fn vector) := by simp [raiseMsix]

@[simp] theorem bridgeIrq_keeps (s : State) (module pair vector : Nat) : Keeps s (bridgeIrq s module pair vector) := by
  unfold bridgeIrq
  split <;> simp

@[simp] theorem signal_keeps (s : State) (i : Nat) : Keeps s (signal s i) := by
  simp only [signal]
  (repeat' split) <;> simp

@[simp] theorem freeCtx_keeps (s : State) (id t : Nat) : Keeps s (freeCtx s id t) := by
  unfold freeCtx
  split <;> simp

@[simp] theorem closeResult_keeps (s : State) (i : Nat) (r : Record) : Keeps s (closeResult s i r) := by
  unfold closeResult
  split <;> simp

@[simp] theorem writeRecord_keeps (s : State) (i : Nat) (r : Record) : Keeps s (writeRecord s i r) := by
  simp only [writeRecord]
  (repeat' split) <;> simp

@[simp] theorem post_keeps (s : State) (i : Nat) (r : Record) : Keeps s (post s i r) := by simp [post]

@[simp] theorem drainRecords_keeps (i : Nat) (n : Nat) (s : State) : Keeps s (drainRecords i n s) := by
  induction n generalizing s with
  | zero => exact ⟨rfl, rfl⟩
  | succ n ih =>
    unfold drainRecords
    dsimp only
    split
    · simp
    · simp [ih]

theorem allocResult_keeps {s t : State} {i len off : Nat} {final : Bool} {h : W32}
    (ha : allocResult s i len final = some (h, off, t)) : Keeps s t := by
  simp only [allocResult] at ha
  split at ha
  · cases ha
  · cases ha
    exact ⟨rfl, rfl⟩

@[simp] theorem writeResultAs_keeps (s : State) (k : Flowing) (i off : Nat) (bs : List Byte) :
    Keeps s (writeResultAs s k i off bs) := by
  simp only [writeResultAs]
  split <;> simp

@[simp] theorem writeResult_keeps (s : State) (i off : Nat) (bs : List Byte) :
    Keeps s (writeResult s i off bs) := by simp [writeResult]

@[simp] theorem countGlobal_keeps (s : State) (c : Code) (part : Option Nat) (st : Status) :
    Keeps s (State.countGlobal s c part st) := by simp [State.countGlobal]

@[simp] theorem endCmd_keeps (s : State) (c : Cmd) (st : Status) : Keeps s (State.endCmd s c st) := by simp [State.endCmd]

@[simp] theorem replied_keeps (s : State) (c : Cmd) (bs : List Byte) : Keeps s (State.replied s c bs) := by
  unfold State.replied
  split <;> simp

@[simp] theorem finish_keeps (s : State) (t : Nat) (st : Status) (detail : W32) (res : Option (List Byte)) :
    Keeps s (finish s t st detail res) := by
  simp only [finish]
  split
  · simp
  · split
    · simp
    · split
      · simp
      · split
        · simp
        · split
          next halloc => simp [allocResult_keeps halloc]
          next => simp

@[simp] theorem finishPlain_keeps (s : State) (t : Nat) (st : Status) (detail : Nat) :
    Keeps s (finishPlain s t st detail) := by simp [finishPlain]

@[simp] theorem runCmd_keeps {eff : Nat → State → State} (he : ∀ t s, Keeps s (eff t s)) (c : Code) (part : Option Nat)
    (need : Need) (r : Req) (t : Nat) (s : State) : Keeps s (runCmd c part need eff r t s) := by
  simp only [runCmd]
  split
  · exact he t s
  · split
    · simp
    · split
      · simp
      · exact he t _

@[simp] theorem enter_keeps {c : Code} {start : Req → Nat → State → State} (hs : ∀ r t s, Keeps s (start r t s)) (r : Req) (s : State) :
    Keeps s (enter c start r s) := by
  simp [enter, hs]

/-! ### Machine/Work -/

@[simp] theorem formDigest_keeps (s : State) (i : Nat) : Keeps s (formDigest s i) := ⟨rfl, rfl⟩

@[simp] theorem freeWork_keeps (s : State) (owners : List Nat) : Keeps s (freeWork s owners) := ⟨rfl, rfl⟩

@[simp] theorem dropLaunches_keeps (s : State) (gone : Launch → Bool) : Keeps s (dropLaunches s gone) := ⟨rfl, rfl⟩

@[simp] theorem dropTurns_keeps (s : State) (gone : List Nat) : Keeps s (dropTurns s gone) := ⟨rfl, rfl⟩

@[simp] theorem unride_keeps (s : State) (gone : List Nat) : Keeps s (unride s gone) := ⟨rfl, rfl⟩

@[simp] theorem dropJobs_keeps (s : State) (gone : List Nat) : Keeps s (dropJobs s gone) := by simp [dropJobs]

@[simp] theorem dropCtxWork_keeps (s : State) (id : Nat) : Keeps s (dropCtxWork s id) := by simp [dropCtxWork]

@[simp] theorem releaseText_keeps (s : State) (c : Ctx) (p : PlanerSt) : Keeps s (releaseText s c p) := by
  unfold releaseText
  split <;> simp

@[simp] theorem flushText_keeps (s : State) (c : Ctx) : Keeps s (flushText s c) := by simp [flushText]

@[simp] theorem endRequest_keeps (s : State) (id : Nat) (st : Status) (reason : Reason) :
    Keeps s (endRequest s id st reason) := by
  unfold endRequest
  split
  · simp
  · split
    · simp
    · dsimp only
      refine Keeps.trans ?_ (foldl_keeps (fun s t => finishPlain_keeps s t _ _) _ _)
      split <;> simp <;> split <;> simp

@[simp] theorem replayRequest_keeps (s : State) (id : Nat) : Keeps s (replayRequest s id) := by
  unfold replayRequest
  split <;> simp

@[simp] theorem dropEngineWork_keeps (s : State) (i : Nat) : Keeps s (dropEngineWork s i) := by simp [dropEngineWork]

@[simp] theorem unfence_keeps (s : State) (i : Nat) : Keeps s (unfence s i) := by simp [unfence]

@[simp] theorem faultCommands_keeps (s : State) (i : Nat) : Keeps s (faultCommands s i) := by simp [faultCommands]

@[simp] theorem freshPair_keeps (part : Nat) (e : Nat × Geometry × List Nat) (s : State) :
    Keeps s (freshPair part e s) := ⟨rfl, rfl⟩

@[simp] theorem releasePair_keeps (i : Nat) (s : State) : Keeps s (releasePair i s) := ⟨rfl, rfl⟩

@[simp] theorem rebindEnds_keeps (s : State) (i : Nat) : Keeps s (rebindEnds s i) := by
  unfold rebindEnds
  split <;> simp

@[simp] theorem enterFaulted_keeps (s : State) (i : Nat) : Keeps s (enterFaulted s i) := by simp [enterFaulted]

@[simp] theorem protection_keeps (s : State) (i : Nat) : Keeps s (protection s i) := by simp [protection]

/-! ### Machine/Peers -/

@[simp] theorem sendPeer_keeps (s : State) (part : Nat) (target : W16) (c : Code) (tag : Nat) (pay : List Byte) :
    Keeps s (sendPeer s part target c tag pay) := by simp [sendPeer]

@[simp] theorem placeCall_keeps (s : State) (part : Nat) (target : W16) (replica : Nat) (onReplica : Bool)
    (forWhat : CallFor) (c : Code) (pay : List Byte) :
    Keeps s (placeCall s part target replica onReplica forWhat c pay) := by simp [placeCall]

@[simp] theorem resendCall_keeps (s : State) (c : Call) (target : W16) : Keeps s (resendCall s c target) := by simp [resendCall]

@[simp] theorem issueReads_keeps (fuel : Nat) (s : State) : Keeps s (issueReads fuel s) := by
  induction fuel generalizing s with
  | zero => exact ⟨rfl, rfl⟩
  | succ n ih =>
    unfold issueReads
    split
    · exact ih _
    · exact ⟨rfl, rfl⟩

@[simp] theorem bridgeWrite_keeps (s : State) (fn addr : Nat) (bs : List Byte) :
    Keeps s (bridgeWrite s fn addr bs) := ⟨rfl, rfl⟩

@[simp] theorem bridgeRead_keeps (s : State) (module : W16) (pair addr len : Nat) (frameTag : W16) (fill : Option Nat) :
    Keeps s (bridgeRead s module pair addr len frameTag fill).1 := by
  unfold bridgeRead
  (repeat' split) <;> simp

@[simp] theorem hostFetch_keeps (s : State) (part : Nat) (fill : Nat) (addr : Nat) (len : Nat) :
    Keeps s (hostFetch s part fill addr len).1 := by
  unfold hostFetch
  split
  · simp
  · exact foldl_fst_keeps (fun x c => by simp) _ (s, true)
  · simp

@[simp] theorem hostStore_keeps (s : State) (part addr : Nat) (bs : List Byte) : Keeps s (hostStore s part addr bs).1 := by
  unfold hostStore
  (repeat' split) <;> simp

@[simp] theorem startFill_keeps (s : State) (part space peer addr len : Nat) (forWhat : FillFor) :
    Keeps s (startFill s part space peer addr len forWhat).1 := by
  simp only [startFill]
  (repeat' split) <;> simp

/-! ### Machine/Skidder -/

@[simp] theorem viewStore_keeps (s : State) (i : Nat) (k : Flowing) (a : Nat) (bs : List Byte) :
    Keeps s (State.viewStore s i k a bs) := by simp [State.viewStore]

@[simp] theorem applyRuns_keeps (s : State) (i space : Nat) (ws : List (Nat × List Byte × Nat)) :
    Keeps s (applyRuns s i space ws) := by simp [applyRuns]

@[simp] theorem chipStore_keeps (s : State) (i : Nat) (d : Desc) (ws : List (Nat × List Byte × Nat)) :
    Keeps s (chipStore s i d ws) :=
  foldl_fst_keeps (fun x b => by simp) _ (s, 0)

theorem runDesc_keeps {s t : State} {i : Nat} {d : Desc} {src : Nat → Nat → Option (List Byte)}
    (h : runDesc s i d src = some t) : Keeps s t := by
  simp only [runDesc] at h
  split at h
  · cases h
  · cases h
    simp

@[simp] theorem runFailed_keeps (s : State) (i : Nat) (d : Desc) (raw : Nat → Nat → List Byte) :
    Keeps s (runFailed s i d raw) := by
  unfold runFailed
  split
  · exact ⟨rfl, rfl⟩
  · exact applyRuns_keeps ..

/-! ### Machine/Tables -/

@[simp] theorem areaStore_keeps (s : State) (i : Nat) (area : Nat) (off : Nat) (bs : List Byte) :
    Keeps s (areaStore s i area off bs) :=
  foldl_keeps (fun s c => by split <;> simp) _ s

@[simp] theorem areaPut_keeps (s : State) (i : Nat) (k : Flowing) (area off : Nat) (bs : List Byte) :
    Keeps s (areaPut s i k area off bs) := by simp [areaPut]

@[simp] theorem fetchOwn_keeps (s : State) (i : Nat) (t : Table) (x : Nat × Nat × Nat) : Keeps s (fetchOwn s i t x) := by
  simp only [fetchOwn]
  split <;> simp

@[simp] theorem refreshCopy_keeps (s : State) (i : Nat) (t : Table) (k row : Nat) : Keeps s (refreshCopy s i t k row) := by
  simp only [refreshCopy]
  split <;> simp

/-! ### Machine/Engines -/

@[simp] theorem takeWork_keeps (s : State) (i owner n : Nat) : Keeps s (takeWork s i owner n) := by
  unfold takeWork
  (repeat' split) <;> simp

@[simp] theorem postOwn_keeps (s : State) (l : Launch) : Keeps s (postOwn s l) := ⟨rfl, rfl⟩

@[simp] theorem assignUnit_keeps (s : State) (u : EngineUnit) (j : Job) : Keeps s (assignUnit s u j) := by simp [assignUnit]

@[simp] theorem giveUnit_keeps (s : State) (u : EngineUnit) (j : Job) : Keeps s (giveUnit s u j) := by simp [giveUnit]

@[simp] theorem feedUnit_keeps (s : State) (u : EngineUnit) : Keeps s (feedUnit s u) := by
  unfold feedUnit
  (repeat' split) <;> simp

@[simp] theorem feedUnits_keeps (s : State) : Keeps s (feedUnits s) := by simp [feedUnits]

@[simp] theorem takeRiders_keeps (s : State) (i : Nat) : Keeps s (takeRiders s i).1 :=
  foldl_fst_keeps (fun x j => by split <;> simp) _ (s, [])

@[simp] theorem addJob_keeps (s : State) (part ticket : Nat) (ctx : Option Nat) (kind : JobKind) :
    Keeps s (addJob s part ticket ctx kind) := ⟨rfl, rfl⟩

@[simp] theorem queueJob_keeps (s : State) (part ticket : Nat) (ctx : Option Nat) (kind : JobKind) :
    Keeps s (queueJob s part ticket ctx kind) := by simp [queueJob]

@[simp] theorem freeUnit_keeps (s : State) (u : EngineUnit) : Keeps s (freeUnit s u) := by simp [freeUnit]

/-! ### Machine/Partitions -/

@[simp] theorem bindStands_keeps (s : State) (part : Nat) (ns : List Nat) : Keeps s (bindStands s part ns) := ⟨rfl, rfl⟩

@[simp] theorem unbindStands_keeps (s : State) (ns : List Nat) : Keeps s (unbindStands s ns) := ⟨rfl, rfl⟩

@[simp] theorem releaseSegs_keeps (s : State) (gs : List Nat) : Keeps s (releaseSegs s gs) := ⟨rfl, rfl⟩

@[simp] theorem bindEffect_keeps (l : List Byte) (s : State) : Keeps s (bindEffect l s) := ⟨rfl, rfl⟩

@[simp] theorem bindPairs_keeps (l : List Byte) (s : State) : Keeps s (bindPairs l s) := by simp [bindPairs]

@[simp] theorem bindDone_keeps (s : State) (t : Nat) (l : List Byte) : Keeps s (bindDone s t l) := by simp [bindDone]

@[simp] theorem cmdPartitionBind_keeps (r : Req) (t : Nat) (s : State) :
    Keeps s (cmdPartitionBind r t s) := by simp [cmdPartitionBind]

@[simp] theorem unbindEffect_keeps (i t : Nat) (s : State) : Keeps s (unbindEffect i t s) := by simp [unbindEffect]

@[simp] theorem cmdPartitionUnbind_keeps (r : Req) (t : Nat) (s : State) :
    Keeps s (cmdPartitionUnbind r t s) := by simp [cmdPartitionUnbind]

@[simp] theorem copySegment_keeps (s : State) (i g : Nat) : Keeps s (copySegment s i g) := by
  simp only [copySegment]
  split <;> simp

@[simp] theorem copyRetired_keeps (i : Nat) (s : State) : Keeps s (copyRetired i s) := by simp [copyRetired]

@[simp] theorem rebindSwitch_keeps (i : Nat) (rb : Rebind) (s : State) : Keeps s (rebindSwitch i rb s) := by simp [rebindSwitch]

@[simp] theorem rebindDone_keeps (i : Nat) (s : State) : Keeps s (rebindDone i s) := by simp [rebindDone]

@[simp] theorem rebindGo_keeps (i : Nat) (s : State) : Keeps s (rebindGo i s) := by
  unfold rebindGo
  split <;> simp

@[simp] theorem rebindEffect_keeps (i : Nat) (s : State) : Keeps s (rebindEffect i s) := by simp [rebindEffect]

@[simp] theorem rebindAt_keeps (i n : Nat) (s : State) : Keeps s (rebindAt i n s) := by
  unfold rebindAt
  split <;> simp

@[simp] theorem rebindStart_keeps (t : Nat) (pay : List Byte) (s : State) :
    Keeps s (rebindStart t pay s) := by simp [rebindStart]

@[simp] theorem cmdPartitionRebind_keeps (r : Req) (t : Nat) (s : State) :
    Keeps s (cmdPartitionRebind r t s) := by simp [cmdPartitionRebind]

@[simp] theorem segmentZeroed_keeps (segment : Nat) (s : State) : Keeps s (segmentZeroed segment s) := by simp [segmentZeroed]

@[simp] theorem cmdPartitionStatus_keeps (r : Req) (t : Nat) (s : State) :
    Keeps s (cmdPartitionStatus r t s) := by simp [cmdPartitionStatus]

@[simp] theorem cmdDigestRead_keeps (r : Req) (t : Nat) (s : State) : Keeps s (cmdDigestRead r t s) := by simp [cmdDigestRead]

/-! ### Machine/Records -/

@[simp] theorem flashWrite_keeps (s : State) (a : Nat) (bs : List Byte) : Keeps s (flashWrite s a bs) := ⟨rfl, rfl⟩

@[simp] theorem flashErase_keeps (s : State) (a n : Nat) : Keeps s (flashErase s a n) := ⟨rfl, rfl⟩

@[simp] theorem setFailCount_keeps (s : State) (b : Bool) (n : Nat) : Keeps s (setFailCount s b n) := ⟨rfl, rfl⟩

@[simp] theorem writeLeaf_keeps (s : State) (q seq : Nat) : Keeps s (writeLeaf s q seq) := ⟨rfl, rfl⟩

@[simp] theorem storeRecord_keeps (s : State) (l : List Byte) : Keeps s (storeRecord s l) := ⟨rfl, rfl⟩

/-! ### Machine/Management -/

@[simp] theorem cmdModuleQuery_keeps (r : Req) (t : Nat) (s : State) :
    Keeps s (cmdModuleQuery r t s) := by simp [cmdModuleQuery]

@[simp] theorem cmdHealthRead_keeps (r : Req) (t : Nat) (s : State) : Keeps s (cmdHealthRead r t s) := by simp [cmdHealthRead]

@[simp] theorem powerSetEffect_keeps (l : List Byte) (s : State) : Keeps s (powerSetEffect l s) := ⟨rfl, rfl⟩

@[simp] theorem cmdPowerSet_keeps (r : Req) (t : Nat) (s : State) : Keeps s (cmdPowerSet r t s) := by simp [cmdPowerSet]

@[simp] theorem bridgeMapEffect_keeps (l : List Byte) (s : State) : Keeps s (bridgeMapEffect l s) := ⟨rfl, rfl⟩

@[simp] theorem cmdBridgeMap_keeps (r : Req) (t : Nat) (s : State) : Keeps s (cmdBridgeMap r t s) := by simp [cmdBridgeMap]

/-! ### Machine/Security -/

@[simp] theorem useLeaf_keeps (s : State) : Keeps s (useLeaf s) := ⟨rfl, rfl⟩

@[simp] theorem attestSpdm_keeps (pair : Nat) (l : List Byte) (t : Nat) (s : State) :
    Keeps s (attestSpdm pair l t s) := by simp [attestSpdm]

@[simp] theorem attestEffect_keeps (pair : Nat) (l : List Byte) (t : Nat) (s : State) : Keeps s (attestEffect pair l t s) := by
  unfold attestEffect
  split <;> simp

@[simp] theorem cmdAttestGet_keeps (r : Req) (t : Nat) (s : State) : Keeps s (cmdAttestGet r t s) := by simp [cmdAttestGet]

@[simp] theorem transitionRecords_keeps (s : State) (target : Nat) (tk : List Byte) :
    Keeps s (transitionRecords s target tk) := by simp [transitionRecords]

@[simp] theorem exportEffect_keeps (l : List Byte) (t : Nat) (s : State) : Keeps s (exportEffect l t s) := by
  unfold exportEffect
  split <;> simp

@[simp] theorem cmdConfigExport_keeps (r : Req) (t : Nat) (s : State) :
    Keeps s (cmdConfigExport r t s) := by simp [cmdConfigExport]

@[simp] theorem importEffect_keeps (l : List Byte) (t : Nat) (s : State) :
    Keeps s (importEffect l t s) := by simp [importEffect]

@[simp] theorem cmdConfigImport_keeps (r : Req) (t : Nat) (s : State) :
    Keeps s (cmdConfigImport r t s) := by simp [cmdConfigImport]

/-! ### Machine/Boot -/

@[simp] theorem resetTo_keeps (s : State) (c : ResetCause) : Keeps s (resetTo s c) := ⟨rfl, rfl⟩

@[simp] theorem tearFlash_keeps (s : State) : Keeps s (tearFlash s) := by
  unfold tearFlash
  split <;> simp

@[simp] theorem powerLoss_keeps (s : State) : Keeps s (powerLoss s) := by simp [powerLoss]

@[simp] theorem powerOn_keeps (straps : BitVec 3) (s : State) : Keeps s (powerOn straps s) := by simp [powerOn]

@[simp] theorem resetInput_keeps (lowNs : Nat) (s : State) : Keeps s (resetInput lowNs s) := by simp [resetInput]

@[simp] theorem innerReset_keeps (c : ResetCause) (s : State) : Keeps s (innerReset c s) := ⟨rfl, rfl⟩

@[simp] theorem deriveKeys_keeps (s : State) : Keeps s (deriveKeys s) := by
  simp only [deriveKeys]
  (repeat' split) <;> simp

@[simp] theorem formMeasurements_keeps (img : Bool) (ca cb : Nat) (s : State) :
    Keeps s (formMeasurements img ca cb s) := ⟨rfl, rfl⟩

@[simp] theorem firmwareStart_keeps (s : State) : Keeps s (firmwareStart s) := by
  simp only [firmwareStart]
  split <;> simp

@[simp] theorem pcieDetectEnd_keeps (found : Bool) (s : State) : Keeps s (pcieDetectEnd found s) := by simp [pcieDetectEnd]

@[simp] theorem applyBind_keeps (s : State) (l : List Byte) : Keeps s (applyBind s l) := by simp [applyBind]

@[simp] theorem applyBridge_keeps (s : State) (l : List Byte) : Keeps s (applyBridge s l) := by simp [applyBridge]

@[simp] theorem applyRecord_keeps (s : State) : Keeps s (applyRecord s) := by
  unfold applyRecord
  split <;> simp

@[simp] theorem firmwareWatchdog_keeps (s : State) : Keeps s (firmwareWatchdog s) := by simp [firmwareWatchdog]

@[simp] theorem lifecycleReset_keeps (s : State) : Keeps s (lifecycleReset s) := by
  unfold lifecycleReset
  split <;> simp

@[simp] theorem setdasa_keeps (addr : BitVec 7) (s : State) : Keeps s (setdasa addr s) := by simp [setdasa]

/-! ### Machine/Loads -/

@[simp] theorem loadStart_keeps (c : Code) (i t : Nat) (l : List Byte) (s : State) : Keeps s (loadStart c i t l s) := by
  unfold loadStart
  split <;> simp

@[simp] theorem cmdLoad_keeps (c : Code) (r : Req) (t : Nat) (s : State) : Keeps s (cmdLoad c r t s) := by simp [cmdLoad]

@[simp] theorem cmdModelSwapIn_keeps (r : Req) (t : Nat) (s : State) :
    Keeps s (cmdModelSwapIn r t s) := by simp [cmdModelSwapIn]

@[simp] theorem cmdIndexLoad_keeps (r : Req) (t : Nat) (s : State) : Keeps s (cmdIndexLoad r t s) := by simp [cmdIndexLoad]

@[simp] theorem cmdTableLoad_keeps (r : Req) (t : Nat) (s : State) : Keeps s (cmdTableLoad r t s) := by simp [cmdTableLoad]

@[simp] theorem cmdTokenizerLoad_keeps (r : Req) (t : Nat) (s : State) :
    Keeps s (cmdTokenizerLoad r t s) := by simp [cmdTokenizerLoad]

@[simp] theorem cmdGrammarLoad_keeps (r : Req) (t : Nat) (s : State) :
    Keeps s (cmdGrammarLoad r t s) := by simp [cmdGrammarLoad]

@[simp] theorem contentIn_keeps (s : State) (i : Nat) : Keeps s (contentIn s i) := by simp [contentIn]

@[simp] theorem loadFail_keeps (s : State) (i t : Nat) (st : Status) (detail : Nat) :
    Keeps s (loadFail s i t st detail) := by simp [loadFail]

@[simp] theorem loadArrive_keeps (s : State) (t : Nat) (bytes : List Byte) : Keeps s (loadArrive s t bytes) := by
  simp only [loadArrive]
  (repeat' split) <;> simp

@[simp] theorem contentOut_keeps (s : State) (i : Nat) : Keeps s (contentOut s i) := by simp [contentOut]

@[simp] theorem cmdModelSwapOut_keeps (r : Req) (t : Nat) (s : State) :
    Keeps s (cmdModelSwapOut r t s) := by simp [cmdModelSwapOut]

@[simp] theorem cmdIndexUnload_keeps (r : Req) (t : Nat) (s : State) :
    Keeps s (cmdIndexUnload r t s) := by simp [cmdIndexUnload]

@[simp] theorem cmdContentUnload_keeps (r : Req) (t : Nat) (s : State) :
    Keeps s (cmdContentUnload r t s) := by simp [cmdContentUnload]

/-! ### Machine/Sawmill -/

@[simp] theorem countText_keeps (s : State) (i bytes tokens repaired cuts : Nat) :
    Keeps s (countText s i bytes tokens repaired cuts) := by simp [countText]

@[simp] theorem tokenizeDone_keeps (t : Nat) (s : State) : Keeps s (tokenizeDone t s) := by
  simp only [tokenizeDone]
  (repeat' split) <;> simp

@[simp] theorem unlessDamaged_keeps {eff : Nat → State → State} (he : ∀ t s, Keeps s (eff t s)) (damaged : Bool) (t : Nat)
    (s : State) : Keeps s (unlessDamaged damaged eff t s) := by
  simp [unlessDamaged, he]

@[simp] theorem cmdTokenizeSubmit_keeps (r : Req) (t : Nat) (s : State) :
    Keeps s (cmdTokenizeSubmit r t s) := by simp [cmdTokenizeSubmit]

@[simp] theorem detokenizeDone_keeps (t : Nat) (s : State) : Keeps s (detokenizeDone t s) := by
  simp only [detokenizeDone]
  (repeat' split) <;> simp

@[simp] theorem cmdDetokenizeSubmit_keeps (r : Req) (t : Nat) (s : State) :
    Keeps s (cmdDetokenizeSubmit r t s) := by simp [cmdDetokenizeSubmit]

/-! ### Machine/Tally -/

@[simp] theorem countRows_keeps (s : State) (i rows elems dups nans : Nat) :
    Keeps s (countRows s i rows elems dups nans) := by simp [countRows]

@[simp] theorem tallyDone_keeps (t : Nat) (s : State) : Keeps s (tallyDone t s) := by
  unfold tallyDone
  split <;> simp

@[simp] theorem cmdTallySubmit_keeps (r : Req) (t : Nat) (s : State) :
    Keeps s (cmdTallySubmit r t s) := by simp [cmdTallySubmit]

/-! ### Machine/Yarder -/

@[simp] theorem askRows_keeps (s : State) (i : Nat) (job : Nat) (t : Table) (after : Nat) (items : List (Nat × Nat × Nat)) :
    Keeps s (askRows s i job t after items).1 :=
  foldl_fst_keeps (fun x g => by dsimp only; split <;> simp) _ (s, true)

@[simp] theorem askReplicas_keeps (s : State) (c : Call) (job : Nat) (comp : Nat) (t : Table) (items : List (Nat × Nat)) :
    Keeps s (askReplicas s c job comp t items).1 :=
  foldl_fst_keeps (fun x m => by dsimp only; split <;> simp) _ (s, [])

@[simp] theorem dropGather_keeps (s : State) (job : Nat) : Keeps s (dropGather s job) := by simp [dropGather]

@[simp] theorem gatherBegin_keeps (s : State) (i t : Nat) (tb : Table) (after fmt : Nat) (parts : List (List Nat)) :
    Keeps s (gatherBegin s i t tb after fmt parts).1 := by
  simp only [gatherBegin]
  split <;> simp

theorem fetchOwns_keeps (s : State) (i : Nat) (t : Table) (l : List (Nat × Nat × Nat)) :
    Keeps s (l.foldl (fun s x => fetchOwn s i t x) s) := by
  induction l generalizing s with
  | nil => exact ⟨rfl, rfl⟩
  | cons x l ih =>
    rw [List.foldl_cons]
    exact Keeps.trans (fetchOwn_keeps s i t x) (ih _)

@[simp] theorem countFetches_keeps (s : State) (i job : Nat) (t : Table) (items : List (Nat × Nat × Nat)) :
    Keeps s (countFetches s i job t items) := fetchOwns_keeps ..

@[simp] theorem slotsWritten_keeps (s : State) (i job rb fmt : Nat) (pooled : Bool) (slots : List (List Nat)) (occ : Nat) :
    Keeps s (slotsWritten s i job rb fmt pooled slots occ) := by simp [slotsWritten]

@[simp] theorem runGather_keeps (s : State) (i job : Nat) (t : Table) (rows : List RowBytes) (fmt : Nat)
    (pooled : Bool) (parts : List (List Nat)) : Keeps s (runGather s i job t rows fmt pooled parts) := by simp [runGather]

@[simp] theorem gatherDone_keeps (j : Job) (s : State) : Keeps s (gatherDone j s) := by
  simp only [gatherDone]
  (repeat' split) <;> simp

@[simp] theorem cmdGatherSubmit_keeps (r : Req) (t : Nat) (s : State) : Keeps s (cmdGatherSubmit r t s) :=
  runCmd_keeps (fun t s => by split <;> simp) ..

@[simp] theorem peerGatherDone_keeps (j : Job) (s : State) : Keeps s (peerGatherDone j s) := by
  simp only [peerGatherDone]
  (repeat' split) <;> simp [-foldl_keeps, fetchOwns_keeps]

@[simp] theorem cmdPeerGather_keeps (r : Req) (t : Nat) (s : State) : Keeps s (cmdPeerGather r t s) := by simp [cmdPeerGather]

@[simp] theorem modTable_keeps (s : State) (i id : Nat) (f : Table → Table) : Keeps s (modTable s i id f) := ⟨rfl, rfl⟩

@[simp] theorem updateBegin_keeps (s : State) (i t : Nat) (tb : Table) (l : List Byte) :
    Keeps s (updateBegin s i t tb l) := by simp [updateBegin]

@[simp] theorem cmdUpdateSubmit_keeps (r : Req) (t : Nat) (s : State) : Keeps s (cmdUpdateSubmit r t s) :=
  runCmd_keeps (fun t s => by split <;> simp) ..

@[simp] theorem cmdPeerUpdate_keeps (r : Req) (t : Nat) (s : State) : Keeps s (cmdPeerUpdate r t s) :=
  runCmd_keeps (fun t s => by split <;> simp) ..

@[simp] theorem applyRow_keeps (s : State) (i : Nat) (t : Table) (k row : Nat) (cs : List Contribution) :
    Keeps s (applyRow s i t k row cs) := by simp [applyRow]

@[simp] theorem applyEpoch_keeps (s : State) (i : Nat) (t : Table) : Keeps s (applyEpoch s i t) := by simp [applyEpoch]

@[simp] theorem applyEpochs_keeps (i : Nat) (id : Nat) (n : Nat) (s : State) : Keeps s (applyEpochs i id n s) := by
  induction n generalizing s with
  | zero => exact ⟨rfl, rfl⟩
  | succ n ih =>
    unfold applyEpochs
    split <;> simp [ih]

@[simp] theorem boundaryEpochs_keeps (i : Nat) (s : State) : Keeps s (boundaryEpochs i s) := by simp [boundaryEpochs]

@[simp] theorem cacheHalve_keeps (part : Nat) (s : State) : Keeps s (cacheHalve part s) := by simp [cacheHalve]

/-! ### Machine/Cruiser -/

@[simp] theorem modIndex_keeps (s : State) (i id : Nat) (f : Index → Index) : Keeps s (modIndex s i id f) := ⟨rfl, rfl⟩

@[simp] theorem addParts_keeps (s : State) (x : Index) (y : Search) : Keeps s (addParts s x y) := by simp [addParts]

@[simp] theorem askShard_keeps (s : State) (x : Index) (y : Search) (shard : Nat) : Keeps s (askShard s x y shard) := by
  simp only [askShard]
  split <;> simp

@[simp] theorem countMerge_keeps (s : State) (i : Nat) (lists : List (Nat × PartList)) (out : List (PartList × MergeOut)) :
    Keeps s (countMerge s i lists out) := by simp [countMerge]

@[simp] theorem cancelSearch_keeps (s : State) (id : Nat) : Keeps s (cancelSearch s id) := by simp [cancelSearch]

@[simp] theorem searchAdvance_keeps (s : State) (id : Nat) : Keeps s (searchAdvance s id) := by
  unfold searchAdvance
  split <;> simp

@[simp] theorem searchBegin_keeps (s : State) (i : Nat) (owner : SearchOwner) (x : Index) (b : SearchBlock) (qs : List
    (List W16)) : Keeps s (searchBegin s i owner x b qs) := by simp [searchBegin]

@[simp] theorem countPart_keeps (s : State) (i : Nat) (o : PartOut) : Keeps s (countPart s i o) := by simp [countPart]

@[simp] theorem partEnds_keeps (j : Job) (turns : Option Nat) (s : State) : Keeps s (partEnds j turns s) := by
  unfold partEnds
  (repeat' split) <;> simp

@[simp] theorem searchPartDone_keeps (j : Job) (s : State) : Keeps s (searchPartDone j s) := by simp [searchPartDone]

@[simp] theorem shardMergeDone_keeps (j : Job) (id : Nat) (s : State) : Keeps s (shardMergeDone j id s) := by
  refine keeps_of_result fun u hu => ?_
  simp only [shardMergeDone] at hu
  (repeat' split at hu) <;> subst hu <;> simp

@[simp] theorem countSearch_keeps (s : State) (y : Search) : Keeps s (countSearch s y) := by simp [countSearch]

@[simp] theorem homeMerged_keeps (j : Job) (id : Nat) (s : State) : Keeps s (homeMerged j id s).1 := by
  unfold homeMerged
  split <;> simp

@[simp] theorem searchRecord_keeps (t : Nat) (y : Search) (out : List PartList) (s : State) :
    Keeps s (searchRecord t y out s) := by
  unfold searchRecord
  split <;> simp

@[simp] theorem shardMissing_keeps (s : State) (id shard : Nat) : Keeps s (shardMissing s id shard) := by simp [shardMissing]

@[simp] theorem shardAnswered_keeps (s : State) (id shard st : Nat) (bytes : List Byte) :
    Keeps s (shardAnswered s id shard st bytes) := by
  unfold shardAnswered
  (repeat' split) <;> simp

@[simp] theorem cmdSearchSubmit_keeps (r : Req) (t : Nat) (s : State) : Keeps s (cmdSearchSubmit r t s) :=
  runCmd_keeps (fun t s => by split <;> simp) ..

@[simp] theorem peerSearchBegin_keeps (s : State) (i t : Nat) (x : Index) (b : SearchBlock) (qs : List (List W16)) :
    Keeps s (peerSearchBegin s i t x b qs) := by simp [peerSearchBegin]

@[simp] theorem cmdPeerSearch_keeps (r : Req) (t : Nat) (s : State) : Keeps s (cmdPeerSearch r t s) :=
  runCmd_keeps (fun t s => by split <;> simp) ..

@[simp] theorem budgetExpiry_keeps (j : Job) (s : State) : Keeps s (budgetExpiry j s) := by
  unfold budgetExpiry
  split <;> simp

@[simp] theorem addChange_keeps (s : State) (i t index : Nat) (k : ChangeKind) : Keeps s (addChange s i t index k) := ⟨rfl, rfl⟩

@[simp] theorem cmdSearchInsert_keeps (r : Req) (t : Nat) (s : State) : Keeps s (cmdSearchInsert r t s) :=
  runCmd_keeps (fun t s => by split <;> simp) ..

@[simp] theorem cmdSearchDelete_keeps (r : Req) (t : Nat) (s : State) : Keeps s (cmdSearchDelete r t s) :=
  runCmd_keeps (fun t s => by split <;> simp) ..

@[simp] theorem cmdPlantStart_keeps (r : Req) (t : Nat) (s : State) : Keeps s (cmdPlantStart r t s) :=
  runCmd_keeps (fun t s => by split <;> simp) ..

@[simp] theorem plantingReady_keeps (j : Job) (index : Nat) (s : State) : Keeps s (plantingReady j index s) := by
  unfold plantingReady
  (repeat' split) <;> simp

@[simp] theorem plantingDue_keeps (i index : Nat) (s : State) : Keeps s (plantingDue i index s) := by
  unfold plantingDue
  (repeat' split) <;> simp

@[simp] theorem storeIn_keeps (s : State) (i : Nat) (frames : List Nat) (off : Nat) (bs : List Byte) :
    Keeps s (storeIn s i frames off bs) := by simp [storeIn]

@[simp] theorem storeSeeds_keeps (s : State) (i index k : Nat) (es : List Seedling) : Keeps s (storeSeeds s i index k es) := by
  unfold storeSeeds
  split <;> simp

@[simp] theorem storeNode_keeps (i : Nat) (x : Index) (s : State) (u : Nat) : Keeps s (storeNode i x s u) := by simp [storeNode]

@[simp] theorem storeNodes_keeps (s : State) (i : Nat) (old new : Index) :
    Keeps s (storeNodes s i old new) := by simp [storeNodes]

@[simp] theorem insertApply_keeps (s : State) (i : Nat) (x : Index) (t : Nat) (es : List Seedling) :
    Keeps s (insertApply s i x t es) := by
  simp only [insertApply]
  (repeat' split) <;> simp

@[simp] theorem deleteApply_keeps (s : State) (i : Nat) (x : Index) (t : Nat) (ids : List Nat) :
    Keeps s (deleteApply s i x t ids) := by simp [deleteApply]

@[simp] theorem bitmapApply_keeps (s : State) (i : Nat) (x : Index) (t b : Nat) (chipper : Bool) (res : Residence)
    (bytes : List Byte) : Keeps s (bitmapApply s i x t b chipper res bytes) := by simp [bitmapApply]

@[simp] theorem plantApply_keeps (s : State) (i : Nat) (x : Index) (t ef : Nat) : Keeps s (plantApply s i x t ef) := by
  unfold plantApply
  (repeat' split) <;> simp

@[simp] theorem switchApply_keeps (s : State) (i : Nat) (x : Index) (t : Nat) : Keeps s (switchApply s i x t) := by
  unfold switchApply
  split <;> simp

@[simp] theorem applyChange_keeps (s : State) (i : Nat) (c : Change) : Keeps s (applyChange s i c) := by
  simp only [applyChange]
  (repeat' split) <;> simp

@[simp] theorem applyChanges_keeps (i : Nat) (index : Nat) (n : Nat) (s : State) : Keeps s (applyChanges i index n s) := by
  induction n generalizing s with
  | zero => exact ⟨rfl, rfl⟩
  | succ n ih =>
    unfold applyChanges
    split <;> simp [ih]

@[simp] theorem replanParts_keeps (s : State) (i : Nat) : Keeps s (replanParts s i) :=
  foldl_keeps (fun s y => by split <;> simp) _ s

@[simp] theorem boundaryChanges_keeps (i : Nat) (s : State) : Keeps s (boundaryChanges i s) := by simp [boundaryChanges]

@[simp] theorem changeBoundary_keeps (i : Nat) (s : State) : Keeps s (changeBoundary i s) := by simp [changeBoundary]

/-! ### Machine/Global -/

@[simp] theorem modGlobal_keeps (s : State) (i t : Nat) (f : GlobalOp → GlobalOp) : Keeps s (modGlobal s i t f) := ⟨rfl, rfl⟩

@[simp] theorem releaseHeld_keeps (s : State) (i : Nat) : Keeps s (releaseHeld s i) := by simp [releaseHeld]

@[simp] theorem dropGlobal_keeps (s : State) (i t : Nat) : Keeps s (dropGlobal s i t) := ⟨rfl, rfl⟩

@[simp] theorem alignDropped_keeps (s : State) (i : Nat) : Keeps s (alignDropped s i) :=
  foldl_keeps (fun s g => by split <;> simp) _ s

@[simp] theorem partitionReset_keeps (s : State) (i t : Nat) : Keeps s (partitionReset s i t) := by simp [partitionReset]

@[simp] theorem countOp_keeps (s : State) (i : Nat) (g : GlobalOp) (st : Status) (down : Option Nat) :
    Keeps s (countOp s i g st down) := by simp [countOp]

@[simp] theorem completeOp_keeps (s : State) (i : Nat) (g : GlobalOp) (x : TokenSum) (release : Nat) (data : List Byte) :
    Keeps s (completeOp s i g x release data) := by simp [completeOp]

@[simp] theorem alignFired_keeps (s : State) (i t : Nat) : Keeps s (alignFired s i t) := by
  unfold alignFired
  (repeat' split) <;> simp

@[simp] theorem ownTimeout_keeps (s : State) (i : Nat) (g : GlobalOp) : Keeps s (ownTimeout s i g) := by simp [ownTimeout]

@[simp] theorem tryUp_keeps (s : State) (i : Nat) (g : GlobalOp) : Keeps s (tryUp s i g).1 := by
  simp only [tryUp]
  (repeat' split) <;> simp

@[simp] theorem takeToken12_keeps (s : State) (i : Nat) (g : GlobalOp) (l : List Byte) : Keeps s (takeToken12 s i g l).1 := by
  simp only [takeToken12]
  (repeat' split) <;> simp

@[simp] theorem tokenAt_keeps (s : State) (i : Nat) (f : Frame) : Keeps s (tokenAt s i f).1 := by
  simp only [tokenAt]
  (repeat' split) <;> simp

@[simp] theorem deliver_keeps (fuel : Nat) (s : State) (l : List (Nat × Outgoing)) : Keeps s (deliver fuel s l) := by
  induction fuel generalizing s l with
  | zero => simp [deliver]
  | succ n ih =>
    cases l with
    | nil => simp [deliver]
    | cons o rest => simp [deliver, ih]

@[simp] theorem deliverAll_keeps (s : State) (i : Nat) (os : List Outgoing) :
    Keeps s (deliverAll s i os) := by simp [deliverAll]

@[simp] theorem groupResetNow_keeps (s : State) : Keeps s (groupResetNow s) := by simp [groupResetNow]

@[simp] theorem blazeArrive_keeps (f : Frame) (s : State) : Keeps s (blazeArrive f s) := by simp [blazeArrive]

@[simp] theorem joinOp_keeps (s : State) (i : Nat) (g : GlobalOp) : Keeps s (joinOp s i g) := by
  unfold joinOp
  dsimp only
  refine Keeps.trans ?_ (foldl_keeps (fun s f => by split <;> simp) _ _)
  simp

@[simp] theorem boundaryGlobals_keeps (i : Nat) (s : State) : Keeps s (boundaryGlobals i s) := by simp [boundaryGlobals]

@[simp] theorem globalStart_keeps (c : Code) (i : Nat) (l : List Byte) (t : Nat) (s : State) :
    Keeps s (globalStart c i l t s) := by simp [globalStart]

@[simp] theorem cmdGlobal_keeps (c : Code) (r : Req) (t : Nat) (s : State) : Keeps s (cmdGlobal c r t s) := by simp [cmdGlobal]

@[simp] theorem cmdBarrierJoin_keeps (r : Req) (t : Nat) (s : State) :
    Keeps s (cmdBarrierJoin r t s) := by simp [cmdBarrierJoin]

@[simp] theorem cmdBroadcastSend_keeps (r : Req) (t : Nat) (s : State) :
    Keeps s (cmdBroadcastSend r t s) := by simp [cmdBroadcastSend]

@[simp] theorem cmdSnapshotTake_keeps (r : Req) (t : Nat) (s : State) :
    Keeps s (cmdSnapshotTake r t s) := by simp [cmdSnapshotTake]

@[simp] theorem cmdGroupReset_keeps (r : Req) (t : Nat) (s : State) : Keeps s (cmdGroupReset r t s) := by simp [cmdGroupReset]

@[simp] theorem deferredStart_keeps (i domain : Nat) (s : State) : Keeps s (deferredStart i domain s) := by
  simp only [deferredStart]
  (repeat' split) <;> simp

@[simp] theorem giveUp_keeps (s : State) (i : Nat) (g : GlobalOp) (gone : Nat → Bool) :
    Keeps s (giveUp s i g gone) := by simp [giveUp]

@[simp] theorem childTimeout_keeps (i domain : Nat) (s : State) : Keeps s (childTimeout i domain s) := by
  unfold childTimeout
  (repeat' split) <;> simp

@[simp] theorem downTimeout_keeps (i domain : Nat) (s : State) : Keeps s (downTimeout i domain s) := by
  unfold downTimeout
  (repeat' split) <;> simp

@[simp] theorem globalsLose_keeps (m : W16) (s : State) : Keeps s (globalsLose m s) := by simp [globalsLose]

/-! ### Machine/Units -/

@[simp] theorem standTest_keeps (s : State) (k part : Nat) : Keeps s (standTest s k part) := ⟨rfl, rfl⟩

@[simp] theorem dropTests_keeps (s : State) (ks : List Nat) : Keeps s (dropTests s ks) := ⟨rfl, rfl⟩

@[simp] theorem standTestIn_keeps (s : State) (k : Nat) (part : Option Nat) : Keeps s (standTestIn s k part) := by
  unfold standTestIn
  split <;> simp

@[simp] theorem standFault_keeps (s : State) (k : Nat) : Keeps s (standFault s k) := by simp [standFault]

@[simp] theorem standLost_keeps (s : State) (k : Nat) : Keeps s (standLost s k) := by
  unfold standLost
  (repeat' split) <;> simp

@[simp] theorem trySpare_keeps (s : State) (k : Nat) : Keeps s (trySpare s k) := by
  unfold trySpare
  split <;> simp

@[simp] theorem retireStand_keeps (s : State) (k : Nat) : Keeps s (retireStand s k) := by simp [retireStand]

@[simp] theorem spareTested_keeps (pass : Bool) (s : State) : Keeps s (spareTested pass s) := by
  unfold spareTested
  (repeat' split) <;> simp

@[simp] theorem retireUnit_keeps (s : State) (u : EngineUnit) : Keeps s (retireUnit s u) := by simp [retireUnit]

@[simp] theorem unitFaulted_keeps (s : State) (u : EngineUnit) : Keeps s (unitFaulted s u) := by simp [unitFaulted]

@[simp] theorem unitTested_keeps (u : TestUnit) (pass : Bool) (s : State) : Keeps s (unitTested u pass s) := by
  unfold unitTested
  (repeat' split) <;> simp

/-! ### Machine/Tracker -/

@[simp] theorem failRequest_keeps (s : State) (id : Nat) (st : Status) : Keeps s (failRequest s id st) := by simp [failRequest]

@[simp] theorem ctxJob_keeps (s : State) (c : Ctx) (kind : JobKind) : Keeps s (ctxJob s c kind) := by simp [ctxJob]

@[simp] theorem markPaused_keeps (s : State) (id : Nat) : Keeps s (markPaused s id) := ⟨rfl, rfl⟩

@[simp] theorem addFill_keeps (s : State) (part space addr len : Nat) (forWhat : FillFor) :
    Keeps s (addFill s part space addr len forWhat) := ⟨rfl, rfl⟩

@[simp] theorem pauseNow_keeps (s : State) (id t : Nat) (spill : Option (Nat × Nat × Nat)) :
    Keeps s (pauseNow s id t spill) := by
  unfold pauseNow
  (repeat' split) <;> simp

@[simp] theorem enterPrefill_keeps (s : State) (id : Nat) : Keeps s (enterPrefill s id) := by
  unfold enterPrefill
  split
  · simp
  next c =>
    split
    · simp
    · dsimp only
      split
      · split <;> simp
      · split
        next halloc => split <;> simp [allocResult_keeps halloc]
        next => simp

@[simp] theorem endExport_keeps (s : State) (id : Nat) : Keeps s (endExport s id) := by
  unfold endExport
  split
  · simp
  · dsimp only
    split
    · simp
    · split
      · simp
      · split
        · simp
        · split
          next halloc => simp [allocResult_keeps halloc]
          next => simp

@[simp] theorem promptReady_keeps (s : State) (id : Nat) : Keeps s (promptReady s id) := by
  unfold promptReady
  split <;> simp

@[simp] theorem countTexts_keeps (s : State) (i : Nat) (t : Tokenizer) (texts : List (List Byte)) :
    Keeps s (countTexts s i t texts) := by simp [countTexts]

@[simp] theorem packDone_keeps (s : State) (c : Ctx) : Keeps s (packDone s c) := by
  simp only [packDone]
  (repeat' split) <;> simp

@[simp] theorem promptDone_keeps (s : State) (c : Ctx) : Keeps s (promptDone s c) := by
  unfold promptDone
  split <;> simp

@[simp] theorem startPack_keeps (s : State) (id : Nat) (kept : List Passage) : Keeps s (startPack s id kept) := by
  unfold startPack
  split <;> simp

@[simp] theorem pairsDone_keeps (s : State) (c : Ctx) (rr : Nat) : Keeps s (pairsDone s c rr) := by
  unfold pairsDone
  split <;> simp

@[simp] theorem countSelect_keeps (s : State) (i n : Nat) (nan : Bool) :
    Keeps s (countSelect s i n nan) := by simp [countSelect]

@[simp] theorem selectDone_keeps (s : State) (c : Ctx) : Keeps s (selectDone s c) := by simp [selectDone]

@[simp] theorem passageIn_keeps (s : State) (id rank : Nat) (item : Option (List Byte × List Byte)) :
    Keeps s (passageIn s id rank item) := by
  unfold passageIn
  (repeat' split) <;> simp

@[simp] theorem fetchAdvance_keeps (s : State) (id : Nat) : Keeps s (fetchAdvance s id) := by
  unfold fetchAdvance
  (repeat' split) <;> simp

@[simp] theorem fetchHere_keeps (s : State) (i id rank store item : Nat) : Keeps s (fetchHere s i id rank store item) := by
  unfold fetchHere
  split <;> simp

@[simp] theorem fetchOne_keeps (s : State) (id : Nat) (x : Index) (rank : Nat) (e : Entry) :
    Keeps s (fetchOne s id x rank e) := by
  simp only [fetchOne]
  (repeat' split) <;> simp

@[simp] theorem fetchStart_keeps (s : State) (id : Nat) : Keeps s (fetchStart s id) := by
  unfold fetchStart
  (repeat' split) <;> simp

@[simp] theorem embedDone_keeps (s : State) (c : Ctx) : Keeps s (embedDone s c) := by
  unfold embedDone
  split <;> simp

@[simp] theorem vectorDone_keeps (s : State) (id : Nat) (v : List W16) : Keeps s (vectorDone s id v) := by
  unfold vectorDone
  (repeat' split) <;> simp

@[simp] theorem ctxSearched_keeps (s : State) (id : Nat) (y : Search) (out : List PartList) :
    Keeps s (ctxSearched s id y out) := by
  unfold ctxSearched
  split <;> simp

@[simp] theorem scoreDone_keeps (s : State) (id : Nat) (v : W32) : Keeps s (scoreDone s id v) := by
  unfold scoreDone
  split <;> simp

@[simp] theorem ctxTokensDone_keeps (j : Job) (id : Nat) (s : State) : Keeps s (ctxTokensDone j id s) := by
  simp only [ctxTokensDone]
  (repeat' split) <;> simp

@[simp] theorem ctxSelectDone_keeps (j : Job) (id : Nat) (s : State) : Keeps s (ctxSelectDone j id s) := by
  simp only [ctxSelectDone]
  split <;> simp

@[simp] theorem admitOne_keeps (s : State) (id : Nat) : Keeps s (admitOne s id) := by
  unfold admitOne
  (repeat' split) <;> simp

@[simp] theorem admitAll_keeps (s : State) (i : Nat) : Keeps s (admitAll s i) := by simp [admitAll]

/-! ### Machine/Launches -/

@[simp] theorem leaveUnits_keeps (s : State) (ids : List Nat) : Keeps s (leaveUnits s ids) := ⟨rfl, rfl⟩

@[simp] theorem dropLaunch_keeps (s : State) (id : Nat) : Keeps s (dropLaunch s id) := by simp [dropLaunch]

@[simp] theorem endRows_keeps (s : State) (rows : List BatchRow) (st : Status) :
    Keeps s (endRows s rows st) := by simp [endRows]

@[simp] theorem failBatch_keeps (s : State) (l : Launch) (st : Status) : Keeps s (failBatch s l st) := by simp [failBatch]

@[simp] theorem failStep_keeps (s : State) (l : Launch) : Keeps s (failStep s l) := by simp [failStep]

@[simp] theorem addLaunch_keeps (s : State) (l : Launch) : Keeps s (addLaunch s l) := ⟨rfl, rfl⟩

@[simp] theorem addPass_keeps (s : State) (i : Nat) (stepNo : Nat) (m : Model) (img : List Byte) (pass : Nat)
    (rows : List BatchRow) (longest : Nat) (after : List Nat) : Keeps s (addPass s i stepNo m img pass rows longest after).1 := by
  unfold addPass
  split
  · simp
  · exact foldl_fst_keeps (fun x g => by simp) _ (s, after)

@[simp] theorem passTables_keeps (s : State) (l : Launch) (m : Model) : Keeps s (passTables s l m) := by
  simp only [passTables]
  split
  · refine Keeps.trans ?_ (foldl_keeps (fun s id => by split <;> simp) _ _)
    split <;> simp
  · split <;> simp

@[simp] theorem operandFills_keeps (s : State) (l : Launch) (m : Model) (recs : List (List Byte)) :
    Keeps s (operandFills s l m recs) :=
  foldl_keeps (fun s k => by dsimp only; split <;> simp) _ s

@[simp] theorem launchGather_keeps (s : State) (l : Launch) : Keeps s (launchGather s l) := by
  unfold launchGather
  (repeat' split) <;> simp

@[simp] theorem prepareSample_keeps (s : State) (l : Launch) : Keeps s (prepareSample s l) := by
  refine Keeps.trans (foldl_keeps (fun s r => ?_) _ s) (feedUnits_keeps _)
  split
  · simp
  · simp only
    split <;> split <;> simp

@[simp] theorem prepareLaunch_keeps (s : State) (id : Nat) : Keeps s (prepareLaunch s id) := by
  unfold prepareLaunch
  (repeat' split) <;> simp

@[simp] theorem splitLaunch_keeps (s : State) (l : Launch) : Keeps s (splitLaunch s l) := by simp [splitLaunch]

@[simp] theorem divideAgain_keeps (s : State) (id : Nat) : Keeps s (divideAgain s id) := by
  simp only [divideAgain]
  (repeat' split) <;> simp

@[simp] theorem postLaunch_keeps (s : State) (id : Nat) : Keeps s (postLaunch s id) := by
  simp only [postLaunch]
  (repeat' split) <;> simp

@[simp] theorem postReady_keeps (s : State) (i : Nat) : Keeps s (postReady s i) := by simp [postReady]

@[simp] theorem postAll_keeps (s : State) : Keeps s (postAll s) := by simp [postAll]

@[simp] theorem reformPass_keeps (s : State) (l : Launch) : Keeps s (reformPass s l) := by
  simp only [reformPass]
  (repeat' split) <;> simp

@[simp] theorem launchGatherDone_keeps (j : Job) (s : State) : Keeps s (launchGatherDone j s) := by
  unfold launchGatherDone
  (repeat' split) <;> simp

@[simp] theorem awaitDone_keeps (s : State) (launch fill : Nat) : Keeps s (awaitDone s launch fill) := ⟨rfl, rfl⟩

@[simp] theorem moveDone_keeps (s : State) (launch : Nat) : Keeps s (moveDone s launch) := ⟨rfl, rfl⟩

@[simp] theorem moveFill_keeps (s : State) (l : Launch) (raw : List Byte) (d : Desc) :
    Keeps s (moveFill s l raw d) := by simp [moveFill]

@[simp] theorem skidderServed_keeps (s : State) (i : Nat) : Keeps s (skidderServed s i) := ⟨rfl, rfl⟩

@[simp] theorem moveStart_keeps (launch : Nat) (s : State) : Keeps s (moveStart launch s) := by
  simp only [moveStart]
  split
  · simp
  · split
    · simp
    · split
      · simp
      · split
        · simp
        · simp
        · simp
        · split
          · split
            · simp
            · split
              next h => simp [runDesc_keeps h]
              next => simp
          · simp

@[simp] theorem turnBegins_keeps (l : Launch) (s : State) : Keeps s (turnBegins l s) := by simp [turnBegins]

@[simp] theorem launchFire_keeps (launch : Nat) (s : State) : Keeps s (launchFire launch s) := by
  unfold launchFire
  (repeat' split) <;> simp

@[simp] theorem runSampleRows_keeps (s : State) (l : Launch) (rows : List SampleRow) :
    Keeps s (runSampleRows s l rows) := by simp [runSampleRows]

@[simp] theorem noteEnding_keeps (s : State) (id : Nat) (st : Status) (r : Reason) :
    Keeps s (noteEnding s id st r) := ⟨rfl, rfl⟩

@[simp] theorem noToken_keeps (s : State) (c : Ctx) (g : Option Grammar) (t : Tokenizer) (reserve : Nat) :
    Keeps s (noToken s c g t reserve) := by
  unfold noToken
  split <;> simp

@[simp] theorem ctxToken_keeps (s : State) (c : Ctx) (g : Option Grammar) (t : Tokenizer) (reserve tok : Nat) :
    Keeps s (ctxToken s c g t reserve tok) := by
  simp only [ctxToken]
  split <;> simp

@[simp] theorem sampleTake_keeps (s : State) (l : Launch) (r : SampleRow) : Keeps s (sampleTake s l r) := by
  unfold sampleTake
  (repeat' split) <;> simp

@[simp] theorem sampleLaunch_keeps (s : State) (l : Launch) (m pass : Nat) (x : List SampleRow × Nat) :
    Keeps s (sampleLaunch s l m pass x) := ⟨rfl, rfl⟩

@[simp] theorem addSample_keeps (s : State) (l : Launch) (m : Model) (bf : Bool) (pass : Nat) (xs : List (Ctx × Nat)) :
    Keeps s (addSample s l m bf pass xs) := by simp [addSample]

@[simp] theorem passDone_keeps (s : State) (l : Launch) (m : Model) (pass : Nat) : Keeps s (passDone s l m pass) := by
  unfold passDone
  split <;> simp

@[simp] theorem samplesDone_keeps (s : State) (l : Launch) : Keeps s (samplesDone s l) :=
  foldl_keeps (fun s t => by split <;> simp) _ s

@[simp] theorem candidatesDone_keeps (j : Job) (launch ctx : Nat) (s : State) : Keeps s (candidatesDone j launch ctx s) := by
  simp only [candidatesDone]
  (repeat' split) <;> simp

@[simp] theorem launchEnds_keeps (s : State) (l : Launch) : Keeps s (launchEnds s l) := by
  unfold launchEnds
  (repeat' split) <;> simp

@[simp] theorem endLaunches_keeps (s : State) : Keeps s (endLaunches s) := by simp [endLaunches]

@[simp] theorem taskMarked_keeps (s : State) (launch ti : Nat) : Keeps s (taskMarked s launch ti) := by
  simp only [taskMarked]
  split <;> simp

@[simp] theorem releaseHold_keeps (s : State) (launch ti : Nat) : Keeps s (releaseHold s launch ti) := ⟨rfl, rfl⟩

@[simp] theorem runBody_keeps (s : State) (k : Nat) (l : Launch) (b : TaskBody) : Keeps s (runBody s k l b) := by
  unfold runBody
  split <;> simp

@[simp] theorem taskDone_keeps (n : Nat) (s : State) : Keeps s (taskDone n s) := by
  unfold taskDone
  (repeat' split) <;> simp

@[simp] theorem taskComplete_keeps (n : Nat) (s : State) : Keeps s (taskComplete n s) := by
  unfold taskComplete
  split <;> simp

@[simp] theorem taskFault_keeps (s : State) (k : Nat) (l : Launch) (ti : Nat) (t : Task) : Keeps s (taskFault s k l ti t) := by
  simp only [taskFault]
  (repeat' split) <;> simp

/-! ### Machine/Serving -/

@[simp] theorem unitPick_keeps (lim step : Nat) (m : Model) (l : List Ctx) (budget : Nat) (acc : List (Ctx × List (List Nat)))
    (s : State) : Keeps s (unitPick lim step m l budget acc s).2 := by
  induction l generalizing budget acc s with
  | nil => exact ⟨rfl, rfl⟩
  | cons c l ih =>
    simp only [unitPick]
    split
    · exact ih ..
    · split
      · exact Keeps.trans (failRequest_keeps s _ _) (ih ..)
      · split
        · simp
        · split <;> exact ih ..

@[simp] theorem unitBatch_keeps (s : State) (i : Nat) (m : Model) (p : Serving) :
    Keeps s (unitBatch s i m p).2 := by simp [unitBatch]

theorem kvRoom_keeps {s t : State} {c : Ctx} {m : Model} {top : Nat} (h : kvRoom s c m top = some t) : Keeps s t := by
  unfold kvRoom at h
  split at h
  · cases h
  · dsimp only at h
    split at h
    · cases h
      exact ⟨rfl, rfl⟩
    · obtain ⟨fresh, -, rfl⟩ := Option.map_eq_some_iff.1 h
      exact ⟨rfl, rfl⟩

@[simp] theorem kvTrim_keeps (s : State) (id : Nat) (m : Model) (top : Nat) : Keeps s (kvTrim s id m top) := ⟨rfl, rfl⟩

@[simp] theorem kvWait_keeps (s : State) (i n : Nat) : Keeps s (kvWait s i n) := by simp [kvWait]

theorem formDecode_keeps (m : Model) (n : Nat) (f : Forming) (c : Ctx) : Keeps f.s (formDecode m n f c).s := by
  unfold formDecode
  split
  · split
    next h => exact kvRoom_keeps h
    next => simp
  · simp

theorem formPrefill_keeps (m : Model) (chunk hold : Nat) (f : Forming) (c : Ctx) :
    Keeps f.s (formPrefill m chunk hold f c).s := by
  unfold formPrefill
  extract_lets n
  split
  · simp
  · split
    next h => exact kvRoom_keeps h
    next => simp

theorem fitLists_keeps (i : Nat) (m : Model) (lines used n : Nat) (f : Forming) :
    Keeps f.s (fitLists i m lines used n f).s := by
  induction n generalizing f with
  | zero => exact ⟨rfl, rfl⟩
  | succ n ih =>
    unfold fitLists
    dsimp only
    split
    · simp
    · split
      · simp
      · refine Keeps.trans ?_ (ih _)
        simp

@[simp] theorem genBatch_keeps (s : State) (i : Nat) (m : Model) (p : Serving) (used : Nat) :
    Keeps s (genBatch s i m p used).2 := by
  unfold genBatch
  extract_lets mine pre f0 f1 hold f2 f3 s1 pick
  have h1 : Keeps s f1.s := foldl_keeps_of Forming.s (formDecode_keeps m _) _ f0
  have h2 : Keeps f1.s f2.s := foldl_keeps_of Forming.s (formPrefill_keeps m _ _) _ f1
  have h3 : Keeps f2.s f3.s := fitLists_keeps ..
  have h4 : Keeps f3.s s1 := foldl_keeps (fun s a => by simp) _ _
  exact ((h1.trans h2).trans h3).trans h4

@[simp] theorem formBatches_keeps (s : State) (i : Nat) (p : Serving) : Keeps s (formBatches s i p).2 := by
  unfold formBatches
  refine foldl_snd_keeps (fun x id => ?_) (List.range 16) ([], s)
  split
  · simp
  · split <;> dsimp only <;> split <;> simp

@[simp] theorem countTaken_keeps (s : State) (i : Nat) (b : Batch) : Keeps s (countTaken s i b) := by
  unfold countTaken
  split <;> simp

@[simp] theorem batchLaunches_keeps (i no : Nat) (x : State × List Nat) (b : Batch) : Keeps x.1 (batchLaunches i no x b).1 := by
  unfold batchLaunches
  split <;> simp

@[simp] theorem addRiders_own_keeps (i no : Nat) (r : State × List Nat) : Keeps r.1 (addRiders.own i no r) := by
  simp [addRiders.own]

@[simp] theorem addRiders_keeps (i : Nat) (no : Nat) (s : State) : Keeps s (addRiders i no s) := by
  simp only [addRiders]
  split
  · simp
  · split
    · split <;> simp
    · simp

@[simp] theorem postStep_keeps (i : Nat) (s : State) : Keeps s (postStep i s) := by
  simp only [postStep]
  split
  · simp
  · simp

@[simp] theorem endRecovery_keeps (s : State) (i : Nat) : Keeps s (endRecovery s i) := ⟨rfl, rfl⟩

@[simp] theorem streamRecord_keeps (s : State) (id : Nat) : Keeps s (streamRecord s id) := by
  unfold streamRecord
  (repeat' split) <;> simp

@[simp] theorem boundaryRecords_keeps (i : Nat) (s : State) : Keeps s (boundaryRecords i s) :=
  Keeps.trans (foldl_keeps (fun s c => by split <;> simp) _ s) (endRecovery_keeps _ i)

@[simp] theorem dropControl_keeps (s : State) (i : Nat) (x : PendingControl) : Keeps s (dropControl s i x) := ⟨rfl, rfl⟩

@[simp] theorem cancelNow_keeps (i : Nat) (s : State) (x : PendingControl) : Keeps s (cancelNow i s x) := by
  simp only [cancelNow]
  split <;> simp

@[simp] theorem pauseDue_keeps (i : Nat) (s : State) (x : PendingControl) : Keeps s (pauseDue i s x) := by
  simp only [pauseDue]
  split <;> simp

@[simp] theorem backFromPause_keeps (s : State) (id t : Nat) : Keeps s (backFromPause s id t) := by
  unfold backFromPause
  split <;> simp

@[simp] theorem resumeNow_keeps (i : Nat) (s : State) (x : PendingControl) : Keeps s (resumeNow i s x) := by
  unfold resumeNow
  (repeat' split) <;> simp

@[simp] theorem boundaryControls_keeps (i n : Nat) (s : State) : Keeps s (boundaryControls i n s) := by simp [boundaryControls]

@[simp] theorem boundaryAdmit_keeps (i : Nat) (s : State) : Keeps s (boundaryAdmit i s) := by simp [boundaryAdmit]

@[simp] theorem actIdle_keeps (i : Nat) (s : State) : Keeps s (actIdle i s) := by simp [actIdle]

@[simp] theorem stepForm_keeps (i : Nat) (s : State) : Keeps s (stepForm i s) := by
  simp only [stepForm]
  split <;> simp

@[simp] theorem spillDone_keeps (s : State) (f : Fill) (id t : Nat) : Keeps s (spillDone s f id t) := by
  unfold spillDone
  split <;> simp

@[simp] theorem refillDone_keeps (s : State) (f : Fill) (id t : Nat) (bytes : List Byte) :
    Keeps s (refillDone s f id t bytes) := by
  unfold refillDone
  (repeat' split) <;> simp

@[simp] theorem cmdServeStart_keeps (r : Req) (t : Nat) (s : State) : Keeps s (cmdServeStart r t s) := by simp [cmdServeStart]

@[simp] theorem warmupEnd_keeps (i : Nat) (s : State) : Keeps s (warmupEnd i s) := by
  unfold warmupEnd
  split <;> simp

@[simp] theorem cmdServeStop_keeps (r : Req) (t : Nat) (s : State) : Keeps s (cmdServeStop r t s) := by simp [cmdServeStop]

@[simp] theorem restartPair_keeps (s : State) (k : Nat) : Keeps s (restartPair s k) := ⟨rfl, rfl⟩

@[simp] theorem recoverEffect_keeps (i : Nat) (s : State) : Keeps s (recoverEffect i s) := by simp [recoverEffect]

@[simp] theorem cmdPartitionRecover_keeps (r : Req) (t : Nat) (s : State) :
    Keeps s (cmdPartitionRecover r t s) := by simp [cmdPartitionRecover]

@[simp] theorem acceptRequest_keeps (r : Req) (i t : Nat) (isQuery : Bool) (generator maxNew stream : Nat)
    (p : Sampling) (o : TextOptions) (s : State) : Keeps s (acceptRequest r i t isQuery generator maxNew stream p o s) := by
  unfold acceptRequest
  split <;> simp

@[simp] theorem cmdQuerySubmit_keeps (r : Req) (t : Nat) (s : State) :
    Keeps s (cmdQuerySubmit r t s) := by simp [cmdQuerySubmit]

@[simp] theorem cmdGenerateSubmit_keeps (r : Req) (t : Nat) (s : State) :
    Keeps s (cmdGenerateSubmit r t s) := by simp [cmdGenerateSubmit]

@[simp] theorem addControl_keeps (i t : Nat) (c : Ctx) (k : Code) (spill : Option (Nat × Nat × Nat)) (s : State) :
    Keeps s (addControl i t c k spill s) := by simp [addControl]

@[simp] theorem cmdRequestCancel_keeps (r : Req) (t : Nat) (s : State) : Keeps s (cmdRequestCancel r t s) :=
  runCmd_keeps (fun t s => by split <;> simp) ..

@[simp] theorem cmdRequestPause_keeps (r : Req) (t : Nat) (s : State) : Keeps s (cmdRequestPause r t s) :=
  runCmd_keeps (fun t s => by split <;> simp) ..

@[simp] theorem cmdRequestResume_keeps (r : Req) (t : Nat) (s : State) : Keeps s (cmdRequestResume r t s) :=
  runCmd_keeps (fun t s => by split <;> simp) ..

/-! ### Machine/Fills -/

@[simp] theorem endThose_keeps (s : State) (i : Nat) (st : Status) (f : Ctx → Bool) :
    Keeps s (endThose s i st f) := by simp [endThose]

@[simp] theorem dropModelLaunches_keeps (s : State) (i id : Nat) :
    Keeps s (dropModelLaunches s i id) := by simp [dropModelLaunches]

@[simp] theorem faultCmds_keeps (s : State) (cs : List Cmd) : Keeps s (faultCmds s cs) := by simp [faultCmds]

@[simp] theorem shardGone_keeps (s : State) (i : Nat) (x : Index) : Keeps s (shardGone s i x) :=
  foldl_keeps (fun s y => by dsimp only; split <;> simp) _ s

@[simp] theorem damageOwner_shard_keeps (i id : Nat) (s : State) : Keeps s (damageOwner.shard i id s) := by
  unfold damageOwner.shard
  split <;> simp

@[simp] theorem damageOwner_keeps (s : State) (i pg : Nat) : Keeps s (damageOwner s i pg) := by
  simp only [damageOwner]
  (repeat' split) <;> simp

@[simp] theorem repairStart_keeps (s : State) (i pg : Nat) : Keeps s (repairStart s i pg) := by
  unfold repairStart
  (repeat' split) <;> simp

@[simp] theorem loadEnds_keeps (s : State) (t : Nat) (st : Status) : Keeps s (loadEnds s t st) := by
  unfold loadEnds
  split <;> simp

@[simp] theorem launchFails_keeps (s : State) (launch : Nat) (st : Status) : Keeps s (launchFails s launch st) := by
  unfold launchFails
  split <;> simp

@[simp] theorem spillLost_keeps (s : State) (f : Fill) : Keeps s (spillLost s f) := by
  unfold spillLost
  split <;> simp

@[simp] theorem fillLost_keeps (s : State) (f : Fill) (st : Status) : Keeps s (fillLost s f st) := by
  unfold fillLost
  split <;> simp

@[simp] theorem launchReforms_keeps (s : State) (launch : Nat) : Keeps s (launchReforms s launch) := by
  unfold launchReforms
  split <;> simp

@[simp] theorem fillTaken_keeps (s : State) (f : Fill) : Keeps s (fillTaken s f) := by
  unfold fillTaken
  split <;> simp

@[simp] theorem sweepFills_keeps (s : State) (i : Nat) (own : Bool) : Keeps s (sweepFills s i own) :=
  foldl_keeps (fun s f => by split <;> simp) _ s

@[simp] theorem pageLost_keeps (s : State) (i pg : Nat) : Keeps s (pageLost s i pg) := by
  unfold pageLost
  split <;> simp

@[simp] theorem poisonPage_keeps (s : State) (page : Nat) : Keeps s (poisonPage s page) := by simp [poisonPage]

@[simp] theorem pageError_keeps (s : State) (page : Nat) : Keeps s (pageError s page) := by simp [pageError]

@[simp] theorem fillCharge_keeps (s : State) (f : Fill) (n : Nat) : Keeps s (fillCharge s f n) := by simp [fillCharge]

@[simp] theorem readCorrects_keeps (s : State) (i : Nat) (pages : List Nat) :
    Keeps s (readCorrects s i pages) := by simp [readCorrects]

@[simp] theorem fillPartial_keeps (s : State) (f : Fill) (rd : Nat → Nat → List Byte) : Keeps s (fillPartial s f rd) := by
  unfold fillPartial
  (repeat' split) <;> simp

@[simp] theorem chipFails_keeps (s : State) (f : Fill) : Keeps s (chipFails s f) := by simp [chipFails]

@[simp] theorem repairDone_keeps (s : State) (f : Fill) (i pg : Nat) (rd : Nat → Nat → List Byte) :
    Keeps s (repairDone s f i pg rd) := by
  unfold repairDone
  split <;> simp

@[simp] theorem fillArrived_keeps (s : State) (f : Fill) (rd : Nat → Nat → List Byte) : Keeps s (fillArrived s f rd) := by
  simp only [fillArrived]
  split
  · simp
  · split
    · simp
    · split
      next h => simp [runDesc_keeps h]
      next => simp
  · split
    · split <;> simp
    · simp
  · simp
  · simp
  · simp
  · split <;> simp

@[simp] theorem dropAsked_keeps (s : State) (id : Nat) : Keeps s (dropAsked s id) := ⟨rfl, rfl⟩

@[simp] theorem fillTake_keeps (f : Fill) (data : List Byte) (s : State) : Keeps s (fillTake f data s) := by simp [fillTake]

@[simp] theorem fillComplete_keeps (fill : Nat) (data : List Byte) (s : State) : Keeps s (fillComplete fill data s) := by
  unfold fillComplete
  split <;> simp

@[simp] theorem fillGrows_keeps (s : State) (id : Nat) (bytes : List Byte) : Keeps s (fillGrows s id bytes) := by
  unfold fillGrows
  split <;> simp

@[simp] theorem sourceFails_keeps (s : State) (f : Fill) (st : Status) : Keeps s (sourceFails s f st) := by
  unfold sourceFails
  split <;> simp

@[simp] theorem fillFailed_keeps (fill : Nat) (cause : FillCause) (s : State) : Keeps s (fillFailed fill cause s) := by
  unfold fillFailed
  (repeat' split) <;> simp

@[simp] theorem rowsFail_keeps (s : State) (job comp : Nat) (items : List (Nat × Nat)) (st : Status) :
    Keeps s (rowsFail s job comp items st) := by
  unfold rowsFail
  (repeat' split) <;> simp

@[simp] theorem callFails_keeps (s : State) (c : Call) : Keeps s (callFails s c) := by
  simp only [callFails]
  (repeat' split) <;> simp

@[simp] theorem t2Timeout_keeps (n : Nat) (s : State) : Keeps s (t2Timeout n s) := by
  unfold t2Timeout
  (repeat' split) <;> simp

@[simp] theorem epochReport_keeps (s : State) (i table owner epoch : Nat) :
    Keeps s (epochReport s i table owner epoch) := ⟨rfl, rfl⟩

@[simp] theorem callAnswered_keeps (s : State) (c : Call) (st : Nat) (l : List Byte) : Keeps s (callAnswered s c st l) := by
  simp only [callAnswered]
  (repeat' split) <;> simp

@[simp] theorem replyArrives_keeps (s : State) (src tag : W16) (total : Nat) (bytes : List Byte) :
    Keeps s (replyArrives s src tag total bytes) := by
  unfold replyArrives
  (repeat' split) <;> simp

@[simp] theorem itemAnswer_keeps (i : Nat) (st : Store) (item t : Nat) (s : State) : Keeps s (itemAnswer i st item t s) := by
  unfold itemAnswer
  (repeat' split) <;> simp

@[simp] theorem cmdPeerFetch_keeps (r : Req) (t : Nat) (s : State) : Keeps s (cmdPeerFetch r t s) := by
  refine runCmd_keeps (fun t s => ?_) _ _ _ r t s
  split
  · split <;> simp
  · simp

/-! ### Machine/Cut -/

@[simp] theorem askAgain_keeps (s : State) : Keeps s (askAgain s) := ⟨rfl, rfl⟩

@[simp] theorem decideOne_keeps (e : Nat) (s : State) (r : CutRequest) : Keeps s (decideOne e s r) := by
  simp only [decideOne]
  split <;> simp

@[simp] theorem cutRound_keeps (e : Nat) (pick : CutRequest → Bool) (s : State) :
    Keeps s (cutRound e pick s) := by simp [cutRound]

@[simp] theorem epochEnds_keeps (s : State) : Keeps s (epochEnds s) := ⟨rfl, rfl⟩

@[simp] theorem epochBoundary_keeps (s : State) : Keeps s (epochBoundary s) := by simp [epochBoundary]

@[simp] theorem cutMain_keeps (s : State) : Keeps s (cutMain s) := by simp [cutMain]

@[simp] theorem cutLate_keeps (s : State) : Keeps s (cutLate s) := by simp [cutLate]

@[simp] theorem budgetUpdate_keeps (pavg peak : Nat) (s : State) : Keeps s (budgetUpdate pavg peak s) := ⟨rfl, rfl⟩

@[simp] theorem thermalSample_keeps (temps : List Int) (milliVolts milliAmps coreMilliVolts : Nat) (s : State) :
    Keeps s (thermalSample temps milliVolts milliAmps coreMilliVolts s) := by
  unfold thermalSample
  (repeat' split) <;> simp

@[simp] theorem stallOne_keeps (s : State) (l : Launch) : Keeps s (stallOne s l) := by
  simp only [stallOne]
  (repeat' split) <;> simp

@[simp] theorem regWaits_keeps (s : State) : Keeps s (regWaits s) := by simp [regWaits]

@[simp] theorem tierWait_keeps (s : State) (w : Nat × List Nat) : Keeps s (tierWait s w) := by simp [tierWait]

@[simp] theorem engineWaits_keeps (s : State) : Keeps s (engineWaits s) := by simp [engineWaits]

@[simp] theorem freeCounts_keeps (s : State) : Keeps s (freeCounts s) := by simp [freeCounts]

@[simp] theorem countPasses_keeps (s : State) : Keeps s (countPasses s) := by simp [countPasses]

@[simp] theorem fireDue_keeps (s : State) : Keeps s (fireDue s) := by simp [fireDue]

@[simp] theorem tick_keeps (s : State) : Keeps s (tick s) := by simp [tick]

/-! ### Machine/Health -/

@[simp] theorem retireSegment_keeps (s : State) (g : Nat) : Keeps s (retireSegment s g) := by
  unfold retireSegment
  (repeat' split) <;> simp

@[simp] theorem accessFailed_keeps (s : State) (ticket : Nat) (survive : Bool) : Keeps s (accessFailed s ticket survive) := by
  unfold accessFailed
  split
  · simp
  · split
    · simp
    · split
      · exact Keeps.trans (foldl_keeps (fun s j => by split <;> simp) _ s) (feedUnits_keeps _)
      · split <;> simp

@[simp] theorem landingUe_keeps (g ticket : Nat) (survive : Bool) (s : State) : Keeps s (landingUe g ticket survive s) := by
  simp only [landingUe]
  (repeat' split) <;> simp

@[simp] theorem contextsLost_keeps (s : State) : Keeps s (contextsLost s) := by simp [contextsLost]

@[simp] theorem patrolScrub_keeps (page : Nat) (found : ScrubResult) (s : State) : Keeps s (patrolScrub page found s) := by
  simp only [patrolScrub]
  (repeat' split) <;> simp

@[simp] theorem channelRetire_keeps (c : Nat) (dead : Bool) (s : State) : Keeps s (channelRetire c dead s) := by
  unfold channelRetire
  (repeat' split) <;> simp

@[simp] theorem channelCopied_keeps (c : Nat) (s : State) : Keeps s (channelCopied c s) := by simp [channelCopied]

@[simp] theorem forgetFlows_keeps (s : State) (m : W16) : Keeps s (forgetFlows s m) := ⟨rfl, rfl⟩

@[simp] theorem peerLost_keeps (m : W16) (s : State) : Keeps s (peerLost m s) := by simp [peerLost]

@[simp] theorem peerReinstated_keeps (m : W16) (s : State) : Keeps s (peerReinstated m s) := by simp [peerReinstated]

@[simp] theorem cmdLoopbackSet_keeps (r : Req) (t : Nat) (s : State) :
    Keeps s (cmdLoopbackSet r t s) := by simp [cmdLoopbackSet]

@[simp] theorem loopbackEnd_keeps (i : Nat) (results : List (W64 × W64)) (s : State) : Keeps s (loopbackEnd i results s) := by
  unfold loopbackEnd
  split <;> simp

@[simp] theorem testStands_keeps (s : State) (i : Nat) : Keeps s (testStands s i) := by
  unfold testStands
  split <;> simp

@[simp] theorem cmdSelftestRun_keeps (r : Req) (t : Nat) (s : State) :
    Keeps s (cmdSelftestRun r t s) := by simp [cmdSelftestRun]

@[simp] theorem selftestEffect_keeps (s : State) (i : Nat) (target : Nat) (failed : List Nat) :
    Keeps s (selftestEffect s i target failed) := by
  unfold selftestEffect
  split
  · exact foldl_keeps (fun s n => by split <;> simp) _ s
  · exact foldl_keeps (fun s n => by split <;> simp) _ s
  · simp
  · extract_lets s1 gen
    have h : Keeps s s1 := foldl_keeps (fun s pg => by split <;> simp) _ s
    split <;> simp [h]

@[simp] theorem selftestEnd_keeps (i : Nat) (failed : List Nat) (s : State) : Keeps s (selftestEnd i failed s) := by
  unfold selftestEnd
  split <;> simp

/-! ### Machine/Cores -/

@[simp] theorem dropTicketWork_keeps (s : State) (t : Nat) : Keeps s (dropTicketWork s t) := by simp [dropTicketWork]

@[simp] theorem abortSelftest_keeps (s : State) (i t : Nat) : Keeps s (abortSelftest s i t) := by
  simp only [abortSelftest]
  split <;> simp

@[simp] theorem undoCommand_keeps (s : State) (c : Cmd) : Keeps s (undoCommand s c) := by
  unfold undoCommand
  (repeat' split) <;> simp

@[simp] theorem abortCommand_keeps (s : State) (t : Nat) : Keeps s (abortCommand s t) := by
  unfold abortCommand
  split <;> simp

@[simp] theorem coreRetire_keeps (core : Nat) (ctxs tickets : List Nat) (s : State) :
    Keeps s (coreRetire core ctxs tickets s) := by simp [coreRetire]

/-! ### Machine/Slices -/

@[simp] theorem homeMergeDone_keeps (j : Job) (id : Nat) (s : State) : Keeps s (homeMergeDone j id s) := by
  simp only [homeMergeDone]
  (repeat' split) <;> simp

@[simp] theorem gatherEnds_keeps (j : Job) (s : State) : Keeps s (gatherEnds j s) := by
  unfold gatherEnds
  split <;> simp

@[simp] theorem jobTraffic_keeps (j : Job) (s : State) : Keeps s (jobTraffic j s) := by
  simp only [jobTraffic]
  split <;> simp

@[simp] theorem jobDone_keeps (j : Job) (s0 : State) : Keeps s0 (jobDone j s0) := by
  unfold jobDone
  (repeat' split) <;> simp

@[simp] theorem tallyCorrects_keeps (s : State) (u : EngineUnit) : Keeps s (tallyCorrects s u) := by simp [tallyCorrects]

@[simp] theorem sliceEnd_keeps (u : EngineUnit) (finished : Bool) (s : State) : Keeps s (sliceEnd u finished s) := by
  unfold sliceEnd
  split <;> simp

@[simp] theorem searchFault_keeps (s : State) (id : Nat) : Keeps s (searchFault s id) := by
  unfold searchFault
  (repeat' split) <;> simp

@[simp] theorem stepGivesUp_keeps (s : State) (l : Option Launch) : Keeps s (stepGivesUp s l) := by
  unfold stepGivesUp
  split <;> simp

@[simp] theorem tallyGivesUp_keeps (s : State) (j : Job) : Keeps s (tallyGivesUp s j) := by
  unfold tallyGivesUp
  (repeat' split) <;> simp

@[simp] theorem unitFaults_keeps (u : EngineUnit) (s : State) : Keeps s (unitFaults u s) := by
  unfold unitFaults
  (repeat' split) <;> simp

@[simp] theorem serviceFault_keeps (u : EngineUnit) (s : State) : Keeps s (serviceFault u s) := by
  unfold serviceFault
  split <;> simp

/-! ### Machine/Boundaries -/

@[simp] theorem startHeld_keeps (s : State) (c : Cmd) : Keeps s (startHeld s c) := by
  unfold startHeld
  split <;> simp

@[simp] theorem afterSwitch_keeps (i : Nat) (s s' : State) : Keeps s' (afterSwitch i s s') := by
  unfold afterSwitch
  split <;> simp

@[simp] theorem switchGoes_keeps (s : State) (i : Nat) : Keeps s (switchGoes s i) := by simp [switchGoes]

@[simp] theorem settle_keeps (s : State) : Keeps s (settle s) := by simp [settle]

@[simp] theorem boundaryActs_keeps (i n : Nat) (s : State) : Keeps s (boundaryActs i n s) := by simp [boundaryActs]

@[simp] theorem stepBoundary_keeps (i : Nat) (s0 : State) : Keeps s0 (stepBoundary i s0) := by simp [stepBoundary]

@[simp] theorem zeroedActs_keeps (segment : Nat) (s : State) : Keeps s (zeroedActs segment s) := by simp [zeroedActs]

@[simp] theorem sliceRow_keeps (u : EngineUnit) (finished : Bool) (s : State) : Keeps s (sliceRow u finished s) := by
  unfold sliceRow
  split <;> simp

/-! ### Machine/Mailbox -/

@[simp] theorem cmdNop_keeps (r : Req) (t : Nat) (s : State) : Keeps s (cmdNop r t s) := by simp [cmdNop]

@[simp] theorem cmdResultRelease_keeps (r : Req) (t : Nat) (s : State) :
    Keeps s (cmdResultRelease r t s) := by simp [cmdResultRelease]

@[simp] theorem writeCplHead_keeps (i : Nat) (value : W32) (s : State) :
    Keeps s (writeCplHead i value s) := by simp [writeCplHead]

@[simp] theorem roomWaitEnd_keeps (ticket : Nat) (s : State) : Keeps s (roomWaitEnd ticket s) := by
  unfold roomWaitEnd
  (repeat' split) <;> simp

/-! ### Machine/Registers -/

@[simp] theorem flashError_keeps (s : State) (code : BitVec 4) : Keeps s (flashError s code) := ⟨rfl, rfl⟩

@[simp] theorem flashStart_keeps (op : FlashOp) (s : State) : Keeps s (flashStart op s) := by simp [flashStart]

@[simp] theorem flashEffect_keeps (op : FlashOp) (a : Nat) (deviceOk : Bool) (s : State) :
    Keeps s (flashEffect op a deviceOk s) := by
  unfold flashEffect
  split <;> simp

@[simp] theorem pwrLimitWrite_keeps (value : W32) (s : State) : Keeps s (pwrLimitWrite value s) := by simp [pwrLimitWrite]

@[simp] theorem pwrMeasRead_keeps (nbytes : Nat) (s : State) : Keeps s (pwrMeasRead nbytes s) := by simp [pwrMeasRead]

@[simp] theorem sbModuleIdWrite_keeps (value : W32) (s : State) : Keeps s (sbModuleIdWrite value s) := by simp [sbModuleIdWrite]

@[simp] theorem lcCountRead_keeps (high : Bool) (s : State) : Keeps s (lcCountRead high s) := by simp [lcCountRead]

@[simp] theorem sbLcCountRead_keeps (high : Bool) (nbytes : Nat) (s : State) :
    Keeps s (sbLcCountRead high nbytes s) := by simp [sbLcCountRead]

@[simp] theorem gateArm_keeps (port : Nat) (value : W32) (s : State) : Keeps s (gateArm port value s) := by simp [gateArm]

@[simp] theorem gateCancel_keeps (port : Nat) (value : W32) (s : State) :
    Keeps s (gateCancel port value s) := by simp [gateCancel]

@[simp] theorem gateBankSwitch_keeps (port : Nat) (s : State) : Keeps s (gateBankSwitch port s) := by simp [gateBankSwitch]

@[simp] theorem portCtlWrite_keeps (port : Nat) (value : W32) (s : State) : Keeps s (portCtlWrite port value s) := by
  simp [portCtlWrite]

@[simp] theorem holdLow_keeps (s : State) (off : Nat) (value : W32) : Keeps s (holdLow s off value) := ⟨rfl, rfl⟩

@[simp] theorem linkBlockWrite_keeps (off : Nat) (value : W32) (s : State) : Keeps s (linkBlockWrite off value s) := by
  unfold linkBlockWrite
  split <;> simp

@[simp] theorem gateEntryWrite_keeps (off : Nat) (value : W32) (s : State) :
    Keeps s (gateEntryWrite off value s) := by simp [gateEntryWrite]

@[simp] theorem sbWrite_keeps (off : Nat) (value : W32) (s : State) : Keeps s (sbWrite off value s) := by
  unfold sbWrite
  (repeat' split) <;> simp

@[simp] theorem slotRegWrite_keeps (pair off : Nat) (value : W32) (s : State) : Keeps s (slotRegWrite pair off value s) := by
  unfold slotRegWrite
  split <;> simp

@[simp] theorem page0Write_keeps (fn off : Nat) (value : W32) (s : State) :
    Keeps s (page0Write fn off value s) := by simp [page0Write]

/-! ### Machine/Imger -/

@[simp] theorem slotRead_keeps (pair off : Nat) (s : State) : Keeps s (slotRead pair off s).2 := by simp [slotRead]

@[simp] theorem slotWords_keeps (pair off n : Nat) (s : State) : Keeps s (slotWords pair off n s).2 := by
  induction n generalizing off s with
  | zero => exact ⟨rfl, rfl⟩
  | succ n ih => simp [slotWords, ih]

@[simp] theorem slotReadBytes_keeps (pair off n : Nat) (s : State) :
    Keeps s (slotReadBytes pair off n s).2 := by simp [slotReadBytes]

/-! ### Machine/Arrive -/

@[simp] theorem setAer_keeps (s : State) (fn b : Nat) : Keeps s (setAer s fn b) := ⟨rfl, rfl⟩

@[simp] theorem setUnreach_keeps (s0 : State) (fn : Nat) : Keeps s0 (setUnreach s0 fn) := ⟨rfl, rfl⟩

@[simp] theorem readDone_keeps (s : State) (fn tag : Nat) (bs : List Byte) : Keeps s (readDone s fn tag bs) := ⟨rfl, rfl⟩

@[simp] theorem readUnreach_keeps (s : State) (fn tag len : Nat) : Keeps s (readUnreach s fn tag len) := by simp [readUnreach]

@[simp] theorem endRelays_keeps (s : State) (f : Relay → Bool) : Keeps s (endRelays s f) := ⟨rfl, rfl⟩

@[simp] theorem dropRelay_keeps (s : State) (tag : Nat) : Keeps s (dropRelay s tag) := ⟨rfl, rfl⟩

@[simp] theorem sendReadData_keeps (s : State) (dest : W16) (host : Bool) (tag : W16) (bs : List Byte) :
    Keeps s (sendReadData s dest host tag bs) := by simp [sendReadData]

@[simp] theorem noteVia_keeps (s : State) (pair : Nat) (b : W16) : Keeps s (noteVia s pair b) := ⟨rfl, rfl⟩

@[simp] theorem mboxReadAt_keeps (s : State) (f : Frame) : Keeps s (mboxReadAt s f) := by simp [mboxReadAt]

@[simp] theorem readDataAt_keeps (s : State) (f : Frame) : Keeps s (readDataAt s f) := by
  unfold readDataAt
  (repeat' split) <;> simp

@[simp] theorem denyPeer_keeps (s : State) (f : Frame) : Keeps s (denyPeer s f) := by simp [denyPeer]

@[simp] theorem messageAt_keeps (s : State) (f : Frame) : Keeps s (messageAt s f) := by simp [messageAt]

@[simp] theorem hostWriteAt_keeps (s : State) (f : Frame) : Keeps s (hostWriteAt s f) := by
  unfold hostWriteAt
  split <;> simp

@[simp] theorem hostReadAt_keeps (s : State) (f : Frame) : Keeps s (hostReadAt s f) := by simp [hostReadAt]

/-! ### Machine/Bridge -/

@[simp] theorem flushMsix_keeps (s : State) (fn : Nat) : Keeps s (flushMsix s fn) := by simp [flushMsix]

@[simp] theorem msixWrite_keeps (s : State) (fn off : Nat) (data : List Byte) :
    Keeps s (msixWrite s fn off data) := by simp [msixWrite]

@[simp] theorem relayRead_keeps (s : State) (e : Slot) (reg : Bool) (off n tag : Nat) :
    Keeps s (relayRead s e reg off n tag) := by simp [relayRead]

@[simp] theorem windowRead_keeps (fn bar off n : Nat) (s : State) : Keeps s (windowRead fn bar off n s) := by
  unfold windowRead
  (repeat' split) <;> simp

@[simp] theorem relayTimeout_keeps (tag : Nat) (s : State) : Keeps s (relayTimeout tag s) := by
  unfold relayTimeout
  split <;> simp

@[simp] theorem functionReset_keeps (fn : Nat) (s : State) : Keeps s (functionReset fn s) := by simp [functionReset]

@[simp] theorem linkDown_keeps (s : State) : Keeps s (linkDown s) := by simp [linkDown]

@[simp] theorem linkUp_keeps (gtps width : Nat) (s : State) : Keeps s (linkUp gtps width s) := by simp [linkUp]

@[simp] theorem configWrite_keeps (w : CfgWrite) (s : State) : Keeps s (configWrite w s) := by
  unfold configWrite
  (repeat' split) <;> simp

@[simp] theorem asksEnd_keeps (s : State) (h : HostReadSt) : Keeps s (asksEnd s h) := ⟨rfl, rfl⟩

@[simp] theorem readBrings_keeps (s : State) (h : HostReadSt) (ok : Bool) (data : List Byte) :
    Keeps s (readBrings s h ok data) := by
  unfold readBrings
  (repeat' split) <;> simp

@[simp] theorem hostCompletion_keeps (tag : Nat) (ok : Bool) (data : List Byte) (s : State) :
    Keeps s (hostCompletion tag ok data s) := by
  unfold hostCompletion
  split <;> simp

/-! ### Machine/Links -/

@[simp] theorem sendData_keeps (s : State) (i q : Nat) (f : Frame) : Keeps s (sendData s i q f) := by simp [sendData]

@[simp] theorem sendCtl_keeps (s : State) (i : Nat) : Keeps s (sendCtl s i) := ⟨rfl, rfl⟩

@[simp] theorem sendAgain_keeps (s : State) (i : Nat) : Keeps s (sendAgain s i) := ⟨rfl, rfl⟩

@[simp] theorem noteCredits_keeps (s : State) (i : Nat) : Keeps s (noteCredits s i) :=
  foldl_keeps (fun s c => by dsimp only; split <;> simp) _ s

@[simp] theorem takeHead_keeps (s : State) (i q : Nat) (t : W64) (flows : List Flow) :
    Keeps s (takeHead s i q t flows) := ⟨rfl, rfl⟩

@[simp] theorem sendQueued_keeps (s0 : State) (i : Nat) : Keeps s0 (sendQueued s0 i) := by
  simp only [sendQueued]
  (repeat' split) <;> simp

@[simp] theorem frameTransmit_keeps (i : Nat) (s : State) : Keeps s (frameTransmit i s) := by
  simp only [frameTransmit]
  (repeat' split) <;> simp

@[simp] theorem received_keeps (s : State) (i n : Nat) : Keeps s (received s i n) := ⟨rfl, rfl⟩

@[simp] theorem forward_keeps (s : State) (f : Frame) : Keeps s (forward s f) := by simp [forward]

@[simp] theorem helloTaken_keeps (i : Nat) (neighbour : W16) (seq : BitVec 12) (s : State) :
    Keeps s (helloTaken i neighbour seq s) := by simp [helloTaken]

@[simp] theorem vectorTaken_keeps (i : Nat) (vec : List (W16 × Nat)) (seq : BitVec 12) (s : State) :
    Keeps s (vectorTaken i vec seq s) := by simp [vectorTaken]

@[simp] theorem vectorSend_keeps (s : State) : Keeps s (vectorSend s) := by simp [vectorSend]

@[simp] theorem retireLane_keeps (i : Nat) (lane : Nat) (detecting : Bool) (s : State) :
    Keeps s (retireLane i lane detecting s) := by
  simp [retireLane]

@[simp] theorem retireTaken_keeps (i lane : Nat) (seq : BitVec 12) (s : State) :
    Keeps s (retireTaken i lane seq s) := by simp [retireTaken]

@[simp] theorem laneFails_keeps (s : State) (i k : Nat) : Keeps s (laneFails s i k) := ⟨rfl, rfl⟩

@[simp] theorem flitDiscard_keeps (i : Nat) (uncorrectable : Bool) (s : State) :
    Keeps s (flitDiscard i uncorrectable s) := by simp [flitDiscard]

@[simp] theorem portUp_keeps (i : Nat) (s : State) : Keeps s (portUp i s) := by
  simp only [portUp]
  split
  · simp
  · split <;> simp

end Sys2Proof.Laws
end

section
/-! SUPPORT. LIFECYCLE_ADVANCE: the records a transition drops or writes, and what it does to the fuses, read back or not. The
section settles O25. -/

namespace Sys2Proof.Laws

open Sys2Proof Sys2Proof.Machine

/-! ### The fuses and records of a transition (16 R452, R453) -/

theorem transitionRecords_frame (s : State) (target : Nat) (tk : List Byte) :
    ∃ mem, transitionRecords s target tk = { s with flash := { s.flash with mem } } := by
  unfold transitionRecords
  split
  · exact ⟨_, rfl⟩
  · split
    · exact ⟨_, rfl⟩
    · split
      · exact ⟨_, rfl⟩
      · exact ⟨_, rfl⟩

/-! ### LIFECYCLE_ADVANCE (16 R451, R452) -/

section
variable {l : List Byte} {t : Nat} {s : State}

/-- The transition asked for is one of the vendor's. -/
def vendorAsked (s : State) (l : List Byte) : Bool := transitionOf s.life s.fuses.lifeCount (fld l 0 1) == some true

/-- A vendor's transition without a token that holds. -/
def tokenMissing (s : State) (l : List Byte) : Bool :=
  vendorAsked s l && !tokenHolds s (fld l 0 1) (bytesAt l 8 (fld l 4 4))

/-- The records that a transition drops or writes. -/
def transitioned (s : State) (l : List Byte) : State := transitionRecords s (fld l 0 1) (bytesAt l 8 (fld l 4 4))

theorem lifecycleEffect_of_tokenMissing (h : tokenMissing s l = true) (ok : Bool) :
    lifecycleEffect l ok t s = finishPlain s t .auth 0 := if_pos h

/-- The fuses read back: the count is the new one, and SCRAP has blown the whole device secret. -/
theorem lifecycleEffect_of_blown (h : tokenMissing s l = false) : lifecycleEffect l true t s = finishPlain
    { transitioned s l with
      fuses := { s.fuses with lifeCount := newCount s (fld l 0 1)
                              uds := if fld l 0 1 = 4 then BitVec.allOnes 384 else s.fuses.uds }
      sec := { s.sec with transition := some (some s.now) } } t .ok (fld l 0 1) := by
  obtain ⟨mem, hmem⟩ := transitionRecords_frame s (fld l 0 1) (bytesAt l 8 (fld l 4 4))
  refine (if_neg (by simpa [tokenMissing, vendorAsked] using h)).trans ?_
  simp only [transitioned, hmem, if_true]

/-- The count after a blow that does not read back (log 49). -/
def misreadCount (s : State) (target : Nat) : Nat :=
  s.fuses.lifeCount + (Config.freeValue s.freeIdx).toNat % (newCount s target - s.fuses.lifeCount + 1)

theorem lifecycleEffect_of_misread (h : tokenMissing s l = false) : lifecycleEffect l false t s = finishPlain
    { transitioned s l with
      fuses := { s.fuses with lifeCount := misreadCount s (fld l 0 1) }
      freeIdx := s.freeIdx + 1
      sec := { s.sec with transition := some none } } t .fault 0 := by
  obtain ⟨mem, hmem⟩ := transitionRecords_frame s (fld l 0 1) (bytesAt l 8 (fld l 4 4))
  refine (if_neg (by simpa [tokenMissing, vendorAsked] using h)).trans ?_
  simp only [transitioned, hmem, misreadCount, Bool.false_eq_true, if_false]

theorem lifeCount_le_newCount (s : State) (target : Nat) : s.fuses.lifeCount ≤ newCount s target := Nat.le_max_left _ _

theorem misreadCount_le (s : State) (target : Nat) : misreadCount s target ≤ newCount s target := by
  have h : _ % (newCount s target - s.fuses.lifeCount + 1) < _ :=
    Nat.mod_lt (Config.freeValue s.freeIdx).toNat (Nat.succ_pos _)
  have := lifeCount_le_newCount s target
  unfold misreadCount
  omega

end

/-! ### The command -/

section
variable {r : Req} {s : State} {vendor : Bool}

theorem transitionOf_counted (target : Nat) :
    transitionOf (counted r s).life (counted r s).fuses.lifeCount target = transitionOf s.life s.fuses.lifeCount target := rfl

/-- A transition of well-formed operands has its effect. -/
theorem exec_lifecycleAdvance (h : Accepted .lifecycleAdvance r s) (h8 : 8 ≤ r.pay.length) (htarget : fld r.pay 0 1 < 5)
    (hz : zeroAt r.pay 1 3 = true) (hend : 8 + fld r.pay 4 4 ≤ r.pay.length) (hun : allUnbound s = true)
    (htr : transitionOf s.life s.fuses.lifeCount (fld r.pay 0 1) = some vendor)
    (htok : if vendor = true then tokenForm s.life (bytesAt r.pay 8 (fld r.pay 4 4)) = true else fld r.pay 4 4 = 0) (ok : Bool) :
    exec (.lifecycleAdvance r ok) s = .next (lifecycleEffect r.pay ok s.nextId (came .lifecycleAdvance r s)) := by
  refine (live_enter_accepted h (cmdLifecycleAdvance ok)).trans (congrArg _ ?_)
  refine runCmd_accepted h rfl ?_ ?_ rfl rfl
  · simp only [transitionOf_counted, htr]
    cases vendor with
    | true =>
      have hform : tokenForm (counted r s).life (bytesAt r.pay 8 (fld r.pay 4 4)) = true := htok
      simp [has, h8, htarget, hz, hend, hform]
    | false =>
      have hnone : fld r.pay 4 4 = 0 := htok
      simp [has, h8, htarget, hz, hnone]
  · rw [transitionOf_counted, htr, show allUnbound (counted r s) = true from hun]
    rfl

theorem vendorAsked_of_transition {l : List Byte} (h : transitionOf s.life s.fuses.lifeCount (fld l 0 1) = some vendor) :
    vendorAsked s l = vendor := by
  cases vendor <;> simp [vendorAsked, h]

end

/-- Settles O25. A vendor's transition needs its token; any that goes on blows the fuses, and they read back or do not. -/
theorem lifecycleTransition : Obligations.LifecycleTransition := by
  unfold Obligations.LifecycleTransition
  intro r s vendor h target tk h8 htarget hz hend hun htr htok u
  have hexec := exec_lifecycleAdvance h h8 htarget hz hend hun htr htok
  have hvendor : vendorAsked (came .lifecycleAdvance r s) r.pay = vendor := vendorAsked_of_transition htr
  have hmissing : tokenMissing (came .lifecycleAdvance r s) r.pay = (vendor && !tokenHolds s target tk) := by
    rw [tokenMissing, hvendor]
    rfl
  refine ⟨?_, fun ⟨hv, hbad⟩ ok => ?_, fun hgood => ?_⟩
  · obtain ⟨mem, hmem⟩ := transitionRecords_frame (came .lifecycleAdvance r s) target tk
    simp only [u, hmem]
    rfl
  · rw [hexec, lifecycleEffect_of_tokenMissing (by simp [hmissing, hv, hbad])]
  · have hheld : tokenMissing (came .lifecycleAdvance r s) r.pay = false := by
      rw [hmissing]
      cases vendor with
      | false => rfl
      | true => simp [hgood rfl]
    refine ⟨?_, fun _ => ⟨misreadCount s target, Nat.le_add_right .., misreadCount_le s target, ?_⟩⟩
    · rw [hexec, lifecycleEffect_of_blown hheld]
      rfl
    · rw [hexec, lifecycleEffect_of_misread hheld]
      rfl

end Sys2Proof.Laws
end

section
/-! SUPPORT. The operations that may blow a fuse: a transition of the life cycle, the boot of a scrapped module and the end of the
wipe, and what runs a command that may be such a transition. The section settles O56 and O59. -/

namespace Sys2Proof.Laws

open Sys2Proof Sys2Proof.Machine

/-! ### What blows a fuse (16 R431, R452, R455) -/

theorem FusesGain.refl (f : Fuses) : FusesGain f f := by simp [FusesGain]

theorem FusesGain.trans {f g h : Fuses} (hfg : FusesGain f g) (hgh : FusesGain g h) : FusesGain f h := by
  obtain ⟨u, k, v, c, e⟩ := hfg
  obtain ⟨u', k', v', c', e'⟩ := hgh
  refine ⟨?_, ?_, Nat.le_trans v v', Nat.le_trans c c', by rw [e', e]⟩
  · rw [← u, BitVec.and_assoc, u']
  · rw [← k, BitVec.and_assoc, k']

/-- The queue of `t` is that of `s`, and no fuse blown in `s` is unblown in `t`. -/
structure Gains (s t : State) : Prop where
  queue : t.pending = s.pending
  fuses : FusesGain s.fuses t.fuses

theorem Keeps.gains {s t : State} (h : Keeps s t) : Gains s t := ⟨h.1, h.2 ▸ FusesGain.refl _⟩

theorem Gains.refl (s : State) : Gains s s := ⟨rfl, FusesGain.refl _⟩

theorem Gains.trans {s t u : State} (h : Gains s t) (h' : Gains t u) : Gains s u :=
  ⟨h'.queue.trans h.queue, FusesGain.trans h.fuses h'.fuses⟩

theorem Gains.keeps {s t u : State} (h : Gains s t) (h' : Keeps t u) : Gains s u := h.trans (Keeps.gains h')

theorem Gains.after {s t u : State} (h : Gains t u) (h' : Keeps s t) : Gains s u := (Keeps.gains h').trans h

theorem Gains.finishPlain {s u : State} (h : Gains s u) (t : Nat) (st : Status) (d : Nat) : Gains s (finishPlain u t st d) :=
  h.keeps (finishPlain_keeps ..)

theorem foldl_gains {α : Type} {f : State → α → State} (h : ∀ s a, Gains s (f s a)) (l : List α) (s : State) :
    Gains s (l.foldl f s) := by
  induction l generalizing s with
  | nil => exact Gains.refl s
  | cons a l ih => exact (h s a).trans (ih _)

/-- More bits of the device secret and a higher life-cycle count are a gain. -/
theorem FusesGain.of_blown {f : Fuses} {uds : Digest384} {count : Nat} (hu : f.uds &&& uds = f.uds) (hc : f.lifeCount ≤ count) :
    FusesGain f { f with uds, lifeCount := count } :=
  ⟨hu, BitVec.and_self, Nat.le_refl _, hc, rfl⟩

theorem finishUds_gains (s : State) : Gains s (finishUds s) := by
  unfold finishUds
  split
  · exact ⟨rfl, FusesGain.of_blown BitVec.and_allOnes (Nat.le_refl _)⟩
  · exact Gains.refl s

theorem raiseFuses_gains (s : State) : Gains s (raiseFuses s) := by
  obtain ⟨v, k, h, hv, hk⟩ := raiseFuses_frame s
  rw [h]
  exact ⟨rfl, by simp [FusesGain, hv, hk]⟩

/-- A transition blows bits of the life-cycle count, and of the device secret. -/
theorem lifecycleEffect_gains (l : List Byte) (ok : Bool) (t : Nat) (s : State) : Gains s (lifecycleEffect l ok t s) := by
  have hq : (transitioned s l).pending = s.pending := (transitionRecords_keeps ..).1
  cases h : tokenMissing s l with
  | true =>
    rw [lifecycleEffect_of_tokenMissing h]
    exact Keeps.gains (finishPlain_keeps ..)
  | false =>
    cases ok with
    | true =>
      rw [lifecycleEffect_of_blown h]
      refine Gains.finishPlain ?_ ..
      refine ⟨hq, FusesGain.of_blown ?_ (lifeCount_le_newCount ..)⟩
      split
      · exact BitVec.and_allOnes
      · exact BitVec.and_self
    | false =>
      rw [lifecycleEffect_of_misread h]
      refine Gains.finishPlain ?_ ..
      exact ⟨hq, FusesGain.of_blown BitVec.and_self (Nat.le_add_right ..)⟩

/-! ### Commands that may blow one -/

theorem runCmd_gains {eff : Nat → State → State} (he : ∀ t s, Gains s (eff t s)) (c : Code) (part : Option Nat)
    (need : Need) (r : Req) (t : Nat) (s : State) : Gains s (runCmd c part need eff r t s) := by
  unfold runCmd
  split
  · exact he t s
  · extract_lets s1
    have h1 : Keeps s s1 := ⟨rfl, rfl⟩
    split
    · exact Keeps.gains (by simp [h1])
    · split
      · exact Keeps.gains h1
      · exact (he t s1).after h1

theorem enter_gains {c : Code} {start : Req → Nat → State → State} (hs : ∀ r t s, Gains s (start r t s)) (r : Req) (s : State) :
    Gains s (enter c start r s) := by
  simp only [enter]
  split
  · exact Gains.refl s
  · split
    · exact Keeps.gains (by simp)
    · split
      · exact Keeps.gains ⟨rfl, rfl⟩
      · exact (hs ..).after ⟨rfl, rfl⟩

theorem cmdLifecycleAdvance_gains (ok : Bool) (r : Req) (t : Nat) (s : State) : Gains s (cmdLifecycleAdvance ok r t s) :=
  runCmd_gains (lifecycleEffect_gains r.pay ok) ..

theorem startCode_gains (c : Code) (r : Req) (t : Nat) (s : State) : Gains s (startCode c r t s) := by
  cases c
  case lifecycleAdvance => exact (cmdLifecycleAdvance_gains ..).after ⟨rfl, rfl⟩
  all_goals exact Keeps.gains (by simp [startCode])

theorem takeRequest_gains (code : Nat) (r : Req) (s : State) : Gains s (takeRequest code r s) := by
  unfold takeRequest
  split
  · exact enter_gains (startCode_gains _) r s
  · exact Keeps.gains (by simp)

theorem takeRing_gains (pair n : Nat) (s : State) : Gains s (takeRing pair n s) := by
  induction n generalizing s with
  | zero => exact Gains.refl s
  | succ n ih =>
    unfold takeRing
    extract_lets p q
    split
    · exact Gains.refl s
    · refine Gains.trans ?_ (ih _)
      exact (takeRequest_gains ..).after ⟨rfl, rfl⟩

theorem doorbell_gains (pair : Nat) (v : W32) (s : State) : Gains s (doorbell pair v s) := by
  unfold doorbell
  extract_lets p v
  split
  · exact Gains.refl s
  · split
    · exact Keeps.gains ⟨rfl, rfl⟩
    · split
      · exact Keeps.gains ⟨rfl, rfl⟩
      · exact (takeRing_gains ..).after ⟨rfl, rfl⟩

theorem fencedStart_gains (pair : Nat) (s : State) : Gains s (fencedStart pair s) := by
  unfold fencedStart
  split
  · exact Gains.refl s
  · split
    · exact (startCode_gains ..).after ⟨rfl, rfl⟩
    · exact Gains.refl s

/-! ### Registers and the relayed accesses to them -/

theorem slotWrite_gains (pair off : Nat) (v : W32) (s : State) : Gains s (slotWrite pair off v s) := by
  unfold slotWrite
  split
  · exact Gains.refl s
  · split
    · exact doorbell_gains ..
    · exact Keeps.gains (by simp)

theorem registerWrite_gains (space : RegSpace) (off : Nat) (v : W32) (s : State) : Gains s (registerWrite space off v s) := by
  unfold registerWrite
  split
  · exact slotWrite_gains ..
  · exact Keeps.gains (page0Write_keeps ..)
  · exact Keeps.gains (sbWrite_keeps ..)

theorem slotWriteBytes_gains (pair off : Nat) (data : List Byte) (s : State) : Gains s (slotWriteBytes pair off data s) :=
  foldl_gains (fun s (e : Nat × W32) => slotWrite_gains pair e.1 e.2 s) _ s

theorem relayWrite_gains (s : State) (e : Slot) (reg : Bool) (off : Nat) (data : List Byte) :
    Gains s (relayWrite s e reg off data) := by
  unfold relayWrite
  split
  · split
    · exact slotWriteBytes_gains ..
    · exact Keeps.gains (by simp)
  · exact Keeps.gains (by simp)

theorem windowWrite_gains (fn bar off : Nat) (data : List Byte) (s : State) : Gains s (windowWrite fn bar off data s) := by
  unfold windowWrite
  split
  · exact Gains.refl s
  · split
    · exact Keeps.gains (setAer_keeps ..)
    · split
      · exact Keeps.gains (foldl_keeps (fun s e => page0Write_keeps ..) _ s)
      · exact Keeps.gains (msixWrite_keeps ..)
      · exact Gains.refl s
      · exact relayWrite_gains ..
      · exact relayWrite_gains ..
      · exact Gains.refl s

/-! ### Frames that bring a command or a write -/

theorem mboxWriteAt_gains (s : State) (f : Frame) : Gains s (mboxWriteAt s f) := by
  unfold mboxWriteAt
  extract_lets pair s1
  split
  · exact Keeps.gains (sendReadData_keeps ..)
  · split
    · exact (slotWriteBytes_gains ..).after (noteVia_keeps ..)
    · exact Keeps.gains (by simp [s1])

theorem placePeer_gains (s : State) (pair : Nat) (x : PeerPartial) (off : Nat) : Gains s (placePeer s pair x off) :=
  (takeRequest_gains ..).after ⟨rfl, rfl⟩

theorem placeArrived_gains (pair n : Nat) (s : State) : Gains s (placeArrived pair n s) := by
  induction n generalizing s with
  | zero => exact Gains.refl s
  | succ n ih =>
    unfold placeArrived
    split
    · exact Gains.refl s
    · split
      · exact Gains.refl s
      · refine Gains.trans ?_ (ih _)
        exact (placePeer_gains ..).after ⟨rfl, rfl⟩

theorem placeAll_gains (pair : Nat) (s : State) : Gains s (placeAll pair s) := placeArrived_gains ..

theorem peerReqAt_gains (s : State) (f : Frame) : Gains s (peerReqAt s f) := by
  unfold peerReqAt
  extract_lets pair
  split
  · exact Keeps.gains (denyPeer_keeps ..)
  · exact (placeAll_gains ..).after ⟨rfl, rfl⟩

theorem peerDataAt_gains (s : State) (f : Frame) : Gains s (peerDataAt s f) := by
  unfold peerDataAt
  extract_lets pair
  split
  · exact Gains.refl s
  · split
    · exact (placeAll_gains ..).after ⟨rfl, rfl⟩
    · exact Gains.refl s

theorem deliverFrame_gains (s : State) (f : Frame) : Gains s (deliverFrame s f) := by
  unfold deliverFrame
  cases f.kind
  case mboxWrite => exact mboxWriteAt_gains s f
  case peerReq => exact peerReqAt_gains s f
  case peerData => exact peerDataAt_gains s f
  all_goals exact Keeps.gains (by simp)

theorem drainEarly_gains (k : W16 × Nat) (n : Nat) (s : State) : Gains s (drainEarly k n s) := by
  induction n generalizing s with
  | zero => exact Gains.refl s
  | succ n ih =>
    unfold drainEarly
    extract_lets exp
    split
    · exact Gains.refl s
    · refine Gains.trans ?_ (ih _)
      exact (deliverFrame_gains ..).after ⟨rfl, rfl⟩

theorem flowArrive_gains (s : State) (f : Frame) : Gains s (flowArrive s f) := by
  unfold flowArrive
  extract_lets k exp s1
  split
  · refine Gains.trans ?_ (drainEarly_gains k _ s1)
    exact (deliverFrame_gains ..).after ⟨rfl, rfl⟩
  · split
    · exact Keeps.gains ⟨rfl, rfl⟩
    · exact Gains.refl s

theorem receive_gains (kind : FrameKind) (i : Nat) (f : Frame) (s : State) : Gains s (receive kind i f s) := by
  unfold receive
  extract_lets p s1
  have h1 : Keeps s s1 := received_keeps ..
  split
  · exact Gains.refl s
  · split
    · exact (flowArrive_gains s1 f).after h1
    · exact Keeps.gains (h1.trans (forward_keeps s1 f))

theorem receiveBlaze_gains (dir i : Nat) (f : Frame) (s : State) : Gains s (receiveBlaze dir i f s) := by
  unfold receiveBlaze
  split
  · exact receive_gains ..
  · exact Gains.refl s

/-! ### Acknowledgements that make room for one -/

theorem peerAcked_gains (s : State) (pair : Nat) : Gains s (peerAcked s pair) := by
  unfold peerAcked
  extract_lets p s1
  split
  · exact Gains.refl s
  · exact (placeAll_gains ..).after (drainRecords_keeps pair _ s1)

theorem takeAck_gains (s : State) (i : Nat) (ack : BitVec 12) : Gains s (takeAck s i ack) := by
  unfold takeAck
  split
  · exact Gains.refl s
  · extract_lets s1
    · exact (foldl_gains peerAcked_gains _ _).after ⟨rfl, rfl⟩

theorem nakTaken_gains (i : Nat) (seq : BitVec 12) (s : State) : Gains s (nakTaken i seq s) := by
  unfold nakTaken
  extract_lets p s1
  split
  · exact Gains.refl s
  · exact (takeAck_gains s i seq).keeps (by simp [s1])

theorem creditReturn_gains (i : Nat) (ack : BitVec 12) (channel hop flits : Nat) (s : State) :
    Gains s (creditReturn i ack channel hop flits s) := by
  unfold creditReturn
  split
  · exact Gains.refl s
  · exact (takeAck_gains s i ack).keeps (by simp)

/-! ### Boot -/

theorem bootRom_gains (s : State) : Gains s (bootRom s) := by
  refine (finishUds_gains s).keeps ?_
  unfold bootRom
  extract_lets u ca cb fa fb
  split
  · exact ⟨rfl, rfl⟩
  · simp [u]

theorem resetRelease_gains (pass : Bool) (s : State) : Gains s (resetRelease pass s) := by
  simp only [resetRelease]
  split
  · exact Gains.refl s
  · split
    · exact Keeps.gains ⟨rfl, rfl⟩
    · split
      · exact Keeps.gains ⟨rfl, rfl⟩
      · exact (bootRom_gains _).after ⟨rfl, rfl⟩

theorem moduleReady_gains (s : State) : Gains s (moduleReady s) := by
  unfold moduleReady
  split
  · exact Gains.refl s
  · exact (raiseFuses_gains _).after (by simp)

theorem flashOpDone_gains (ok : Bool) (s : State) : Gains s (flashOpDone ok s) := by
  simp only [flashOpDone]
  split
  · exact Gains.refl s
  · split
    · exact (bootRom_gains _).after (by simp)
    · exact Keeps.gains (by simp)

/-! ### Every row -/

theorem live_gains {s t u : State} (h : Gains s t) (hl : live s t = .next u) : Gains s u := by
  unfold live at hl
  split at hl
  · cases hl
  · cases hl
    exact h

/-- Whatever a row does, the queue stays and no fuse is unblown. -/
theorem exec_gains {c : Instr} {s t : State} (h : exec c s = .next t) : Gains s t := by
  cases c
  case powerOn => cases h; exact Keeps.gains (powerOn_keeps ..)
  case powerLoss => cases h; exact Keeps.gains (powerLoss_keeps ..)
  case resetRelease => exact live_gains (resetRelease_gains ..) h
  case moduleReady => exact live_gains (moduleReady_gains ..) h
  case doorbell => exact live_gains (doorbell_gains ..) h
  case fencedCommandStart => exact live_gains (fencedStart_gains ..) h
  case flashOpDone => exact live_gains (flashOpDone_gains ..) h
  case registerWrite => exact live_gains (registerWrite_gains ..) h
  case lifecycleAdvance => exact live_gains (enter_gains (cmdLifecycleAdvance_gains _) ..) h
  case hostWindowWrite => exact live_gains (windowWrite_gains ..) h
  case mboxWrite => exact live_gains (receive_gains ..) h
  case mboxRead => exact live_gains (receive_gains ..) h
  case readData => exact live_gains (receive_gains ..) h
  case peerReq => exact live_gains (receive_gains ..) h
  case peerData => exact live_gains (receive_gains ..) h
  case message => exact live_gains (receive_gains ..) h
  case hostWrite => exact live_gains (receive_gains ..) h
  case hostRead => exact live_gains (receive_gains ..) h
  case blazeUp => exact live_gains (receiveBlaze_gains ..) h
  case blazeDown => exact live_gains (receiveBlaze_gains ..) h
  case nak => exact live_gains (nakTaken_gains ..) h
  case creditReturn => exact live_gains (creditReturn_gains ..) h
  case arrayResidueFault => exact live_gains (Keeps.gains (by split <;> simp)) h
  case taskWatchdog => exact live_gains (Keeps.gains (by split <;> simp)) h
  case sapwoodBudgetExpiry => exact live_gains (Keeps.gains (by split <;> simp)) h
  case moveDescriptorStart => exact live_gains (Keeps.gains (by split <;> simp)) h
  all_goals exact live_gains (Keeps.gains (by simp)) h

/-- Settles O56: what every row keeps is its last claim. -/
theorem execLeavesQueue : Obligations.ExecLeavesQueue := by
  unfold Obligations.ExecLeavesQueue
  exact fun c s t h => (exec_gains h).queue

/-- Settles O59: a step is a row of the table, or a count of the Launch Counter, which blows nothing. -/
theorem fusesNeverUnblown : Obligations.FusesNeverUnblown := by
  unfold Obligations.FusesNeverUnblown
  intro s t h
  cases hp : s.pending with
  | nil =>
    rw [step_of_empty hp] at h
    cases h
    exact (Keeps.gains (tick_keeps s)).fuses
  | cons c rest =>
    rw [step_of_front hp] at h
    exact (exec_gains h).fuses

end Sys2Proof.Laws
end

section
/-! SUPPORT. The flash behind the side-band window: how an operation starts or is refused, and what its end leaves in the flash
and in its buffer. The section settles O14. -/

namespace Sys2Proof.Laws

open Sys2Proof Sys2Proof.Machine

/-! ### Bytes of the flash -/

theorem freeBytes_length (s : State) (n : Nat) : (freeBytes s n).length = n := by simp [freeBytes]

/-- What is written at an address leaves the bytes before it and after it. -/
theorem read_flashWrite_out {s : State} {a n x : Nat} {bs : List Byte} (hlen : bs.length = n) (hx : x < a ∨ a + n ≤ x) :
    Mem.read 0xFF (flashWrite s a bs).flash.mem x = Mem.read 0xFF s.flash.mem x :=
  Mem.read_writeRange_out s.flash.mem a bs x (hlen ▸ hx)

/-- What is erased leaves the bytes before it and after it. -/
theorem read_flashErase_out {s : State} {a n x : Nat} (hx : x < a ∨ a + n ≤ x) :
    Mem.read 0xFF (flashErase s a n).flash.mem x = Mem.read 0xFF s.flash.mem x := by
  refine (Mem.read_clearRange s.flash.mem a n x).trans (if_neg ?_)
  omega

theorem read_flashErase_in {s : State} {a n k : Nat} (hk : k < n) : Mem.read 0xFF (flashErase s a n).flash.mem (a + k) = 0xFF := by
  refine (Mem.read_clearRange s.flash.mem a n (a + k)).trans (if_pos ?_)
  omega

/-- One byte of a range that is read. -/
theorem getD_readRange {d : Byte} {m : Mem} (h : Mem.wf d m = true) (a : Nat) {n k : Nat} (hk : k < n) (z : Byte) :
    (Mem.readRange d m a n).getD k z = Mem.read d m (a + k) := by
  rw [Mem.readRange_eq h]
  simp [hk]

/-! ### An operation starts (18 R479) -/

section
variable {s : State} {op : FlashOp}

theorem exec_flashRead (h : s.power.railTripped = false) : exec .flashRead s = .next (flashStart .read s) := live_next h

theorem exec_flashProgram (h : s.power.railTripped = false) : exec .flashProgram s = .next (flashStart .program s) := live_next h

theorem exec_flashErase (h : s.power.railTripped = false) : exec .flashErase s = .next (flashStart .erase s) := live_next h

/-- The alignment that an operation asks of its address. -/
def flashUnit (op : FlashOp) : Nat := if op = .erase then 65536 else 4096

/-- The state in which an operation runs. -/
def flashStarted (op : FlashOp) (s : State) : State :=
  { s with flash := { s.flash with busy := true, op := some (op, s.flash.addr.toNat), tainted := false } }

/-- An operation that the protected area does not refuse. -/
def flashAllowed (op : FlashOp) (s : State) : Prop := op = .read ∨ s.flash.addr.toNat < 0x0F000000

theorem not_protected (h : flashAllowed op s) : ¬(op ≠ .read ∧ 0x0F000000 ≤ s.flash.addr.toNat) := by
  rintro ⟨hop, ha⟩
  rcases h with h | h
  · exact hop h
  · omega

variable (hin : s.power.inputOn = true)
include hin

/-- The checks in the order of their codes. -/
theorem flashStart_eq : flashStart op s =
    if op ≠ .read ∧ 0x0F000000 ≤ s.flash.addr.toNat then flashError s 1
    else if s.flash.busy then flashError s 2
    else if s.flash.addr.toNat % flashUnit op ≠ 0 then flashError s 3
    else flashStarted op s :=
  if_neg (by simp [State.managed, hin])

theorem flashStart_of_protected (hop : op ≠ .read) (ha : 0x0F000000 ≤ s.flash.addr.toNat) : flashStart op s = flashError s 1 := by
  rw [flashStart_eq hin, if_pos ⟨hop, ha⟩]

variable (hallowed : flashAllowed op s)
include hallowed

theorem flashStart_of_busy (hb : s.flash.busy = true) : flashStart op s = flashError s 2 := by
  rw [flashStart_eq hin, if_neg (not_protected hallowed), if_pos hb]

variable (hb : s.flash.busy = false)
include hb

theorem flashStart_of_misaligned (ha : s.flash.addr.toNat % flashUnit op ≠ 0) : flashStart op s = flashError s 3 := by
  rw [flashStart_eq hin, if_neg (not_protected hallowed), if_neg (by simp [hb]), if_pos ha]

theorem flashStart_of_aligned (ha : s.flash.addr.toNat % flashUnit op = 0) : flashStart op s = flashStarted op s := by
  rw [flashStart_eq hin, if_neg (not_protected hallowed), if_neg (by simp [hb]), if_neg (not_not_intro ha)]

end

/-! ### An operation ends (18 R477, R479) -/

theorem exec_flashOpDone {s : State} (h : s.power.railTripped = false) (ok : Bool) :
    exec (.flashOpDone ok) s = .next (flashOpDone ok s) := live_next h

/-- The state in which no operation runs, and how the last one ended. -/
def flashEnded (ok : Bool) (s : State) : State :=
  { s with flash := { s.flash with
      busy := false, op := none, tainted := false, err := s.flash.err || !ok, code := if ok then 0 else 4 } }

section
variable {s : State} {op : FlashOp} {a : Nat} {ok : Bool}

/-- An operation changes the flash, its buffer and the free values it takes. -/
theorem flashEffect_frame (op : FlashOp) (a : Nat) (ok : Bool) (s : State) : ∃ mem buf free,
    flashEffect op a ok s = { s with flash := { s.flash with mem, buf }, freeIdx := free } := by
  unfold flashEffect
  split
  · exact ⟨_, _, _, rfl⟩
  · exact ⟨_, _, _, rfl⟩
  · split
    · exact ⟨_, _, _, rfl⟩
    · exact ⟨_, _, _, rfl⟩
  · exact ⟨_, _, _, rfl⟩
  · exact ⟨_, _, _, rfl⟩
  · exact ⟨_, _, _, rfl⟩

theorem flashOpDone_of_booted (hop : s.flash.op = some (op, a)) (hp : s.boot.phase ≠ .booting) :
    flashOpDone ok s = flashEnded ok (flashEffect op a ok s) := by
  obtain ⟨mem, buf, free, heffect⟩ := flashEffect_frame op a ok s
  simp only [flashOpDone, hop, heffect]
  exact if_neg hp

/-- A read leaves the flash. -/
theorem flashEffect_read_mem : (flashEffect .read a ok s).flash.mem = s.flash.mem := by cases ok <;> rfl

/-- Only a read that succeeds changes the buffer. -/
theorem flashEffect_buf (h : op ≠ .read ∨ ok = false) : (flashEffect op a ok s).flash.buf = s.flash.buf := by
  cases op with
  | read =>
    obtain rfl : ok = false := h.resolve_left (fun hne => hne rfl)
    rfl
  | program =>
    cases ok with
    | true =>
      simp only [flashEffect]
      split <;> rfl
    | false => rfl
  | erase => cases ok <;> rfl

/-- The bytes that a program or an erase may change. -/
theorem flashEffect_out {x : Nat} (hx : x < a ∨ a + flashUnit op ≤ x) :
    Mem.read 0xFF (flashEffect op a ok s).flash.mem x = Mem.read 0xFF s.flash.mem x := by
  cases op with
  | read => rw [flashEffect_read_mem]
  | program =>
    cases ok with
    | true =>
      simp only [flashEffect]
      split
      · exact read_flashWrite_out (freeBytes_length s 4096) hx
      · exact read_flashWrite_out (n := 4096) (by simp [flashRead]) hx
    | false => exact read_flashWrite_out (freeBytes_length s 4096) hx
  | erase =>
    cases ok with
    | true => exact read_flashErase_out hx
    | false => exact read_flashWrite_out (freeBytes_length s 65536) hx

/-- A read brings 4 KiB into the buffer. -/
theorem flashEffect_read_in (hmem : Mem.wf 0xFF s.flash.mem = true) {k : Nat} (hk : k < 4096) :
    Mem.read 0 (flashEffect .read a true s).flash.buf k = Mem.read 0xFF s.flash.mem (a + k) := by
  have hin := Mem.read_writeRange_in (d := 0) [] 0 (flashRead s a 4096) k (by simpa [flashRead] using hk)
  rw [Nat.zero_add] at hin
  exact hin.trans (getD_readRange hmem a hk 0)

/-- An undisturbed program clears the bits that the buffer has clear. -/
theorem flashEffect_program_in (ht : s.flash.tainted = false) (hmem : Mem.wf 0xFF s.flash.mem = true)
    (hbuf : Mem.wf 0 s.flash.buf = true) {k : Nat} (hk : k < 4096) :
    Mem.read 0xFF (flashEffect .program a true s).flash.mem (a + k) =
      Mem.read 0xFF s.flash.mem (a + k) &&& Mem.read 0 s.flash.buf k := by
  simp only [flashEffect, ht, Bool.false_eq_true, if_false]
  refine (Mem.read_writeRange_in s.flash.mem a _ k (by simpa [flashRead] using hk)).trans ?_
  have hold := getD_readRange hmem a hk 0xFF
  have hnew := getD_readRange hbuf 0 hk 0
  rw [Nat.zero_add] at hnew
  rw [← hold, ← hnew]
  simp [flashRead, List.getD, hk]

end

/-- Settles O14. An operation starts or is refused by the first code that applies; its end goes by the operation and by whether
the device did it. -/
theorem flashOperations : Obligations.FlashOperations := by
  unfold Obligations.FlashOperations
  constructor
  · intro s hrail hin
    simp only [exec_flashRead hrail, exec_flashProgram hrail, exec_flashErase hrail]
    refine ⟨fun hb ha => ?_, fun hb ha hlow => ?_, fun hb ha hlow => ?_, fun hhigh => ⟨?_, ?_⟩, fun hb => ?_,
      fun hb hlow => ⟨?_, ?_⟩, fun hb ha => ?_, fun hb hlow ha => ?_, fun hb hlow ha => ?_⟩
    · exact congrArg _ (flashStart_of_aligned hin (.inl rfl) hb ha)
    · exact congrArg _ (flashStart_of_aligned hin (.inr hlow) hb ha)
    · exact congrArg _ (flashStart_of_aligned hin (.inr hlow) hb ha)
    · exact congrArg _ (flashStart_of_protected hin nofun hhigh)
    · exact congrArg _ (flashStart_of_protected hin nofun hhigh)
    · exact congrArg _ (flashStart_of_busy hin (.inl rfl) hb)
    · exact congrArg _ (flashStart_of_busy hin (.inr hlow) hb)
    · exact congrArg _ (flashStart_of_busy hin (.inr hlow) hb)
    · exact congrArg _ (flashStart_of_misaligned hin (.inl rfl) hb ha)
    · exact congrArg _ (flashStart_of_misaligned hin (.inr hlow) hb ha)
    · exact congrArg _ (flashStart_of_misaligned hin (.inr hlow) hb ha)
  · intro s op a ok hrail hop hp hmem hbuf
    refine ⟨flashEnded ok (flashEffect op a ok s), ?_, ?_, flashEffect_buf, ?_, ?_, fun x => flashEffect_out, ?_, ?_⟩
    · rw [exec_flashOpDone hrail, flashOpDone_of_booted hop hp]
    · obtain ⟨mem, buf, free, heffect⟩ := flashEffect_frame op a ok s
      rw [heffect]
      rfl
    · rintro rfl
      exact flashEffect_read_mem
    · rintro rfl rfl k hk
      exact flashEffect_read_in hmem hk
    · rintro rfl rfl ht k hk
      exact flashEffect_program_in ht hmem hbuf hk
    · rintro rfl rfl k hk
      exact read_flashErase_in hk

end Sys2Proof.Laws
end

section
/-! SUPPORT. The supply and the resets: what is lost with the input, what a reset leaves, and the rows that bring one. The section
settles O5 and O6. -/

namespace Sys2Proof.Laws

open Sys2Proof Sys2Proof.Machine

/-! ### POWER_ON (18 R468, R470) -/

theorem powerOn_of_on {s : State} (h : s.power.inputOn = true) (straps : BitVec 3) : powerOn straps s = s := if_pos h

/-- A module that gets its input starts from its reset values, with its fuses and flash. -/
theorem powerOn_of_off {s : State} (h : s.power.inputOn = false) (straps : BitVec 3) : powerOn straps s =
    { State.reset with
      power := { inputOn := true, pwrgd := true, railTripped := false, resetHigh := s.power.resetHigh, straps, dynAddr := none }
      fuses := s.fuses
      flash := { State.reset.flash with mem := s.flash.mem }
      stands := Stand.assign s.fuses.active s.fuses.passed
      readOut := s.readOut, hostOut := s.hostOut, nextId := s.nextId, freeIdx := s.freeIdx, pending := s.pending } :=
  if_neg (by simp [h])

/-! ### POWER_LOSS (18 R469, R471) -/

section
variable {s : State}

/-- A write cut off moves flash bytes and takes free values. -/
theorem tearFlash_frame (s : State) : ∃ mem free,
    tearFlash s = { s with flash := { s.flash with mem }, freeIdx := free } := by
  unfold tearFlash
  split
  · exact ⟨_, _, rfl⟩
  · exact ⟨_, _, rfl⟩
  · exact ⟨_, _, rfl⟩

/-- Without a write in progress nothing is torn. -/
theorem tearFlash_of_no_write (h : ∀ a, s.flash.op ≠ some (.program, a) ∧ s.flash.op ≠ some (.erase, a)) : tearFlash s = s := by
  unfold tearFlash
  split
  next a heq => exact absurd heq (h a).1
  next a heq => exact absurd heq (h a).2
  next => rfl

/-- A write cut off leaves every byte outside its unit. -/
theorem tearFlash_out {op : FlashOp} {a n x : Nat} (hop : s.flash.op = some (op, a))
    (hn : op = .program ∧ n = 4096 ∨ op = .erase ∧ n = 65536) (hx : x < a ∨ a + n ≤ x) :
    Mem.read 0xFF (tearFlash s).flash.mem x = Mem.read 0xFF s.flash.mem x := by
  rcases hn with ⟨rfl, rfl⟩ | ⟨rfl, rfl⟩
  · simp only [tearFlash, hop]
    exact read_flashWrite_out (freeBytes_length s 4096) hx
  · simp only [tearFlash, hop]
    exact read_flashWrite_out (freeBytes_length s 65536) hx

theorem powerLoss_of_off (h : s.power.inputOn = false) : powerLoss s = s := if_pos (by simp [h])

/-- What is left without the input: the fuses, the flash as it was torn, and the model's own fields. -/
theorem powerLoss_of_on (h : s.power.inputOn = true) : powerLoss s =
    { State.reset with
      power := { s.power with inputOn := false, pwrgd := false, railTripped := false, dynAddr := none }
      boot := { Boot.reset .powerOn with phase := .off }
      fuses := s.fuses
      flash := { State.reset.flash with mem := (tearFlash s).flash.mem }
      stands := Stand.assign s.fuses.active s.fuses.passed
      readOut := s.readOut, hostOut := s.hostOut, nextId := s.nextId, freeIdx := (tearFlash s).freeIdx, pending := s.pending } := by
  obtain ⟨mem, free, htear⟩ := tearFlash_frame s
  refine (if_neg (by simp [h])).trans ?_
  simp only [htear]
  rfl

end

/-- Settles O5. Either row does nothing while the input is where it brings it; a loss tears a write that runs. -/
theorem supplyOnAndOff : Obligations.SupplyOnAndOff := by
  unfold Obligations.SupplyOnAndOff
  refine ⟨fun straps s => ⟨fun hon => ?_, fun hoff => ?_⟩, fun s => ⟨fun hoff => ?_, fun hon => ?_⟩⟩
  · rw [exec_powerOn, powerOn_of_on hon]
  · rw [exec_powerOn, powerOn_of_off hoff]
  · rw [exec_powerLoss, powerLoss_of_off hoff]
  · refine ⟨_, exec_powerLoss s, ?_⟩
    rw [powerLoss_of_on hon]
    exact ⟨rfl, fun hnone => by rw [tearFlash_of_no_write hnone]; exact ⟨rfl, rfl⟩, fun op a n hop hn x => tearFlash_out hop hn⟩

/-! ### The rows that reset (15 R421, R422; 16 R454; 18 R470) -/

section
variable {s : State}

theorem exec_resetInput (h : s.power.railTripped = false) (n : Nat) : exec (.resetInput n) s = .next (resetInput n s) := live_next h

theorem exec_firmwareWatchdog (h : s.power.railTripped = false) : exec .firmwareWatchdog s = .next (firmwareWatchdog s) :=
  live_next h

theorem exec_lifecycleReset (h : s.power.railTripped = false) : exec .lifecycleReset s = .next (lifecycleReset s) := live_next h

theorem resetInput_of_short {n : Nat} (h : n < 10000) : resetInput n s = s := if_pos (by simp [h])

theorem resetInput_of_long {n : Nat} (hin : s.power.inputOn = true) (hgood : s.power.pwrgd = true) (h : 10000 ≤ n) :
    resetInput n s = { resetTo s .resetInput with power := { s.power with resetHigh := false } } :=
  if_neg (by simp [State.powered, hin, hgood, h])

theorem firmwareWatchdog_of_released (h : s.released = true) : firmwareWatchdog s = resetTo s .watchdog := if_pos h

theorem lifecycleReset_of_due {at_ : Nat} (h : s.sec.transition = some (some at_)) (hdue : at_ + 10000000 ≤ s.now) :
    lifecycleReset s = resetTo s .resetInput := by
  simp only [lifecycleReset, h]
  exact if_pos hdue

/-- A reset clears every counter, so it is the same before and after one is raised. -/
theorem resetTo_bump (s : State) (c : Ctr) (p i n : Nat) (r : ResetCause) : resetTo (bump s c p i n) r = resetTo s r := by
  obtain ⟨ctr, hbump⟩ := bump_eq s c p i n
  rw [hbump]
  rfl

/-- With too few cores left the module resets; the count of retired cores goes with everything else. -/
theorem coreRetire_of_few {core : Nat} (hrel : s.released = true) (hcore : s.boot.coreMask.getLsbD core = true)
    (hleft : (List.range 8).countP ((withoutCore s.boot.coreMask core).getLsbD ·) < 5) (ctxs tickets : List Nat) :
    coreRetire core ctxs tickets s = resetTo s .watchdog := by
  unfold coreRetire
  rw [if_neg (by simp [hrel, hcore])]
  exact (if_pos hleft).trans (resetTo_bump ..)

end

/-- Settles O6. What a reset leaves is its definition read out; each row resets once its own condition holds. -/
theorem resets : Obligations.Resets := by
  unfold Obligations.Resets
  refine ⟨fun s c => rfl, fun s hrail => ⟨fun n hin hgood hlong => ?_, fun n hshort => ?_, fun hrel => ?_,
    fun at_ hat hdue => ?_, fun core ctxs tickets _ hrel hcore hleft => ?_⟩⟩
  · rw [exec_resetInput hrail, resetInput_of_long hin hgood hlong]
  · rw [exec_resetInput hrail, resetInput_of_short hshort]
  · rw [exec_firmwareWatchdog hrail, firmwareWatchdog_of_released hrel]
  · rw [exec_lifecycleReset hrail, lifecycleReset_of_due hat hdue]
  · rw [exec_coreRetire hrail, coreRetire_of_few hrel hcore hleft]

end Sys2Proof.Laws
end

section
/-! SUPPORT. The boot ROM and the first steps of firmware: which image runs, what waits for a module id, and the side-band writes
of identity and limits. The section settles O8 and O10. -/

namespace Sys2Proof.Laws

open Sys2Proof Sys2Proof.Machine

/-! ### Firmware starts (18 R473) -/

/-- Firmware takes the stored record, then waits for an id or goes on with one. -/
theorem firmwareStart_frame (s : State) : ∃ phase sec ident ports,
    firmwareStart s = { s with boot := { s.boot with phase }, sec, ident, ports } ∧
      (phase = .waitId ∨ phase = .wiping ∧ ident.moduleId ≠ 0xFFFF) := by
  unfold firmwareStart
  cases storedRecord s
  all_goals
    dsimp only
    generalize (if (_ : W16) = _ then BitVec.setWidth 16 s.sb.moduleId else _) = id
    split
    · exact ⟨_, _, _, _, rfl, .inl rfl⟩
    next hid => exact ⟨_, _, _, _, rfl, .inr ⟨rfl, hid⟩⟩

/-- Without a stored record firmware goes on with the id it was given. -/
theorem firmwareStart_of_no_record {s : State} (h : storedRecord s = none) (hid : s.sb.moduleId.setWidth 16 ≠ (0xFFFF : W16)) :
    firmwareStart s = { s with
      sec := { s.sec with record := none }
      boot := { s.boot with phase := .wiping }
      ident := { s.ident with moduleId := s.sb.moduleId.setWidth 16 }
      ports := s.ports.mapIdx fun i p => if 4 ≤ i then startTraining p else p } := by
  simp only [firmwareStart, h, if_true, if_neg hid]

/-! ### The boot ROM (16 R435, R437, R438; 18 R471) -/

section
variable {s : State}

/-- The slot whose image runs; none when neither holds a valid one. -/
def chosenSlot (s : State) : Option Bool :=
  chooseSlot (slotCheck s false == 0) (slotCheck s true == 0) (failCount s false) (failCount s true) (slotHeader s false)
    (slotHeader s true)

theorem isNone_chooseSlot (va vb : Bool) (fa fb : Nat) (ha hb : List Byte) :
    (chooseSlot va vb fa fb ha hb).isNone = (!va && !vb) := by
  cases va with
  | false => cases vb <;> rfl
  | true =>
    cases vb with
    | false => rfl
    | true =>
      simp only [chooseSlot]
      split
      · rfl
      · split
        · rfl
        · split <;> rfl

theorem isNone_chosenSlot (s : State) : (chosenSlot s).isNone = (slotCheck s false != 0 && slotCheck s true != 0) :=
  isNone_chooseSlot ..

/-- A scrapped module finishes blowing its device secret. -/
theorem finishUds_frame (s : State) : ∃ uds, finishUds s = { s with fuses := { s.fuses with uds } } ∧
    (s.life ≠ 4 → uds = s.fuses.uds) := by
  unfold finishUds
  split
  next h => exact ⟨_, rfl, fun hne => absurd h hne⟩
  next => exact ⟨_, rfl, fun _ => rfl⟩

/-- The checks of the slots do not read the device secret. -/
theorem chosenSlot_finishUds (s : State) : chosenSlot (finishUds s) = chosenSlot s := by
  obtain ⟨uds, huds, -⟩ := finishUds_frame s
  rw [huds]
  rfl

theorem deriveKeys_frame (s : State) : ∃ flash sec free, deriveKeys s = { s with flash, sec, freeIdx := free } := by
  unfold deriveKeys
  split
  · exact ⟨_, _, _, rfl⟩
  · extract_lets sec s1
    split
    · exact ⟨_, _, _, rfl⟩
    · exact ⟨_, _, _, rfl⟩

/-- Without a valid image the module is in recovery. -/
theorem bootRom_of_none (h : chosenSlot s = none) : ∃ boot, bootRom s = { finishUds s with boot } ∧
    boot.checked = true ∧ boot.recovery = true ∧ boot.phase = .recovery := by
  have hchosen := chosenSlot_finishUds s
  rw [h] at hchosen
  unfold chosenSlot at hchosen
  simp only [bootRom, hchosen]
  exact ⟨_, rfl, rfl, rfl, rfl⟩

/-- The image of the slot chosen runs, and firmware starts. -/
theorem bootRom_of_some {img : Bool} (h : chosenSlot s = some img) : ∃ boot flash sec ident ports free,
    bootRom s = { finishUds s with boot, flash, sec, ident, ports, freeIdx := free } ∧
    boot.checked = true ∧ boot.recovery = false ∧ boot.imageB = img ∧
    (boot.phase = .waitId ∨ boot.phase = .wiping ∧ ident.moduleId ≠ 0xFFFF) := by
  have hchosen := chosenSlot_finishUds s
  rw [h] at hchosen
  unfold chosenSlot at hchosen
  simp only [bootRom, hchosen]
  generalize hu : formMeasurements _ _ _ _ = u
  obtain ⟨flash, sec, free, hkeys⟩ := deriveKeys_frame u
  obtain ⟨phase, sec', ident, ports, hstart, hphase⟩ := firmwareStart_frame (deriveKeys u)
  rw [hstart, hkeys, ← hu]
  exact ⟨_, _, _, _, _, _, rfl, rfl, rfl, rfl, hphase⟩

/-! ### RESET_RELEASE (18 R471, R472) -/

theorem exec_resetRelease (h : s.power.railTripped = false) (pass : Bool) :
    exec (.resetRelease pass) s = .next (resetRelease pass s) := live_next h

/-- SB_RESET_N is high. -/
def pinReleased (s : State) : State := { s with power := { s.power with resetHigh := true } }

variable (hin : s.power.inputOn = true) (hgood : s.power.pwrgd = true) (hheld : s.boot.phase = .held)
include hin hgood hheld

theorem resetRelease_eq (pass : Bool) : resetRelease pass s =
    if !pass then { pinReleased s with boot := { s.boot with phase := .katFailed } }
    else if s.flash.busy then { pinReleased s with boot := { s.boot with phase := .booting } }
    else bootRom (pinReleased s) :=
  if_neg (by simp [State.powered, hin, hgood, hheld])

theorem resetRelease_of_fail : resetRelease false s = { pinReleased s with boot := { s.boot with phase := .katFailed } } :=
  resetRelease_eq hin hgood hheld false

theorem resetRelease_of_busy (hb : s.flash.busy = true) :
    resetRelease true s = { pinReleased s with boot := { s.boot with phase := .booting } } := by
  rw [resetRelease_eq hin hgood hheld, if_neg (by simp), if_pos hb]

theorem resetRelease_of_free (hb : s.flash.busy = false) : resetRelease true s = bootRom (pinReleased s) := by
  rw [resetRelease_eq hin hgood hheld, if_neg (by simp), if_neg (by simp [hb])]

end

/-- Settles O8. The self-test, then the flash, then whether a slot holds a valid image. -/
theorem resetRelease : Obligations.ResetRelease := by
  unfold Obligations.ResetRelease
  intro s hrail hin hgood hheld
  simp only [exec_resetRelease hrail]
  refine ⟨congrArg _ (resetRelease_of_fail hin hgood hheld), fun hb => congrArg _ (resetRelease_of_busy hin hgood hheld hb),
    fun hb => ⟨_, rfl, ?_⟩⟩
  rw [resetRelease_of_free hin hgood hheld hb]
  have hnone := isNone_chosenSlot (pinReleased s)
  obtain ⟨uds, huds, hlife⟩ := finishUds_frame (pinReleased s)
  cases hc : chosenSlot (pinReleased s) with
  | none =>
    obtain ⟨boot, hboot, hchecked, hrec, hphase⟩ := bootRom_of_none hc
    rw [hc] at hnone
    rw [hboot, huds]
    refine ⟨rfl, rfl, fun h4 => ?_, hchecked, hrec.trans hnone, fun _ => ⟨hphase, rfl⟩, fun h => ?_⟩
    · show { s.fuses with uds } = s.fuses
      rw [hlife h4]
      rfl
    · exact absurd (hrec.symm.trans h) nofun
  | some img =>
    obtain ⟨boot, flash, sec, ident, ports, free, hboot, hchecked, hrec, himg, hphase⟩ := bootRom_of_some hc
    rw [hc] at hnone
    rw [hboot, huds]
    refine ⟨rfl, rfl, fun h4 => ?_, hchecked, hrec.trans hnone, fun h => ?_, fun _ => ⟨himg.trans ?_, hphase⟩⟩
    · show { s.fuses with uds } = s.fuses
      rw [hlife h4]
      rfl
    · exact absurd (hrec.symm.trans h) nofun
    · exact (congrArg (·.getD false) hc).symm

/-! ### SB_MODULE_ID_WRITE (18 R473, R477) -/

section
variable {s : State} {v : W32}

theorem exec_sbModuleIdWrite (h : s.power.railTripped = false) (v : W32) :
    exec (.sbModuleIdWrite v) s = .next (sbModuleIdWrite v s) := live_next h

theorem bitsOf_low (n hi : Nat) : bitsOf n hi 0 = n % 2 ^ (hi + 1) := rfl

/-- SbModuleId with the id written. -/
def idKept (v : W32) (s : State) : State := { s with sb := { s.sb with moduleId := w32 (v.toNat % 2 ^ 16) } }

theorem idKept_setWidth (v : W32) (s : State) : (idKept v s).sb.moduleId.setWidth 16 = w16 (v.toNat % 2 ^ 16) := by
  refine BitVec.eq_of_toNat_eq ?_
  simp only [idKept, w32, w16, BitVec.toNat_setWidth, BitVec.toNat_ofNat]
  omega

theorem w16_ne_none {n : Nat} (h : n % 2 ^ 16 ≠ 0xFFFF) : w16 (n % 2 ^ 16) ≠ 0xFFFF := by
  rw [w16, ne_eq, ← BitVec.toNat_inj, BitVec.toNat_ofNat, Nat.mod_mod]
  exact h

variable (hin : s.power.inputOn = true)
include hin

theorem sbModuleIdWrite_eq : sbModuleIdWrite v s =
    if s.boot.phase == .waitId && v.toNat % 2 ^ 16 != 0xFFFF then firmwareStart (idKept v s) else idKept v s := by
  unfold sbModuleIdWrite
  rw [if_neg (by simp [State.managed, hin])]
  rfl

theorem sbModuleIdWrite_of_kept (h : s.boot.phase ≠ .waitId ∨ v.toNat % 2 ^ 16 = 0xFFFF) : sbModuleIdWrite v s = idKept v s := by
  rw [sbModuleIdWrite_eq hin, if_neg]
  rcases h with h | h
  · simp [h]
  · rw [h]
    simp

/-- A boot that waits for an id goes on with one. -/
theorem sbModuleIdWrite_of_awaited (hp : s.boot.phase = .waitId) (hid : v.toNat % 2 ^ 16 ≠ 0xFFFF) (hrec : storedRecord s = none) :
    sbModuleIdWrite v s = { idKept v s with
      sec := { s.sec with record := none }
      boot := { s.boot with phase := .wiping }
      ident := { s.ident with moduleId := w16 (v.toNat % 2 ^ 16) }
      ports := s.ports.mapIdx fun i p => if 4 ≤ i then startTraining p else p } := by
  have hgiven := idKept_setWidth v s
  rw [sbModuleIdWrite_eq hin, if_pos ((Bool.and_eq_true ..).mpr ⟨beq_iff_eq.2 hp, bne_iff_ne.2 hid⟩),
    firmwareStart_of_no_record (s := idKept v s) hrec (hgiven ▸ w16_ne_none hid), hgiven]
  rfl

/-! ### PWR_LIMIT_WRITE and SETDASA (15 R410; 18 R474) -/

omit hin in
theorem psOk_iff (w : Nat) : psOk w = true ↔ 600 ≤ w ∧ w ≤ 1200 := by simp [psOk]

omit hin in
theorem exec_pwrLimitWrite (h : s.power.railTripped = false) (v : W32) :
    exec (.pwrLimitWrite v) s = .next (pwrLimitWrite v s) := live_next h

theorem pwrLimitWrite_of_ok (hrel : s.released = true) (hlow : 600 ≤ v.toNat % 2 ^ 11) (hhigh : v.toNat % 2 ^ 11 ≤ 1200) :
    pwrLimitWrite v s = { s with cut := { s.cut with ps := v.toNat % 2 ^ 11 } } :=
  if_pos (Bool.and_eq_true_iff.2 ⟨sbOpen_of_released hin hrel, (psOk_iff _).2 ⟨hlow, hhigh⟩⟩)

omit hin in
theorem pwrLimitWrite_of_bad (h : v.toNat % 2 ^ 11 < 600 ∨ 1200 < v.toNat % 2 ^ 11) : pwrLimitWrite v s = s := by
  refine if_neg fun hok => ?_
  obtain ⟨-, hok⟩ := Bool.and_eq_true_iff.1 hok
  rw [bitsOf_low, psOk_iff] at hok
  omega

omit hin in
theorem exec_setdasa (h : s.power.railTripped = false) (addr : BitVec 7) :
    exec (.setdasa addr) s = .next (setdasa addr s) := live_next h

theorem setdasa_of_on (addr : BitVec 7) : setdasa addr s = { s with power := { s.power with dynAddr := some addr } } := if_pos hin

end

/-- Settles O10. An id is kept, and taken by a boot that waits for it; a limit is taken within its range. -/
theorem moduleIdentityWrites : Obligations.ModuleIdentityWrites := by
  unfold Obligations.ModuleIdentityWrites
  refine ⟨fun v s hrail hin => ⟨fun h => ?_, fun hp hid hrec => ?_⟩,
    fun v s hrail hin hrel => ⟨fun hlow hhigh => ?_, fun hbad => ?_⟩, fun addr s hrail hin => ?_⟩
  · rw [exec_sbModuleIdWrite hrail, sbModuleIdWrite_of_kept hin h]
    rfl
  · rw [exec_sbModuleIdWrite hrail, sbModuleIdWrite_of_awaited hin hp hid hrec]
    rfl
  · rw [exec_pwrLimitWrite hrail, pwrLimitWrite_of_ok hin hrel hlow hhigh]
  · rw [exec_pwrLimitWrite hrail, pwrLimitWrite_of_bad hbad]
  · rw [exec_setdasa hrail, setdasa_of_on hin]

end Sys2Proof.Laws
end

section
/-! SUPPORT. What every step keeps: the canonical form of the memories and the shape of the module.
The section settles O57, O58 and O60. -/

-- So many short theorems at once would hold one thread each.
set_option Elab.async false

namespace Sys2Proof.Laws

open Sys2Proof Sys2Proof.Machine

/-- Where the memories of `s₀` are in canonical form, those of `s` are; where `s₀` has the shape of the module, so has `s`. Each
operation carries it along: from `Sound s₀ s` to the state the operation leaves. -/
structure Sound (s₀ s : State) : Prop where
  memory : MemOk s₀ → MemOk s
  shape : ShapeOk s₀ → ShapeOk s

variable {s₀ : State}

/-- How many pairs, partitions, ports and stands a state has. -/
abbrev lengths (s : State) : Nat × Nat × Nat × Nat := (s.pairs.length, s.parts.length, s.ports.length, s.stands.length)

theorem sound_of {s t : State} (h : Sound s₀ s)
    (landing : Mem.wf 0 s.landing = true → Mem.wf 0 t.landing = true := by exact fun w => w)
    (t1 : Mem.wf 0 s.t1.mem = true → Mem.wf 0 t.t1.mem = true := by exact fun w => w)
    (flash : Mem.wf 0xFF s.flash.mem = true → Mem.wf 0xFF t.flash.mem = true := by exact fun w => w)
    (buf : Mem.wf 0 s.flash.buf = true → Mem.wf 0 t.flash.buf = true := by exact fun w => w)
    (shape : lengths t = lengths s := by exact rfl) : Sound s₀ t := by
  simp only [Prod.mk.injEq] at shape
  obtain ⟨ep, eq, eo, es⟩ := shape
  refine ⟨fun m => ?_, fun m => ?_⟩
  · obtain ⟨hl, ht, hf, hb⟩ := h.memory m
    exact ⟨landing hl, t1 ht, flash hf, buf hb⟩
  · obtain ⟨hp, hq, ho, hs⟩ := h.shape m
    exact ⟨ep.trans hp, eq.trans hq, eo.trans ho, es.trans hs⟩

/-- What is neither a memory nor one of the four lists may change. -/
theorem sound_with {s : State}
    {power boot fuses sec ident sb lc lcLatch zeroing segRetired segErrs sparesUsed cmds ctxs units launches
      fills jobs searches calls fetched cut vectors flowTx flowRx early lost unreach bridge ctr readOut hostOut nextId freeIdx
      pending}
    (h : Sound s₀ s) :
    Sound s₀ { s with
      power, boot, fuses, sec, ident, sb, lc, lcLatch, zeroing, segRetired, segErrs, sparesUsed, cmds, ctxs,
      units, launches, fills, jobs, searches, calls, fetched, cut, vectors, flowTx, flowRx, early, lost, unreach,
      bridge, ctr, readOut, hostOut, nextId, freeIdx, pending } :=
  ⟨h.memory, h.shape⟩

/-- So may the bytes of the Landing, in canonical form. -/
theorem sound_landing {s : State}
    {power boot landing fuses sec ident sb lc lcLatch zeroing segRetired segErrs sparesUsed cmds ctxs units
      launches fills jobs searches calls fetched cut vectors flowTx flowRx early lost unreach bridge ctr readOut hostOut nextId freeIdx
      pending}
    (h : Sound s₀ s) (hl : Mem.wf 0 s.landing = true → Mem.wf 0 landing = true) :
    Sound s₀ { s with
      power, boot, landing, fuses, sec, ident, sb, lc, lcLatch, zeroing, segRetired, segErrs, sparesUsed, cmds,
      ctxs, units, launches, fills, jobs, searches, calls, fetched, cut, vectors, flowTx, flowRx, early, lost,
      unreach, bridge, ctr, readOut, hostOut, nextId, freeIdx, pending } :=
  ⟨fun m => ⟨hl (h.memory m).1, (h.memory m).2⟩, h.shape⟩

/-- So may those of T1. -/
theorem sound_t1 {s : State}
    {power boot t1 fuses sec ident sb lc lcLatch zeroing segRetired segErrs sparesUsed cmds ctxs units
      launches fills jobs searches calls fetched cut vectors flowTx flowRx early lost unreach bridge ctr readOut hostOut nextId freeIdx
      pending}
    (h : Sound s₀ s) (ht : Mem.wf 0 s.t1.mem = true → Mem.wf 0 t1.mem = true) :
    Sound s₀ { s with
      power, boot, t1, fuses, sec, ident, sb, lc, lcLatch, zeroing, segRetired, segErrs, sparesUsed, cmds,
      ctxs, units, launches, fills, jobs, searches, calls, fetched, cut, vectors, flowTx, flowRx, early, lost,
      unreach, bridge, ctr, readOut, hostOut, nextId, freeIdx, pending } :=
  ⟨fun m => ⟨(h.memory m).1, ht (h.memory m).2.1, (h.memory m).2.2⟩, h.shape⟩

theorem sound_ite {c : Prop} [Decidable c] {s t : State} (hs : Sound s₀ s) (ht : Sound s₀ t) :
    Sound s₀ (if c then s else t) := by
  split
  · exact hs
  · exact ht

theorem sound_fst {β : Type} {s : State} {x : β} (h : Sound s₀ s) : Sound s₀ (s, x).1 := h

theorem foldl_sound_of {α β : Type} (g : β → State) {f : β → α → β} (hf : ∀ x a, Sound s₀ (g x) → Sound s₀ (g (f x a)))
    {l : List α} {x : β} (h : Sound s₀ (g x)) : Sound s₀ (g (l.foldl f x)) := by
  induction l generalizing x with
  | nil => exact h
  | cons a l ih => exact ih (hf x a h)

theorem foldl_sound {α : Type} {f : State → α → State} (hf : ∀ s a, Sound s₀ s → Sound s₀ (f s a)) {l : List α} {s : State}
    (h : Sound s₀ s) : Sound s₀ (l.foldl f s) := foldl_sound_of id hf h

theorem foldl_fst_sound {α β : Type} {f : State × β → α → State × β} (hf : ∀ x a, Sound s₀ x.1 → Sound s₀ (f x a).1)
    {l : List α} {s : State} {y : β} (h : Sound s₀ s) : Sound s₀ (l.foldl f (s, y)).1 := foldl_sound_of Prod.fst hf h

theorem foldl_snd_sound {α β : Type} {f : β × State → α → β × State} (hf : ∀ x a, Sound s₀ x.2 → Sound s₀ (f x a).2)
    {l : List α} {y : β} {s : State} (h : Sound s₀ s) : Sound s₀ (l.foldl f (y, s)).2 := foldl_sound_of Prod.snd hf h

/-! ### Machine/Egress -/

theorem bump_sound {s name part idx n} (h : Sound s₀ s) : Sound s₀ (bump s name part idx n) := sound_ite h (sound_with h)

theorem bumpMax_sound {s name part idx n} (h : Sound s₀ s) : Sound s₀ (bumpMax s name part idx n) := sound_ite h (sound_with h)

theorem fresh_sound {s} (h : Sound s₀ s) : Sound s₀ (fresh s).2 := sound_with h

theorem modPort_sound {s i f} (h : Sound s₀ s) : Sound s₀ (s.modPort i f) := sound_of h (shape := by simp [State.modPort])

theorem enqueueAt_sound {s i q f} (h : Sound s₀ s) : Sound s₀ (enqueueAt s i q f) :=
  sound_ite (modPort_sound h) (modPort_sound h)

theorem routeFrame_sound {s q f} (h : Sound s₀ s) : Sound s₀ (routeFrame s q f) := by
  unfold routeFrame
  split
  · exact enqueueAt_sound h
  · exact bump_sound h

theorem reroutePort_sound {s i} (h : Sound s₀ s) : Sound s₀ (reroutePort s i) :=
  foldl_sound (fun _ _ h1 => foldl_sound (fun _ _ => routeFrame_sound) h1) (foldl_sound (fun _ _ => routeFrame_sound)
    (modPort_sound h))

theorem portDown_sound {s i} (h : Sound s₀ s) : Sound s₀ (portDown s i) := by
  unfold portDown
  extract_lets frames s1 s2
  have hs1 : Sound s₀ s1 := modPort_sound h
  have hs2 : Sound s₀ s2 := sound_with hs1
  exact reroutePort_sound (foldl_sound (fun _ _ h1 => by
      split
      · exact enqueueAt_sound h1
      · exact enqueueAt_sound h1) hs2)

theorem queueVectors_sound {s} (h : Sound s₀ s) : Sound s₀ (queueVectors s) := sound_of h (shape := by simp [queueVectors])

theorem routesChanged_sound {old s} (hs : Sound s₀ s) : Sound s₀ (routesChanged old s) := by
  unfold routesChanged
  extract_lets s1 gone s2
  have hs1 : Sound s₀ s1 := foldl_sound (fun _ _ h1 => sound_ite (reroutePort_sound h1) h1) hs
  have hs2 : Sound s₀ s2 := sound_with hs1
  exact sound_ite hs2 (queueVectors_sound hs2)

theorem sendFrame_sound {s q f} (h : Sound s₀ s) : Sound s₀ (sendFrame s q f) :=
  sound_ite (bump_sound h) (routeFrame_sound (sound_with h))

theorem sendMessage_sound {s dest dstPart srcPart kind sub tag data}
    (h : Sound s₀ s) : Sound s₀ (sendMessage s dest dstPart srcPart kind sub tag data) :=
  foldl_sound (fun _ _ => sendFrame_sound) h

/-! ### Machine/Flags -/

theorem modPair_sound {s i f} (h : Sound s₀ s) : Sound s₀ (s.modPair i f) := sound_of h (shape := by simp [State.modPair])

theorem modPart_sound {s i f} (h : Sound s₀ s) : Sound s₀ (s.modPart i f) := sound_of h (shape := by simp [State.modPart])

/-! ### Machine/Ops -/

theorem modCtx_sound {s id f} (h : Sound s₀ s) : Sound s₀ (s.modCtx id f) := sound_with h

theorem modCmd_sound {s t f} (h : Sound s₀ s) : Sound s₀ (s.modCmd t f) := sound_with h

theorem dropCmd_sound {s t} (h : Sound s₀ s) : Sound s₀ (s.dropCmd t) := sound_with h

theorem modReg_sound {s i k f} (h : Sound s₀ s) : Sound s₀ (s.modReg i k f) := by
  unfold State.modReg
  split
  · exact h
  · exact modPart_sound h

theorem charge_sound {s i k n} (h : Sound s₀ s) : Sound s₀ (charge s i k n) := sound_ite h (bump_sound (modReg_sound h))

theorem regulated_sound {i k f s} (hf : ∀ s, Sound s₀ s → Sound s₀ (f s)) (h : Sound s₀ s) :
    Sound s₀ (regulated i k f s) :=
  sound_ite (modReg_sound h) (hf _ h)

theorem bumpFree_sound {s name part idx} (h : Sound s₀ s) : Sound s₀ (bumpFree s name part idx) := bump_sound (sound_with h)

theorem chargeFree_sound {s i k} (h : Sound s₀ s) : Sound s₀ (chargeFree s i k) := charge_sound (sound_with h)

theorem raiseMsix_sound {s fn vector} (h : Sound s₀ s) : Sound s₀ (raiseMsix s fn vector) :=
  sound_ite (sound_ite (sound_with h) (sound_ite (sound_with h) h)) h

theorem bridgeIrq_sound {s module pair vector} (h : Sound s₀ s) : Sound s₀ (bridgeIrq s module pair vector) := by
  unfold bridgeIrq
  split
  · exact raiseMsix_sound h
  · exact bump_sound h

theorem signal_sound {s i} (h : Sound s₀ s) : Sound s₀ (signal s i) := by
  unfold signal
  extract_lets p vector
  refine sound_ite ?_ ?_
  · exact bridgeIrq_sound h
  · split
    · exact sendMessage_sound h
    · exact bump_sound h

theorem freeCtx_sound {s id t} (h : Sound s₀ s) : Sound s₀ (freeCtx s id t) := by
  unfold freeCtx
  split
  · exact h
  · exact sound_ite (modPart_sound (sound_with h)) (sound_with h)

theorem closeResult_sound {s i r} (h : Sound s₀ s) : Sound s₀ (closeResult s i r) := by
  unfold closeResult
  split
  · exact h
  · exact modPair_sound h

theorem writeRecord_sound {s i r} (h : Sound s₀ s) : Sound s₀ (writeRecord s i r) := by
  unfold writeRecord
  extract_lets p bytes off s1 s2 s3 s4 s5 s6
  have hs1 : Sound s₀ s1 := sound_landing h (fun w => Mem.regionWrite_wf w ..)
  have hs2 : Sound s₀ s2 := by
    dsimp only [s2]
    split
    · exact charge_sound hs1
    · exact hs1
  have hs3 : Sound s₀ s3 := modPair_sound hs2
  have hs4 : Sound s₀ s4 := by
    dsimp only [s4]
    split
    · exact sendMessage_sound hs3
    · exact hs3
  have hs5 : Sound s₀ s5 := sound_ite (signal_sound hs4) hs4
  have hs6 : Sound s₀ s6 := closeResult_sound hs5
  refine sound_ite ?_ ?_
  · exact hs5
  · split
    · exact freeCtx_sound hs6
    · exact hs6

theorem post_sound {s i r} (h : Sound s₀ s) : Sound s₀ (post s i r) :=
  sound_ite h (sound_ite (writeRecord_sound h) (modPair_sound h))

theorem drainRecords_sound {i n s} (h : Sound s₀ s) : Sound s₀ (drainRecords i n s) := by
  induction n generalizing s with
  | zero => exact h
  | succ n ih =>
    unfold drainRecords
    extract_lets p
    split
    · exact h
    · exact sound_ite h (ih (writeRecord_sound (modPair_sound h)))

theorem writeResultAs_sound {s k i off bs} (h : Sound s₀ s) : Sound s₀ (writeResultAs s k i off bs) := by
  unfold writeResultAs
  extract_lets p s1
  have hs1 : Sound s₀ s1 := sound_landing h (fun w => Mem.regionWrite_wf w ..)
  split
  · exact charge_sound hs1
  · exact hs1

theorem writeResult_sound {s i off bs} (h : Sound s₀ s) : Sound s₀ (writeResult s i off bs) := writeResultAs_sound h

theorem countGlobal_sound {s c part st} (h : Sound s₀ s) : Sound s₀ (s.countGlobal c part st) := bump_sound h

theorem endCmd_sound {s c st} (h : Sound s₀ s) : Sound s₀ (s.endCmd c st) := dropCmd_sound (countGlobal_sound h)

theorem replied_sound {s c bs} (h : Sound s₀ s) : Sound s₀ (s.replied c bs) := by
  unfold State.replied
  split
  · exact sound_ite h (charge_sound h)
  · exact h

theorem allocResult_sound {s s1 i len final a off}
    (h : Sound s₀ s) (ha : allocResult s i len final = some (a, off, s1)) : Sound s₀ s1 := by
  simp only [allocResult] at ha
  split at ha
  · cases ha
  · cases ha
    exact modPair_sound h

theorem finish_sound {s t st d res} (h : Sound s₀ s) : Sound s₀ (finish s t st d res) := by
  unfold finish
  split
  · exact h
  · extract_lets r
    split
    · exact endCmd_sound (post_sound h)
    · refine sound_ite (endCmd_sound (post_sound (replied_sound h))) (sound_ite (endCmd_sound (post_sound h)) ?_)
      split
      next ha => exact endCmd_sound (post_sound (writeResult_sound (allocResult_sound h ha)))
      next => exact modCmd_sound h

theorem finishPlain_sound {s t st detail} (h : Sound s₀ s) : Sound s₀ (finishPlain s t st detail) := finish_sound h

theorem runCmd_sound {c part need eff r t s} (heff : ∀ a s, Sound s₀ s → Sound s₀ (eff a s))
    (h : Sound s₀ s) : Sound s₀ (runCmd c part need eff r t s) := by
  unfold runCmd
  refine sound_ite ?_ ?_
  · exact heff _ _ h
  · extract_lets s1
    have hs1 : Sound s₀ s1 := sound_with h
    split
    · exact finishPlain_sound hs1
    · exact sound_ite hs1 (heff _ _ hs1)

theorem enter_sound {c start r s} (hstart : ∀ a0 a1 s, Sound s₀ s → Sound s₀ (start a0 a1 s))
    (h : Sound s₀ s) : Sound s₀ (enter c start r s) := by
  unfold enter
  extract_lets p t s1 irq x s2
  have hs1 : Sound s₀ s1 := sound_with h
  have hs2 : Sound s₀ s2 := modPair_sound hs1
  refine sound_ite ?_ ?_
  · exact h
  · exact sound_ite (countGlobal_sound (post_sound hs1)) (sound_ite (modPair_sound hs2) (hstart _ _ _ hs2))

/-! ### Machine/Work -/

theorem formDigest_sound {s i} (h : Sound s₀ s) : Sound s₀ (formDigest s i) := modPart_sound h

theorem freeWork_sound {s owners} (h : Sound s₀ s) : Sound s₀ (freeWork s owners) := sound_of h (shape := by simp [freeWork])

theorem dropLaunches_sound {s gone} (h : Sound s₀ s) : Sound s₀ (dropLaunches s gone) := by
  unfold dropLaunches
  extract_lets old s1 x
  have hs1 : Sound s₀ s1 := freeWork_sound h
  exact sound_with hs1

theorem dropTurns_sound {s gone} (h : Sound s₀ s) : Sound s₀ (dropTurns s gone) := dropLaunches_sound h

theorem unride_sound {s gone} (h : Sound s₀ s) : Sound s₀ (unride s gone) := sound_with h

theorem dropJobs_sound {s gone} (h : Sound s₀ s) : Sound s₀ (dropJobs s gone) := by
  unfold dropJobs
  extract_lets s0 s1
  have hs0 : Sound s₀ s0 := unride_sound (freeWork_sound (dropTurns_sound h))
  have hs1 : Sound s₀ s1 := sound_with hs0
  exact sound_with hs1

theorem dropCtxWork_sound {s id} (h : Sound s₀ s) : Sound s₀ (dropCtxWork s id) := by
  unfold dropCtxWork
  extract_lets s1
  have hs1 : Sound s₀ s1 := dropJobs_sound h
  exact sound_with hs1

theorem releaseText_sound {s c p} (h : Sound s₀ s) : Sound s₀ (releaseText s c p) := by
  unfold releaseText
  extract_lets s1
  have hs1 : Sound s₀ s1 := by
    dsimp only [s1]
    split
    · exact writeResultAs_sound h
    · exact h
  exact bump_sound (modCtx_sound hs1)

theorem flushText_sound {s c} (h : Sound s₀ s) : Sound s₀ (flushText s c) := sound_ite h (releaseText_sound h)

theorem endRequest_sound {s id st reason} (h : Sound s₀ s) : Sound s₀ (endRequest s id st reason) := by
  unfold endRequest
  split
  · exact h
  · refine sound_ite ?_ ?_
    · exact h
    · extract_lets freed s1 c cut tokens textLen partial_ status detail reason1 r s2 s3 r1 s4 s5 s6 s7 s8 held
      have hs1 : Sound s₀ s1 := sound_ite h (flushText_sound h)
      have hs2 : Sound s₀ s2 := dropCtxWork_sound hs1
      have hs3 : Sound s₀ s3 := by
        dsimp only [s3]
        split
        · exact sound_ite (writeResult_sound hs2) hs2
        · exact hs2
      have hs4 : Sound s₀ s4 := modCtx_sound hs3
      have hs5 : Sound s₀ s5 := modPart_sound hs4
      have hs6 : Sound s₀ s6 := sound_ite (bump_sound hs5) (sound_ite (bump_sound hs5) hs5)
      have hs7 : Sound s₀ s7 := post_sound hs6
      have hs8 : Sound s₀ s8 := sound_with hs7
      exact foldl_sound (fun _ _ => finishPlain_sound) hs8

theorem replayRequest_sound {s id} (h : Sound s₀ s) : Sound s₀ (replayRequest s id) := by
  unfold replayRequest
  split
  · exact h
  · refine sound_ite ?_ ?_
    · exact h
    · refine sound_ite ?_ ?_
      · exact endRequest_sound h
      · refine sound_ite ?_ ?_
        · exact modCtx_sound h
        · extract_lets s1 s2 s3
          have hs1 : Sound s₀ s1 := dropCtxWork_sound h
          have hs2 : Sound s₀ s2 := modCtx_sound hs1
          have hs3 : Sound s₀ s3 := modPart_sound hs2
          exact post_sound (bump_sound hs3)

theorem dropEngineWork_sound {s i} (h : Sound s₀ s) : Sound s₀ (dropEngineWork s i) := by
  unfold dropEngineWork
  extract_lets gone old s1
  have hs1 : Sound s₀ s1 := modPart_sound (dropLaunches_sound h)
  exact sound_of hs1 (shape := by simp)

theorem unfence_sound {s i} (h : Sound s₀ s) : Sound s₀ (unfence s i) :=
  foldl_sound (fun _ _ => modPair_sound) (sound_with h)

theorem faultCommands_sound {s i} (h : Sound s₀ s) : Sound s₀ (faultCommands s i) := by
  unfold faultCommands
  extract_lets s1 s0 s2 ts
  have hs1 : Sound s₀ s1 := unfence_sound h
  have hs0 : Sound s₀ s0 := foldl_sound (fun _ _ => finishPlain_sound) hs1
  have hs2 : Sound s₀ s2 := foldl_sound (fun _ _ => endRequest_sound) hs0
  exact foldl_sound (fun _ _ => finishPlain_sound) hs2

theorem freshPair_sound {part e s} (h : Sound s₀ s) : Sound s₀ (freshPair part e s) := by
  unfold freshPair
  extract_lets x x1
  have hx1 : Sound s₀ x1 := modPair_sound h
  exact sound_landing hx1 (fun w => Mem.zeroSegs_wf w _)

theorem releasePair_sound {i s} (h : Sound s₀ s) : Sound s₀ (releasePair i s) := modPair_sound h

theorem rebindEnds_sound {s i} (h : Sound s₀ s) : Sound s₀ (rebindEnds s i) := by
  unfold rebindEnds
  split
  · exact sound_ite (finishPlain_sound (modPart_sound (foldl_sound (fun _ _ => freshPair_sound) h))) h
  · exact h

theorem enterFaulted_sound {s i} (h : Sound s₀ s) : Sound s₀ (enterFaulted s i) := by
  unfold enterFaulted
  extract_lets st s1 s2 s3
  have hs1 : Sound s₀ s1 := modPart_sound (rebindEnds_sound h)
  have hs2 : Sound s₀ s2 := faultCommands_sound hs1
  have hs3 : Sound s₀ s3 := dropEngineWork_sound hs2
  exact sound_ite h (modPart_sound hs3)

theorem protection_sound {s i} (h : Sound s₀ s) : Sound s₀ (protection s i) := enterFaulted_sound (bump_sound h)

/-! ### Machine/Peers -/

theorem sendPeer_sound {s part target c tag pay} (h : Sound s₀ s) : Sound s₀ (sendPeer s part target c tag pay) := by
  unfold sendPeer
  extract_lets small head s1
  have hs1 : Sound s₀ s1 := sendFrame_sound (charge_sound h)
  exact sound_ite hs1 (foldl_sound (fun _ _ => sendFrame_sound) hs1)

theorem placeCall_sound {s part target replica onReplica forWhat c pay}
    (h : Sound s₀ s) : Sound s₀ (placeCall s part target replica onReplica forWhat c pay) :=
  sound_ite (sound_with h) (sendPeer_sound (sound_with h))

theorem dropCall_sound {s t} (h : Sound s₀ s) : Sound s₀ (s.dropCall t) := sound_with h

theorem resendCall_sound {s c target} (h : Sound s₀ s) : Sound s₀ (resendCall s c target) := placeCall_sound (dropCall_sound h)

theorem issueReads_sound {n s} (h : Sound s₀ s) : Sound s₀ (issueReads n s) := by
  induction n generalizing s with
  | zero => exact h
  | succ n ih =>
    unfold issueReads
    split
    · exact ih (sound_with h)
    · exact h

theorem bridgeWrite_sound {s fn addr bs} (h : Sound s₀ s) : Sound s₀ (bridgeWrite s fn addr bs) := sound_with h

theorem bridgeRead_sound {s module pair addr len frameTag fill} (h : Sound s₀ s) :
    Sound s₀ (bridgeRead s module pair addr len frameTag fill).1 := by
  unfold bridgeRead
  split
  · exact h
  · split
    · exact h
    · exact issueReads_sound (sound_with h)

theorem hostFetch_sound {s part fill addr len} (h : Sound s₀ s) : Sound s₀ (hostFetch s part fill addr len).1 := by
  unfold hostFetch
  split
  · exact h
  · refine foldl_fst_sound (fun _ _ h1 => ?_) h
    exact bridgeRead_sound h1
  · exact foldl_sound (fun _ _ h1 => sendFrame_sound h1) h

theorem hostStore_sound {s part addr bs} (h : Sound s₀ s) : Sound s₀ (hostStore s part addr bs).1 := by
  unfold hostStore
  split
  · exact h
  · split
    · split
      · exact sound_with h
      · exact h
    · exact h
  · exact foldl_sound (fun _ _ h1 => sendFrame_sound h1) h

theorem dropFill_sound {s id} (h : Sound s₀ s) : Sound s₀ (s.dropFill id) := sound_with h

theorem startFill_sound {s part space peer addr len forWhat} (h : Sound s₀ s) :
    Sound s₀ (startFill s part space peer addr len forWhat).1 := by
  unfold startFill
  extract_lets id f s1 r
  have h1 : Sound s₀ s1 := sound_with h
  have hr : Sound s₀ r.1 := hostFetch_sound h1
  split
  · split
    · exact hr
    · exact dropFill_sound hr
  · split
    · exact placeCall_sound h1
    · exact h1

/-! ### Machine/Skidder -/

theorem viewStore_sound {s i k a bs} (h : Sound s₀ s) : Sound s₀ (s.viewStore i k a bs) :=
  charge_sound (sound_landing h (fun w => Mem.landWrite_wf w ..))

theorem landStore_sound {s i a bs} (h : Sound s₀ s) : Sound s₀ (s.landStore i a bs) :=
  sound_landing h (fun w => Mem.landWrite_wf w ..)

theorem t1Store_sound {s i a bs} (h : Sound s₀ s) : Sound s₀ (s.t1Store i a bs) := sound_t1 h (fun w => t1Write_wf w ..)

theorem applyRuns_sound {s i space ws} (h : Sound s₀ s) : Sound s₀ (applyRuns s i space ws) :=
  foldl_sound (fun _ _ h1 => sound_ite (landStore_sound h1) (sound_ite (t1Store_sound h1) h1)) h

theorem chipStore_sound {s i d ws} (h : Sound s₀ s) : Sound s₀ (chipStore s i d ws) :=
  foldl_fst_sound (fun _ _ h1 => t1Store_sound (t1Store_sound h1)) h

theorem runDesc_sound {s t i d src} (h : Sound s₀ s) (hr : runDesc s i d src = some t) : Sound s₀ t := by
  unfold runDesc at hr
  split at hr
  · cases hr
  · cases hr
    exact bumpFree_sound (bump_sound (bump_sound (bump_sound (charge_sound (sound_ite (chipStore_sound h)
      (applyRuns_sound h))))))

theorem runFailed_sound {s i d raw} (h : Sound s₀ s) : Sound s₀ (runFailed s i d raw) := sound_ite h (applyRuns_sound h)

/-! ### Machine/Tables -/

theorem areaStore_sound {s i area off bs} (h : Sound s₀ s) : Sound s₀ (areaStore s i area off bs) := by
  unfold areaStore
  extract_lets segs
  exact foldl_sound (fun _ _ h1 => by
      split
      · exact landStore_sound h1
      · exact h1) h

theorem areaPut_sound {s i k area off bs} (h : Sound s₀ s) : Sound s₀ (areaPut s i k area off bs) :=
  charge_sound (areaStore_sound h)

theorem fetchOwn_sound {s i t x} (h : Sound s₀ s) : Sound s₀ (fetchOwn s i t x) := by
  unfold fetchOwn
  extract_lets p r s1 b
  have hs1 : Sound s₀ s1 := bump_sound (modPart_sound h)
  split
  · exact areaStore_sound hs1
  · exact hs1

theorem refreshCopy_sound {s i t k row} (h : Sound s₀ s) : Sound s₀ (refreshCopy s i t k row) := by
  unfold refreshCopy
  extract_lets key b
  split
  · exact areaStore_sound h
  · exact h

/-! ### Machine/Engines -/

theorem modJob_sound {s id f} (h : Sound s₀ s) : Sound s₀ (s.modJob id f) := sound_with h

theorem dropJob_sound {s id} (h : Sound s₀ s) : Sound s₀ (s.dropJob id) := dropJobs_sound h

theorem takeWork_sound {s i owner n} (h : Sound s₀ s) : Sound s₀ (takeWork s i owner n) := by
  unfold takeWork
  refine sound_ite ?_ ?_
  · exact h
  · split
    · exact modPart_sound h
    · exact h

theorem postOwn_sound {s l} (h : Sound s₀ s) : Sound s₀ (postOwn s l) := sound_with h

theorem assignUnit_sound {s u j} (h : Sound s₀ s) : Sound s₀ (assignUnit s u j) := by
  unfold assignUnit
  extract_lets s1
  have hs1 : Sound s₀ s1 := modJob_sound (takeWork_sound h)
  exact sound_with hs1

theorem giveUnit_sound {s u j} (h : Sound s₀ s) : Sound s₀ (giveUnit s u j) := by
  unfold giveUnit
  extract_lets s2
  have hs2 : Sound s₀ s2 := assignUnit_sound h
  exact sound_ite (modJob_sound hs2) (postOwn_sound hs2)

theorem feedUnit_sound {s u} (h : Sound s₀ s) : Sound s₀ (feedUnit s u) := by
  unfold feedUnit
  split
  · refine sound_ite ?_ ?_
    · split
      · exact giveUnit_sound h
      · exact h
    · exact h
  · exact h

theorem feedUnits_sound {s} (h : Sound s₀ s) : Sound s₀ (feedUnits s) := foldl_sound (fun _ _ => feedUnit_sound) h

theorem takeRiders_sound {s i} (h : Sound s₀ s) : Sound s₀ (takeRiders s i).1 := by
  unfold takeRiders
  exact foldl_fst_sound (fun _ _ h1 => by
      split
      · exact assignUnit_sound h1
      · exact h1) h

theorem addJob_sound {s part ticket ctx kind} (h : Sound s₀ s) : Sound s₀ (addJob s part ticket ctx kind) := sound_with h

theorem queueJob_sound {s part ticket ctx kind} (h : Sound s₀ s) : Sound s₀ (queueJob s part ticket ctx kind) :=
  feedUnits_sound (addJob_sound h)

theorem freeUnit_sound {s u} (h : Sound s₀ s) : Sound s₀ (freeUnit s u) := by
  unfold freeUnit
  extract_lets ids s1
  have hs1 : Sound s₀ s1 := unride_sound (dropTurns_sound h)
  exact sound_with hs1

/-! ### Machine/Partitions -/

theorem bindStands_sound {s part ns} (h : Sound s₀ s) : Sound s₀ (bindStands s part ns) :=
  sound_of h (shape := by simp [bindStands])

theorem unbindStands_sound {s ns} (h : Sound s₀ s) : Sound s₀ (unbindStands s ns) :=
  sound_of h (shape := by simp [unbindStands])

theorem releaseSegs_sound {s gs} (h : Sound s₀ s) : Sound s₀ (releaseSegs s gs) :=
  sound_landing h (fun w => Mem.zeroSegs_wf w _)

theorem bindEffect_sound {l s} (h : Sound s₀ s) : Sound s₀ (bindEffect l s) := by
  unfold bindEffect
  extract_lets b segs fr gen s1 x s2 x1 s3
  have hs1 : Sound s₀ s1 := bindStands_sound h
  have hs2 : Sound s₀ s2 := sound_t1 hs1 (fun w => w)
  have hs3 : Sound s₀ s3 := modPart_sound hs2
  exact formDigest_sound hs3

theorem bindPairs_sound {l s} (h : Sound s₀ s) : Sound s₀ (bindPairs l s) := foldl_sound (fun _ _ => freshPair_sound) h

theorem bindDone_sound {s t l} (h : Sound s₀ s) : Sound s₀ (bindDone s t l) :=
  sound_ite h (finishPlain_sound (bindPairs_sound h))

theorem cmdPartitionBind_sound {r t s} (h : Sound s₀ s) : Sound s₀ (cmdPartitionBind r t s) :=
  runCmd_sound (fun _ _ h1 => bindDone_sound (bindEffect_sound h1)) h

theorem unbindEffect_sound {i t s} (h : Sound s₀ s) : Sound s₀ (unbindEffect i t s) := by
  unfold unbindEffect
  extract_lets p s1 s2 s3 s4 s5
  have hs1 : Sound s₀ s1 := sound_with h
  have hs2 : Sound s₀ s2 := dropLaunches_sound (dropEngineWork_sound hs1)
  have hs3 : Sound s₀ s3 := foldl_sound (fun _ _ => releasePair_sound) hs2
  have hs4 : Sound s₀ s4 := unbindStands_sound hs3
  have hs5 : Sound s₀ s5 := releaseSegs_sound hs4
  exact modPart_sound hs5

theorem cmdPartitionUnbind_sound {r t s} (h : Sound s₀ s) : Sound s₀ (cmdPartitionUnbind r t s) :=
  runCmd_sound (fun _ _ h1 => finishPlain_sound (unbindEffect_sound h1)) h

theorem copySegment_sound {s i g} (h : Sound s₀ s) : Sound s₀ (copySegment s i g) := by
  unfold copySegment
  extract_lets taken bytes
  split
  · exact enterFaulted_sound h
  · exact sound_of h (landing := fun w => Mem.writeRange_wf (Mem.zeroSegs_wf w _) ..) (shape := by simp)

theorem copyRetired_sound {i s} (h : Sound s₀ s) : Sound s₀ (copyRetired i s) :=
  sound_ite h (foldl_sound (fun _ _ => copySegment_sound) h)

theorem rebindSwitch_sound {i rb s} (h : Sound s₀ s) : Sound s₀ (rebindSwitch i rb s) := by
  unfold rebindSwitch
  extract_lets b p kept out segs gen stands s1 x s2 stays gone s3 inUse unused fresh_ s4 rb2
  have hs1 : Sound s₀ s1 := sound_ite (unbindStands_sound h) (bindStands_sound h)
  have hs2 : Sound s₀ s2 := releaseSegs_sound (sound_t1 hs1 (fun w => w))
  have hs3 : Sound s₀ s3 := foldl_sound (fun _ _ => releasePair_sound) hs2
  have hs4 : Sound s₀ s4 := modPart_sound hs3
  exact copyRetired_sound (formDigest_sound (modPart_sound hs4))

theorem rebindDone_sound {i s} (h : Sound s₀ s) : Sound s₀ (rebindDone i s) := sound_ite h (rebindEnds_sound h)

theorem rebindGo_sound {i s} (h : Sound s₀ s) : Sound s₀ (rebindGo i s) := by
  unfold rebindGo
  split
  · exact sound_ite (rebindDone_sound (rebindSwitch_sound h)) h
  · exact h

theorem rebindEffect_sound {i s} (h : Sound s₀ s) : Sound s₀ (rebindEffect i s) := rebindGo_sound (modPart_sound h)

theorem rebindAt_sound {i n s} (h : Sound s₀ s) : Sound s₀ (rebindAt i n s) := by
  unfold rebindAt
  split
  · exact sound_ite (rebindEffect_sound h) h
  · exact h

theorem rebindStart_sound {t pay s} (h : Sound s₀ s) : Sound s₀ (rebindStart t pay s) := by
  unfold rebindStart
  extract_lets b p have_ rb s1
  have hs1 : Sound s₀ s1 := modPart_sound h
  exact sound_ite hs1 (rebindEffect_sound hs1)

theorem cmdPartitionRebind_sound {r t s} (h : Sound s₀ s) : Sound s₀ (cmdPartitionRebind r t s) :=
  runCmd_sound (fun _ _ => rebindStart_sound) h

theorem segmentZeroed_sound {segment s} (h : Sound s₀ s) : Sound s₀ (segmentZeroed segment s) :=
  foldl_sound (fun _ _ => rebindDone_sound) (foldl_sound (fun _ _ => bindDone_sound) (sound_with h))

theorem cmdPartitionStatus_sound {r t s} (h : Sound s₀ s) : Sound s₀ (cmdPartitionStatus r t s) :=
  runCmd_sound (fun _ _ => finish_sound) h

theorem cmdDigestRead_sound {r t s} (h : Sound s₀ s) : Sound s₀ (cmdDigestRead r t s) :=
  runCmd_sound (fun _ _ => finish_sound) h

/-! ### Machine/Records -/

theorem flashWrite_sound {s a bs} (h : Sound s₀ s) : Sound s₀ (flashWrite s a bs) :=
  sound_of h (flash := fun w => Mem.writeRange_wf w ..)

theorem flashErase_sound {s a n} (h : Sound s₀ s) : Sound s₀ (flashErase s a n) :=
  sound_of h (flash := fun w => Mem.clearRange_wf w ..)

theorem setFailCount_sound {s b n} (h : Sound s₀ s) : Sound s₀ (setFailCount s b n) := flashWrite_sound h

theorem writeLeaf_sound {s q seq} (h : Sound s₀ s) : Sound s₀ (writeLeaf s q seq) := flashWrite_sound (flashWrite_sound h)

theorem storeRecord_sound {s l} (h : Sound s₀ s) : Sound s₀ (storeRecord s l) := flashWrite_sound (flashErase_sound h)

/-! ### Machine/Management -/

theorem cmdModuleQuery_sound {r t s} (h : Sound s₀ s) : Sound s₀ (cmdModuleQuery r t s) :=
  runCmd_sound (fun _ _ => finish_sound) h

theorem cmdHealthRead_sound {r t s} (h : Sound s₀ s) : Sound s₀ (cmdHealthRead r t s) := by
  unfold cmdHealthRead
  refine runCmd_sound (fun t s h1 => ?_) h
  exact finish_sound (sound_with h1)

theorem powerSetEffect_sound {l s} (h : Sound s₀ s) : Sound s₀ (powerSetEffect l s) := sound_with h

theorem cmdPowerSet_sound {r t s} (h : Sound s₀ s) : Sound s₀ (cmdPowerSet r t s) :=
  runCmd_sound (fun _ _ h1 => finishPlain_sound (powerSetEffect_sound h1)) h

theorem bridgeMapEffect_sound {l s} (h : Sound s₀ s) : Sound s₀ (bridgeMapEffect l s) := sound_with h

theorem cmdBridgeMap_sound {r t s} (h : Sound s₀ s) : Sound s₀ (cmdBridgeMap r t s) :=
  runCmd_sound (fun _ _ h1 => finishPlain_sound (bridgeMapEffect_sound h1)) h

/-! ### Machine/Security -/

theorem useLeaf_sound {s} (h : Sound s₀ s) : Sound s₀ (useLeaf s) := sound_with h

theorem attestSpdm_sound {pair l t s} (h : Sound s₀ s) : Sound s₀ (attestSpdm pair l t s) := by
  unfold attestSpdm
  extract_lets a x s1
  have hs1 : Sound s₀ s1 := sound_with h
  exact sound_ite (finishPlain_sound h) (finish_sound (sound_ite (useLeaf_sound hs1) hs1))

theorem attestEffect_sound {pair l t s} (h : Sound s₀ s) : Sound s₀ (attestEffect pair l t s) := by
  unfold attestEffect
  split
  · exact attestSpdm_sound h
  · exact finishPlain_sound h
  · exact sound_ite (finishPlain_sound h) (finish_sound (useLeaf_sound h))
  · exact finish_sound h

theorem cmdAttestGet_sound {r t s} (h : Sound s₀ s) : Sound s₀ (cmdAttestGet r t s) :=
  runCmd_sound (fun _ _ => attestEffect_sound) h

theorem transitionRecords_sound {s target tk} (h : Sound s₀ s) : Sound s₀ (transitionRecords s target tk) := by
  unfold transitionRecords
  refine sound_ite ?_ ?_
  · exact flashErase_sound (flashErase_sound (flashErase_sound h))
  · exact sound_ite (flashWrite_sound (flashErase_sound h)) (sound_ite (flashErase_sound h) h)

theorem lifecycleEffect_sound {l readBackOk t s} (h : Sound s₀ s) : Sound s₀ (lifecycleEffect l readBackOk t s) := by
  unfold lifecycleEffect
  extract_lets target tk vendor c1 s1 x f x1 s2 c s3
  have hs1 : Sound s₀ s1 := transitionRecords_sound h
  have hs2 : Sound s₀ s2 := sound_with hs1
  have hs3 : Sound s₀ s3 := sound_with hs1
  exact sound_ite (finishPlain_sound h) (sound_ite (finishPlain_sound hs2) (finishPlain_sound hs3))

theorem cmdLifecycleAdvance_sound {readBackOk r t s} (h : Sound s₀ s) : Sound s₀ (cmdLifecycleAdvance readBackOk r t s) :=
  runCmd_sound (fun _ _ => lifecycleEffect_sound) h

theorem exportEffect_sound {l t s} (h : Sound s₀ s) : Sound s₀ (exportEffect l t s) := by
  unfold exportEffect
  split
  · exact finishPlain_sound h
  · exact sound_ite (finishPlain_sound h) (finish_sound (useLeaf_sound h))

theorem cmdConfigExport_sound {r t s} (h : Sound s₀ s) : Sound s₀ (cmdConfigExport r t s) :=
  runCmd_sound (fun _ _ => exportEffect_sound) h

theorem importEffect_sound {l t s} (h : Sound s₀ s) : Sound s₀ (importEffect l t s) := by
  unfold importEffect
  extract_lets d
  refine sound_ite ?_ ?_
  · exact finishPlain_sound (storeRecord_sound h)
  · exact sound_ite (finishPlain_sound (storeRecord_sound h)) (finishPlain_sound h)

theorem cmdConfigImport_sound {r t s} (h : Sound s₀ s) : Sound s₀ (cmdConfigImport r t s) :=
  runCmd_sound (fun _ _ => importEffect_sound) h

/-! ### Machine/Boot -/

/-- A reset leaves the flash and its buffer; every other memory is empty. -/
theorem resetTo_sound {s c} (h : Sound s₀ s) : Sound s₀ (resetTo s c) := by
  refine ⟨fun m => ?_, fun _ => ⟨rfl, rfl, rfl, by simp [resetTo, Stand.assign]⟩⟩
  obtain ⟨hl, ht, hf, hb⟩ := h.memory m
  exact ⟨rfl, rfl, hf, hb⟩

theorem tearFlash_sound {s} (h : Sound s₀ s) : Sound s₀ (tearFlash s) := by
  unfold tearFlash
  split
  · extract_lets x
    have hx : Sound s₀ x := flashWrite_sound h
    exact sound_with hx
  · extract_lets x
    have hx : Sound s₀ x := flashWrite_sound h
    exact sound_with hx
  · exact h

theorem powerLoss_sound {s} (h : Sound s₀ s) : Sound s₀ (powerLoss s) := by
  unfold powerLoss
  refine sound_ite h ?_
  have h1 := resetTo_sound (c := .powerOn) (tearFlash_sound h)
  exact sound_of h1 (buf := fun _ => rfl)

theorem powerOn_sound {straps s} (h : Sound s₀ s) : Sound s₀ (powerOn straps s) := by
  unfold powerOn
  have h1 := resetTo_sound (c := .powerOn) h
  exact sound_ite h (sound_of h1 (buf := fun _ => rfl))

theorem resetInput_sound {lowNs s} (h : Sound s₀ s) : Sound s₀ (resetInput lowNs s) := by
  unfold resetInput
  refine sound_ite ?_ ?_
  · exact h
  · extract_lets s1 x
    have hs1 : Sound s₀ s1 := resetTo_sound h
    exact sound_with hs1

theorem innerReset_sound {c s} (h : Sound s₀ s) : Sound s₀ (innerReset c s) := resetTo_sound h

theorem finishUds_sound {s} (h : Sound s₀ s) : Sound s₀ (finishUds s) := sound_ite (sound_with h) h

theorem deriveKeys_sound {s} (h : Sound s₀ s) : Sound s₀ (deriveKeys s) := by
  unfold deriveKeys
  refine sound_ite ?_ ?_
  · exact h
  · extract_lets x s1
    have hs1 : Sound s₀ s1 := sound_with h
    split
    · extract_lets s2 x1
      have hs2 : Sound s₀ s2 := writeLeaf_sound hs1
      exact sound_with hs2
    · exact hs1

theorem formMeasurements_sound {img ca cb s} (h : Sound s₀ s) : Sound s₀ (formMeasurements img ca cb s) := sound_with h

theorem firmwareStart_sound {s} (h : Sound s₀ s) : Sound s₀ (firmwareStart s) := by
  unfold firmwareStart
  extract_lets rec_ given id x s1 x1 s2 x2 x3
  have hs1 : Sound s₀ s1 := sound_with h
  have hs2 : Sound s₀ s2 := by
    dsimp only [s2]
    clear_value rec_
    split
    · exact sound_with hs1
    · exact hs1
  exact sound_ite (sound_with hs2) (sound_of hs2 (shape := by simp))

theorem bootRom_sound {s0} (h : Sound s₀ s0) : Sound s₀ (bootRom s0) := by
  unfold bootRom
  extract_lets s ca cb fa fb x
  have hs : Sound s₀ s := finishUds_sound h
  split
  · exact sound_with hs
  · extract_lets s1 ea eb x1 s2
    have hs1 : Sound s₀ s1 := setFailCount_sound hs
    have hs2 : Sound s₀ s2 := sound_with hs1
    exact firmwareStart_sound (deriveKeys_sound (formMeasurements_sound hs2))

theorem resetRelease_sound {selfTestsPass s} (h : Sound s₀ s) : Sound s₀ (Machine.resetRelease selfTestsPass s) := by
  unfold Machine.resetRelease
  refine sound_ite ?_ ?_
  · exact h
  · extract_lets x s1 x1
    have hs1 : Sound s₀ s1 := sound_with h
    exact sound_ite (sound_with hs1) (sound_ite (sound_with hs1) (bootRom_sound hs1))

theorem pcieDetectEnd_sound {found s} (h : Sound s₀ s) : Sound s₀ (pcieDetectEnd found s) := by
  unfold pcieDetectEnd
  refine sound_ite ?_ ?_
  · exact h
  · exact sound_ite (sound_of h (shape := by simp)) (sound_of h (shape := by simp))

theorem applyBind_sound {s l} (h : Sound s₀ s) : Sound s₀ (applyBind s l) := sound_ite (bindEffect_sound h) (bump_sound h)

theorem applyBridge_sound {s l} (h : Sound s₀ s) : Sound s₀ (applyBridge s l) :=
  sound_ite h (sound_ite (bridgeMapEffect_sound h) (bump_sound h))

theorem applyRecord_sound {s} (h : Sound s₀ s) : Sound s₀ (applyRecord s) := by
  unfold applyRecord
  split
  · exact h
  · extract_lets w x s1 secs
    have hs1 : Sound s₀ s1 := sound_with h
    refine sound_ite ?_ ?_
    · exact foldl_sound (fun _ _ => applyBind_sound) (foldl_sound (fun _ _ => applyBridge_sound) hs1)
    · exact foldl_sound (fun _ _ => applyBind_sound) hs1

theorem raiseFuses_sound {s} (h : Sound s₀ s) : Sound s₀ (raiseFuses s) := sound_ite (sound_with h) h

theorem moduleReady_sound {s} (h : Sound s₀ s) : Sound s₀ (moduleReady s) := by
  unfold moduleReady
  refine sound_ite ?_ ?_
  · exact h
  · extract_lets s1 x s2
    have hs1 : Sound s₀ s1 := applyRecord_sound (sound_of h (landing := fun _ => rfl) (t1 := fun _ => rfl))
    have hs2 : Sound s₀ s2 := setFailCount_sound (sound_with hs1)
    exact raiseFuses_sound hs2

theorem firmwareWatchdog_sound {s} (h : Sound s₀ s) : Sound s₀ (firmwareWatchdog s) := sound_ite (innerReset_sound h) h

theorem lifecycleReset_sound {s} (h : Sound s₀ s) : Sound s₀ (lifecycleReset s) := by
  unfold lifecycleReset
  split
  · exact sound_ite (innerReset_sound h) h
  · exact h

theorem setdasa_sound {addr s} (h : Sound s₀ s) : Sound s₀ (setdasa addr s) := sound_ite (sound_with h) h

/-! ### Machine/Loads -/

theorem loadStart_sound {c i t l s} (h : Sound s₀ s) : Sound s₀ (loadStart c i t l s) := by
  unfold loadStart
  extract_lets x stored
  split
  · exact finishPlain_sound h
  · refine sound_ite ?_ ?_
    · exact protection_sound h
    · extract_lets s1 res s2 r
      have hs1 : Sound s₀ s1 := modPart_sound h
      have hs2 : Sound s₀ s2 := sound_ite (modPart_sound hs1) hs1
      have hr : Sound s₀ r.1 := startFill_sound hs2
      exact sound_ite hr (finishPlain_sound (modPart_sound hr))

theorem cmdLoad_sound {c r t s} (h : Sound s₀ s) : Sound s₀ (cmdLoad c r t s) :=
  runCmd_sound (fun _ _ => loadStart_sound) h

theorem cmdModelSwapIn_sound {r t s} (h : Sound s₀ s) : Sound s₀ (cmdModelSwapIn r t s) := cmdLoad_sound h

theorem cmdIndexLoad_sound {r t s} (h : Sound s₀ s) : Sound s₀ (cmdIndexLoad r t s) := cmdLoad_sound h

theorem cmdTableLoad_sound {r t s} (h : Sound s₀ s) : Sound s₀ (cmdTableLoad r t s) := cmdLoad_sound h

theorem cmdTokenizerLoad_sound {r t s} (h : Sound s₀ s) : Sound s₀ (cmdTokenizerLoad r t s) := cmdLoad_sound h

theorem cmdGrammarLoad_sound {r t s} (h : Sound s₀ s) : Sound s₀ (cmdGrammarLoad r t s) := cmdLoad_sound h

theorem contentIn_sound {s i} (h : Sound s₀ s) : Sound s₀ (contentIn s i) := sound_ite (modPart_sound h) h

theorem loadFail_sound {s i t st detail} (h : Sound s₀ s) : Sound s₀ (loadFail s i t st detail) :=
  finishPlain_sound (modPart_sound h)

theorem loadArrive_sound {s t bytes} (h : Sound s₀ s) : Sound s₀ (loadArrive s t bytes) := by
  unfold loadArrive
  split
  · exact h
  · extract_lets i x raw
    split
    · exact h
    · extract_lets res
      clear_value raw
      split
      · exact loadFail_sound h
      · refine sound_ite ?_ ?_
        · exact modPart_sound h
        · extract_lets kept place at_
          split
          · exact loadFail_sound h
          · refine sound_ite ?_ ?_
            · exact loadFail_sound h
            · extract_lets x1 s1 s2
              have hs1 : Sound s₀ s1 := t1Store_sound (modPart_sound h)
              have hs2 : Sound s₀ s2 := sound_ite (formDigest_sound hs1) hs1
              exact finishPlain_sound (contentIn_sound hs2)

theorem contentOut_sound {s i} (h : Sound s₀ s) : Sound s₀ (contentOut s i) := sound_ite (modPart_sound h) h

theorem cmdModelSwapOut_sound {r t s} (h : Sound s₀ s) : Sound s₀ (cmdModelSwapOut r t s) :=
  runCmd_sound (fun _ _ h1 => (finishPlain_sound (contentOut_sound (formDigest_sound (modPart_sound h1))))) h

theorem cmdIndexUnload_sound {r t s} (h : Sound s₀ s) : Sound s₀ (cmdIndexUnload r t s) :=
  runCmd_sound (fun _ _ h1 => (sound_ite (finishPlain_sound (contentOut_sound (formDigest_sound (modPart_sound h1))))
    (modPart_sound h1))) h

theorem cmdContentUnload_sound {r t s} (h : Sound s₀ s) : Sound s₀ (cmdContentUnload r t s) :=
  runCmd_sound (fun _ _ h1 => finishPlain_sound (contentOut_sound (modPart_sound h1))) h

/-! ### Machine/Sawmill -/

theorem countText_sound {s i bytes tokens repaired cuts}
    (h : Sound s₀ s) : Sound s₀ (countText s i bytes tokens repaired cuts) :=
  bump_sound (bump_sound (bump_sound (bump_sound h)))

theorem tokenizeDone_sound {t s} (h : Sound s₀ s) : Sound s₀ (tokenizeDone t s) := by
  unfold tokenizeDone
  split
  · exact h
  · extract_lets i
    split
    · exact finishPlain_sound h
    · exact finish_sound (countText_sound h)

theorem unlessDamaged_sound {damaged eff t s} (heff : ∀ a s, Sound s₀ s → Sound s₀ (eff a s))
    (h : Sound s₀ s) : Sound s₀ (unlessDamaged damaged eff t s) :=
  sound_ite (finishPlain_sound h) (heff _ _ h)

theorem cmdTokenizeSubmit_sound {r t s} (h : Sound s₀ s) : Sound s₀ (cmdTokenizeSubmit r t s) :=
  runCmd_sound (fun _ _ h1 => unlessDamaged_sound (fun _ _ => queueJob_sound) h1) h

theorem detokenizeDone_sound {t s} (h : Sound s₀ s) : Sound s₀ (detokenizeDone t s) := by
  unfold detokenizeDone
  split
  · exact h
  · extract_lets i o g
    split
    · exact finishPlain_sound h
    · exact finish_sound (bump_sound (bump_sound h))

theorem cmdDetokenizeSubmit_sound {r t s} (h : Sound s₀ s) : Sound s₀ (cmdDetokenizeSubmit r t s) :=
  runCmd_sound (fun _ _ h1 => unlessDamaged_sound (fun _ _ => queueJob_sound) h1) h

/-! ### Machine/Tally -/

theorem countRows_sound {s i rows elems dups nans} (h : Sound s₀ s) : Sound s₀ (countRows s i rows elems dups nans) :=
  bump_sound (bump_sound (bump_sound (bump_sound h)))

theorem tallyDone_sound {t s} (h : Sound s₀ s) : Sound s₀ (tallyDone t s) := by
  unfold tallyDone
  split
  · exact h
  · exact sound_ite (finish_sound (countRows_sound h)) (finish_sound (countRows_sound h))

theorem cmdTallySubmit_sound {r t s} (h : Sound s₀ s) : Sound s₀ (cmdTallySubmit r t s) :=
  runCmd_sound (fun _ _ => queueJob_sound) h

/-! ### Machine/Yarder -/

theorem askRows_sound {s i job t after items} (h : Sound s₀ s) : Sound s₀ (askRows s i job t after items).1 := by
  unfold askRows
  exact foldl_fst_sound (fun _ _ h1 => by
      split
      · exact placeCall_sound h1
      · exact h1) h

theorem askReplicas_sound {s c job comp t items} (h : Sound s₀ s) : Sound s₀ (askReplicas s c job comp t items).1 := by
  unfold askReplicas
  exact foldl_fst_sound (fun _ _ h1 => by
      split
      · exact placeCall_sound h1
      · exact h1) h

theorem dropGather_sound {s job} (h : Sound s₀ s) : Sound s₀ (dropGather s job) := by
  unfold dropGather
  extract_lets x
  have hx : Sound s₀ x := dropJob_sound h
  exact sound_with hx

theorem gatherBegin_sound {s i t tb after fmt parts} (h : Sound s₀ s) : Sound s₀ (gatherBegin s i t tb after fmt parts).1 := by
  unfold gatherBegin
  dsimp only
  split
  · exact feedUnits_sound (askRows_sound (modJob_sound (addJob_sound h)))
  · exact dropGather_sound (askRows_sound (modJob_sound (addJob_sound h)))

theorem countFetches_sound {s i job t items} (h : Sound s₀ s) : Sound s₀ (countFetches s i job t items) :=
  foldl_sound (fun _ _ => fetchOwn_sound) h

theorem slotsWritten_sound {s i job rb fmt pooled slots occ}
    (h : Sound s₀ s) : Sound s₀ (slotsWritten s i job rb fmt pooled slots occ) := by
  unfold slotsWritten
  extract_lets s1
  have hs1 : Sound s₀ s1 := areaPut_sound h
  exact sound_ite hs1 (charge_sound (bump_sound (bump_sound hs1)))

theorem runGather_sound {s i job t rows fmt pooled parts}
    (h : Sound s₀ s) : Sound s₀ (runGather s i job t rows fmt pooled parts) :=
  bump_sound (bump_sound (foldl_sound (fun _ _ h1 => slotsWritten_sound (countFetches_sound h1)) h))

theorem gatherDone_sound {j s} (h : Sound s₀ s) : Sound s₀ (gatherDone j s) := by
  unfold gatherDone
  split
  · exact dropGather_sound h
  · extract_lets i l idx pooled
    split
    · exact finishPlain_sound (dropGather_sound h)
    · extract_lets items parts rows out e bs
      refine sound_ite ?_ ?_
      · exact finishPlain_sound (dropGather_sound h)
      · exact finish_sound (dropGather_sound (runGather_sound h))

theorem cmdGatherSubmit_sound {r t s} (h : Sound s₀ s) : Sound s₀ (cmdGatherSubmit r t s) := by
  unfold cmdGatherSubmit
  extract_lets i l tb form
  exact runCmd_sound (fun _ _ h1 => by
      clear_value tb
      split
      · exact sound_ite (gatherBegin_sound h1) (finishPlain_sound (gatherBegin_sound h1))
      · exact h1) h

theorem peerGatherDone_sound {j s} (h : Sound s₀ s) : Sound s₀ (peerGatherDone j s) := by
  unfold peerGatherDone
  split
  · exact dropJob_sound h
  · extract_lets i items
    split
    · exact finishPlain_sound (dropJob_sound h)
    · refine sound_ite ?_ ?_
      · exact finishPlain_sound (dropJob_sound h)
      · exact finish_sound (foldl_sound (fun _ _ => fetchOwn_sound) (dropJob_sound h))

theorem cmdPeerGather_sound {r t s} (h : Sound s₀ s) : Sound s₀ (cmdPeerGather r t s) :=
  runCmd_sound (fun _ _ => queueJob_sound) h

theorem modTable_sound {s i id f} (h : Sound s₀ s) : Sound s₀ (modTable s i id f) := modPart_sound h

theorem updateBegin_sound {s i t tb l} (h : Sound s₀ s) : Sound s₀ (updateBegin s i t tb l) := by
  unfold updateBegin
  extract_lets me e source base cs s0 for_ holders toAll s1 away lostOne s2
  have hs0 : Sound s₀ s0 := modTable_sound h
  have hs1 : Sound s₀ s1 := sound_ite (modTable_sound hs0) hs0
  have hs2 : Sound s₀ s2 := foldl_sound (fun _ _ => placeCall_sound) hs1
  refine sound_ite ?_ ?_
  · exact finishPlain_sound h
  · exact sound_ite (finishPlain_sound h) (sound_ite hs2 (finishPlain_sound hs2))

theorem cmdUpdateSubmit_sound {r t s} (h : Sound s₀ s) : Sound s₀ (cmdUpdateSubmit r t s) := by
  unfold cmdUpdateSubmit
  extract_lets i l tb form x
  exact runCmd_sound (fun _ _ h1 => by
      clear_value tb
      split
      · exact updateBegin_sound h1
      · exact h1) h

theorem cmdPeerUpdate_sound {r t s} (h : Sound s₀ s) : Sound s₀ (cmdPeerUpdate r t s) := by
  unfold cmdPeerUpdate
  extract_lets i l tb src cs x
  exact runCmd_sound (fun _ _ h1 => by
      clear_value tb
      clear_value cs
      split
      · exact sound_ite (finish_sound h1) (finish_sound (modTable_sound h1))
      · exact h1) h

theorem applyRow_sound {s i t k row cs} (h : Sound s₀ s) : Sound s₀ (applyRow s i t k row cs) :=
  refreshCopy_sound (t1Store_sound h)

theorem applyEpoch_sound {s i t} (h : Sound s₀ s) : Sound s₀ (applyEpoch s i t) :=
  bump_sound (modTable_sound (foldl_sound (fun _ _ => applyRow_sound) h))

theorem applyEpochs_sound {i id n s} (h : Sound s₀ s) : Sound s₀ (applyEpochs i id n s) := by
  induction n generalizing s with
  | zero => exact h
  | succ n ih =>
    unfold applyEpochs
    split
    · exact sound_ite (ih (applyEpoch_sound h)) h
    · exact h

theorem boundaryEpochs_sound {i s} (h : Sound s₀ s) : Sound s₀ (boundaryEpochs i s) :=
  feedUnits_sound (foldl_sound (fun _ _ => applyEpochs_sound) h)

theorem cacheHalve_sound {part s} (h : Sound s₀ s) : Sound s₀ (cacheHalve part s) := sound_ite h (modPart_sound h)

/-! ### Machine/Cruiser -/

theorem modIndex_sound {s i id f} (h : Sound s₀ s) : Sound s₀ (modIndex s i id f) := modPart_sound h

theorem modSearch_sound {s id f} (h : Sound s₀ s) : Sound s₀ (s.modSearch id f) := sound_with h

theorem dropSearch_sound {s id} (h : Sound s₀ s) : Sound s₀ (s.dropSearch id) := sound_with h

theorem addParts_sound {s x y} (h : Sound s₀ s) : Sound s₀ (addParts s x y) :=
  foldl_sound (fun _ _ h1 => sound_ite h1 (addJob_sound h1)) h

theorem askShard_sound {s x y shard} (h : Sound s₀ s) : Sound s₀ (askShard s x y shard) := by
  unfold askShard
  extract_lets m
  split
  · exact placeCall_sound h
  · exact modSearch_sound h

theorem countMerge_sound {s i lists out} (h : Sound s₀ s) : Sound s₀ (countMerge s i lists out) := countRows_sound h

theorem cancelSearch_sound {s id} (h : Sound s₀ s) : Sound s₀ (cancelSearch s id) := by
  unfold cancelSearch
  extract_lets mine x
  have hx : Sound s₀ x := dropJobs_sound (dropSearch_sound h)
  exact sound_with hx

theorem searchAdvance_sound {s id} (h : Sound s₀ s) : Sound s₀ (searchAdvance s id) := by
  unfold searchAdvance
  split
  · exact sound_ite (queueJob_sound h) h
  · exact h

theorem searchBegin_sound {s i owner x b qs} (h : Sound s₀ s) : Sound s₀ (searchBegin s i owner x b qs) := by
  unfold searchBegin
  extract_lets id want own y s1 s2 s3
  have hs1 : Sound s₀ s1 := sound_with h
  have hs2 : Sound s₀ s2 := sound_ite (addParts_sound hs1) hs1
  have hs3 : Sound s₀ s3 := foldl_sound (fun _ _ => askShard_sound) hs2
  exact searchAdvance_sound (feedUnits_sound hs3)

theorem countPart_sound {s i o} (h : Sound s₀ s) : Sound s₀ (countPart s i o) :=
  bump_sound (bump_sound (bump_sound (bump_sound (bump_sound h))))

theorem partEnds_sound {j turns s} (h : Sound s₀ s) : Sound s₀ (partEnds j turns s) := by
  unfold partEnds
  split
  · split
    · exact dropJob_sound h
    · split
      · exact dropJob_sound h
      · extract_lets v sap o s1 s2
        have hs1 : Sound s₀ s1 := countPart_sound (dropJob_sound h)
        have hs2 : Sound s₀ s2 := modSearch_sound (sound_ite (sound_with hs1) hs1)
        exact sound_ite hs2 (addJob_sound hs2)
  · exact h

theorem searchPartDone_sound {j s} (h : Sound s₀ s) : Sound s₀ (searchPartDone j s) := partEnds_sound h

theorem shardMergeDone_sound {j id s} (h : Sound s₀ s) : Sound s₀ (shardMergeDone j id s) := by
  unfold shardMergeDone
  split
  · exact dropJob_sound h
  · extract_lets lists out x a s1 n
    have hs1 : Sound s₀ s1 := countMerge_sound (dropJob_sound h)
    split
    · exact finish_sound (dropSearch_sound hs1)
    · exact searchAdvance_sound (modSearch_sound hs1)

theorem countSearch_sound {s y} (h : Sound s₀ s) : Sound s₀ (countSearch s y) := bump_sound (bump_sound h)

theorem homeMerged_sound {j id s} (h : Sound s₀ s) : Sound s₀ (homeMerged j id s).1 := by
  unfold homeMerged
  split
  · exact dropJob_sound h
  · exact countSearch_sound (countMerge_sound (dropSearch_sound (dropJob_sound h)))

theorem searchRecord_sound {t y out s} (h : Sound s₀ s) : Sound s₀ (searchRecord t y out s) := by
  unfold searchRecord
  split
  · exact finishPlain_sound h
  · exact sound_ite (finish_sound h) (finish_sound h)

theorem shardMissing_sound {s id shard} (h : Sound s₀ s) : Sound s₀ (shardMissing s id shard) :=
  searchAdvance_sound (modSearch_sound h)

theorem shardAnswered_sound {s id shard st bytes} (h : Sound s₀ s) : Sound s₀ (shardAnswered s id shard st bytes) := by
  unfold shardAnswered
  split
  · exact h
  · refine sound_ite ?_ ?_
    · exact shardMissing_sound h
    · split
      · exact searchAdvance_sound (modSearch_sound h)
      · exact shardMissing_sound h

theorem cmdSearchSubmit_sound {r t s} (h : Sound s₀ s) : Sound s₀ (cmdSearchSubmit r t s) := by
  unfold cmdSearchSubmit
  extract_lets i l x b x1
  exact runCmd_sound (fun _ _ h1 => by
      clear_value x
      split
      · exact searchBegin_sound h1
      · exact h1) h

theorem peerSearchBegin_sound {s i t x b qs} (h : Sound s₀ s) : Sound s₀ (peerSearchBegin s i t x b qs) :=
  feedUnits_sound (addParts_sound (sound_with h))

theorem cmdPeerSearch_sound {r t s} (h : Sound s₀ s) : Sound s₀ (cmdPeerSearch r t s) := by
  unfold cmdPeerSearch
  extract_lets i l n x b x1
  exact runCmd_sound (fun _ _ h1 => by
      clear_value x
      split
      · exact sound_ite (finish_sound h1) (peerSearchBegin_sound h1)
      · exact h1) h

theorem budgetExpiry_sound {j s} (h : Sound s₀ s) : Sound s₀ (budgetExpiry j s) := by
  unfold budgetExpiry
  extract_lets n s1
  have hs1 : Sound s₀ s1 := by
    dsimp only [s1]
    split
    · exact freeUnit_sound h
    · exact h
  exact feedUnits_sound (partEnds_sound (sound_with hs1))

theorem addChange_sound {s i t index k} (h : Sound s₀ s) : Sound s₀ (addChange s i t index k) := modPart_sound h

theorem cmdSearchInsert_sound {r t s} (h : Sound s₀ s) : Sound s₀ (cmdSearchInsert r t s) := by
  unfold cmdSearchInsert
  extract_lets i x x1
  exact runCmd_sound (fun _ _ h1 => by
      clear_value x
      split
      · exact sound_ite (finishPlain_sound h1) (addChange_sound h1)
      · exact h1) h

theorem cmdSearchDelete_sound {r t s} (h : Sound s₀ s) : Sound s₀ (cmdSearchDelete r t s) := by
  unfold cmdSearchDelete
  extract_lets i l x x1
  exact runCmd_sound (fun _ _ h1 => by
      clear_value x
      split
      · exact sound_ite (finishPlain_sound h1) (addChange_sound h1)
      · exact h1) h

theorem cmdPlantStart_sound {r t s} (h : Sound s₀ s) : Sound s₀ (cmdPlantStart r t s) := by
  unfold cmdPlantStart
  extract_lets i l x ef x1
  exact runCmd_sound (fun _ _ h1 => by
      clear_value x
      split
      · exact sound_ite (finishPlain_sound h1) (addChange_sound h1)
      · exact h1) h

theorem plantingReady_sound {j index s} (h : Sound s₀ s) : Sound s₀ (plantingReady j index s) := by
  unfold plantingReady
  extract_lets s1
  have hs1 : Sound s₀ s1 := modIndex_sound (dropJob_sound h)
  split
  · split
    · exact bump_sound hs1
    · exact hs1
  · exact hs1

theorem plantingDue_sound {i index s} (h : Sound s₀ s) : Sound s₀ (plantingDue i index s) := by
  unfold plantingDue
  split
  · split
    · exact sound_ite (addChange_sound h) h
    · exact h
  · exact h

theorem storeIn_sound {s i frames off bs} (h : Sound s₀ s) : Sound s₀ (storeIn s i frames off bs) :=
  foldl_sound (fun _ _ => t1Store_sound) h

theorem storeSeeds_sound {s i index k es} (h : Sound s₀ s) : Sound s₀ (storeSeeds s i index k es) := by
  unfold storeSeeds
  split
  · exact storeIn_sound h
  · exact h

theorem storeNode_sound {i x s u} (h : Sound s₀ s) : Sound s₀ (storeNode i x s u) :=
  sound_ite (t1Store_sound (t1Store_sound h)) (storeIn_sound h)

theorem storeNodes_sound {s i old new} (h : Sound s₀ s) : Sound s₀ (storeNodes s i old new) :=
  foldl_sound (fun _ _ => storeNode_sound) h

theorem insertApply_sound {s i x t es} (h : Sound s₀ s) : Sound s₀ (insertApply s i x t es) := by
  unfold insertApply
  extract_lets total need
  refine sound_ite ?_ ?_
  · exact finishPlain_sound h
  · refine sound_ite ?_ ?_
    · exact finishPlain_sound h
    · split
      · exact finishPlain_sound h
      · exact finishPlain_sound (storeSeeds_sound (modIndex_sound h))

theorem deleteApply_sound {s i x t ids} (h : Sound s₀ s) : Sound s₀ (deleteApply s i x t ids) :=
  finishPlain_sound (storeNodes_sound (storeSeeds_sound (modIndex_sound h)))

theorem bitmapApply_sound {s i x t b chipper res bytes} (h : Sound s₀ s) : Sound s₀ (bitmapApply s i x t b chipper res bytes) :=
  sound_ite (loadFail_sound h) (finishPlain_sound (t1Store_sound (modPart_sound (modIndex_sound h))))

theorem plantApply_sound {s i x t ef} (h : Sound s₀ s) : Sound s₀ (plantApply s i x t ef) := by
  unfold plantApply
  refine sound_ite ?_ ?_
  · exact finishPlain_sound h
  · split
    · exact finishPlain_sound h
    · exact addJob_sound (modIndex_sound h)

theorem switchApply_sound {s i x t} (h : Sound s₀ s) : Sound s₀ (switchApply s i x t) := by
  unfold switchApply
  split
  · exact h
  · exact finishPlain_sound (bump_sound (storeNodes_sound (storeSeeds_sound (modIndex_sound h))))

theorem applyChange_sound {s i c} (h : Sound s₀ s) : Sound s₀ (applyChange s i c) := by
  unfold applyChange
  extract_lets s1
  have hs1 : Sound s₀ s1 := modPart_sound h
  split
  · exact finishPlain_sound hs1
  · split
    · exact insertApply_sound hs1
    · exact deleteApply_sound hs1
    · exact bitmapApply_sound hs1
    · exact finishPlain_sound (modIndex_sound hs1)
    · exact plantApply_sound hs1
    · exact switchApply_sound hs1

theorem applyChanges_sound {i index n s} (h : Sound s₀ s) : Sound s₀ (applyChanges i index n s) := by
  induction n generalizing s with
  | zero => exact h
  | succ n ih =>
    unfold applyChanges
    split
    · exact h
    · exact sound_ite h (sound_ite (modPart_sound h) (ih (applyChange_sound h)))

theorem replanParts_sound {s i} (h : Sound s₀ s) : Sound s₀ (replanParts s i) := by
  unfold replanParts
  exact foldl_sound (fun _ _ h1 => by
      split
      · exact addParts_sound h1
      · exact h1) h

theorem boundaryChanges_sound {i s} (h : Sound s₀ s) : Sound s₀ (boundaryChanges i s) :=
  feedUnits_sound (replanParts_sound (foldl_sound (fun _ _ => applyChanges_sound) h))

theorem changeBoundary_sound {i s} (h : Sound s₀ s) : Sound s₀ (changeBoundary i s) :=
  sound_ite (boundaryEpochs_sound (boundaryChanges_sound h)) h

/-! ### Machine/Global -/

theorem modGlobal_sound {s i t f} (h : Sound s₀ s) : Sound s₀ (modGlobal s i t f) := modPart_sound h

theorem releaseHeld_sound {s i} (h : Sound s₀ s) : Sound s₀ (releaseHeld s i) :=
  sound_ite h (foldl_sound (fun _ _ => sendPeer_sound) (sound_with h))

theorem dropGlobal_sound {s i t} (h : Sound s₀ s) : Sound s₀ (dropGlobal s i t) := modPart_sound h

theorem alignDropped_sound {s i} (h : Sound s₀ s) : Sound s₀ (alignDropped s i) := by
  unfold alignDropped
  exact foldl_sound (fun _ _ h1 => by
      split
      · exact finish_sound (dropGlobal_sound h1)
      · exact h1) h

theorem partitionReset_sound {s i t} (h : Sound s₀ s) : Sound s₀ (partitionReset s i t) := by
  unfold partitionReset
  extract_lets s1 s2 s3
  have hs1 : Sound s₀ s1 := alignDropped_sound (dropGlobal_sound h)
  have hs2 : Sound s₀ s2 := foldl_sound (fun _ _ => endRequest_sound) hs1
  have hs3 : Sound s₀ s3 := foldl_sound (fun _ _ => finishPlain_sound) hs2
  exact modPart_sound hs3

theorem countOp_sound {s i g st down} (h : Sound s₀ s) : Sound s₀ (countOp s i g st down) :=
  bumpMax_sound (bump_sound (bump_sound h))

theorem completeOp_sound {s i g x release data} (h : Sound s₀ s) : Sound s₀ (completeOp s i g x release data) := by
  unfold completeOp
  extract_lets st rel extra block s1 fin pos s2 x1 s3
  have hs1 : Sound s₀ s1 := countOp_sound h
  have hs2 : Sound s₀ s2 := dropGlobal_sound (finish_sound hs1)
  have hs3 : Sound s₀ s3 := finish_sound (modGlobal_sound hs1)
  refine sound_ite ?_ ?_
  · exact modGlobal_sound hs1
  · refine sound_ite ?_ ?_
    · exact sound_ite (sound_with hs2) (sound_ite hs3 (partitionReset_sound hs3))
    · exact sound_ite (releaseHeld_sound hs2) hs2

theorem alignFired_sound {s i t} (h : Sound s₀ s) : Sound s₀ (alignFired s i t) := by
  unfold alignFired
  split
  · split
    · exact finish_sound (dropGlobal_sound h)
    · exact h
  · exact h

theorem ownTimeout_sound {s i g} (h : Sound s₀ s) : Sound s₀ (ownTimeout s i g) := completeOp_sound (sound_with h)

theorem tryUp_sound {s i g} (h : Sound s₀ s) : Sound s₀ (tryUp s i g).1 := by
  unfold tryUp
  dsimp only
  split
  · exact modGlobal_sound h
  · split
    · exact completeOp_sound (bump_sound h)
    · exact sound_ite (ownTimeout_sound (modGlobal_sound (bump_sound h))) (modGlobal_sound (bump_sound h))

theorem takeToken12_sound {s i g l} (h : Sound s₀ s) : Sound s₀ (takeToken12 s i g l).1 := by
  unfold takeToken12
  dsimp only
  split
  · split
    · exact tryUp_sound (modGlobal_sound h)
    · exact sound_fst (bump_sound h)
  · split
    · exact completeOp_sound (bump_sound h)
    · exact sound_fst (bump_sound h)

theorem tokenAt_sound {s i f} (h : Sound s₀ s) : Sound s₀ (tokenAt s i f).1 := by
  have h1 : Sound s₀ (bump s .blazeReceived i 0 1) := bump_sound h
  unfold tokenAt
  dsimp only
  split
  · exact takeToken12_sound h1
  · split
    · exact sound_fst (bump_sound h1)
    · exact sound_fst (modPart_sound h1)

theorem deliver_sound {n s l} (h : Sound s₀ s) : Sound s₀ (deliver n s l) := by
  induction n generalizing s l with
  | zero =>
    unfold deliver
    exact h
  | succ n ih =>
    cases l with
    | nil =>
      unfold deliver
      exact h
    | cons x rest => exact sound_ite (ih (tokenAt_sound h)) (ih (sendFrame_sound (charge_sound h)))

theorem deliverAll_sound {s i os} (h : Sound s₀ s) : Sound s₀ (deliverAll s i os) := deliver_sound h

theorem groupResetNow_sound {s} (h : Sound s₀ s) : Sound s₀ (groupResetNow s) := sound_ite (innerReset_sound h) h

theorem blazeArrive_sound {f s} (h : Sound s₀ s) : Sound s₀ (blazeArrive f s) :=
  sound_ite h (groupResetNow_sound (deliverAll_sound (tokenAt_sound (charge_sound h))))

theorem joinOp_sound {s i g} (h : Sound s₀ s) : Sound s₀ (joinOp s i g) := by
  unfold joinOp
  extract_lets p g1 serving g2 mine held s1 r s2
  have hs1 : Sound s₀ s1 := modPart_sound (modGlobal_sound h)
  have hr : Sound s₀ r.1 := tryUp_sound hs1
  have hs2 : Sound s₀ s2 := deliverAll_sound hr
  exact foldl_sound (fun _ _ h1 => by
      split
      · exact deliverAll_sound (takeToken12_sound h1)
      · exact bump_sound h1) hs2

theorem boundaryGlobals_sound {i s} (h : Sound s₀ s) : Sound s₀ (boundaryGlobals i s) := by
  unfold boundaryGlobals
  extract_lets due s1 snaps
  have hs1 : Sound s₀ s1 := foldl_sound (fun _ _ => partitionReset_sound) h
  exact foldl_sound (fun _ _ h1 => deliverAll_sound (tryUp_sound (modGlobal_sound h1))) hs1

theorem globalStart_sound {c i l t s} (h : Sound s₀ s) : Sound s₀ (globalStart c i l t s) := by
  unfold globalStart
  extract_lets g busy s1
  have hs1 : Sound s₀ s1 := modPart_sound h
  exact sound_ite hs1 (groupResetNow_sound (joinOp_sound hs1))

theorem cmdGlobal_sound {c r t s} (h : Sound s₀ s) : Sound s₀ (cmdGlobal c r t s) :=
  runCmd_sound (fun _ _ => globalStart_sound) h

theorem cmdBarrierJoin_sound {r t s} (h : Sound s₀ s) : Sound s₀ (cmdBarrierJoin r t s) := cmdGlobal_sound h

theorem cmdBroadcastSend_sound {r t s} (h : Sound s₀ s) : Sound s₀ (cmdBroadcastSend r t s) := cmdGlobal_sound h

theorem cmdSnapshotTake_sound {r t s} (h : Sound s₀ s) : Sound s₀ (cmdSnapshotTake r t s) := cmdGlobal_sound h

theorem cmdGroupReset_sound {r t s} (h : Sound s₀ s) : Sound s₀ (cmdGroupReset r t s) := cmdGlobal_sound h

theorem deferredStart_sound {i domain s} (h : Sound s₀ s) : Sound s₀ (deferredStart i domain s) := by
  unfold deferredStart
  extract_lets p
  refine sound_ite ?_ ?_
  · exact h
  · split
    · exact groupResetNow_sound (joinOp_sound h)
    · exact h

theorem giveUp_sound {s i g gone} (h : Sound s₀ s) : Sound s₀ (giveUp s i g gone) :=
  deliverAll_sound (tryUp_sound (modGlobal_sound h))

theorem childTimeout_sound {i domain s} (h : Sound s₀ s) : Sound s₀ (childTimeout i domain s) := by
  unfold childTimeout
  split
  · split
    · exact sound_ite (giveUp_sound h) h
    · exact h
  · exact h

theorem downTimeout_sound {i domain s} (h : Sound s₀ s) : Sound s₀ (downTimeout i domain s) := by
  unfold downTimeout
  split
  · split
    · exact sound_ite (ownTimeout_sound h) h
    · exact h
  · exact h

theorem globalsLose_sound {m s} (h : Sound s₀ s) : Sound s₀ (globalsLose m s) :=
  foldl_sound (fun _ _ h1 => (foldl_sound (fun _ _ h2 => sound_ite (sound_ite (ownTimeout_sound h2) h2) (sound_ite
    (giveUp_sound h2) h2)) h1)) h

/-! ### Machine/Units -/

theorem modStand_sound {s k f} (h : Sound s₀ s) : Sound s₀ (s.modStand k f) := by
  refine sound_of h (shape := ?_)
  unfold State.modStand
  split <;> simp

theorem standTest_sound {s k part} (h : Sound s₀ s) : Sound s₀ (standTest s k part) := postOwn_sound h

theorem dropTests_sound {s ks} (h : Sound s₀ s) : Sound s₀ (dropTests s ks) := dropLaunches_sound h

theorem standTestIn_sound {s k part} (h : Sound s₀ s) : Sound s₀ (standTestIn s k part) := by
  unfold standTestIn
  split
  · exact standTest_sound h
  · exact h

theorem standFault_sound {s k} (h : Sound s₀ s) : Sound s₀ (standFault s k) := standTestIn_sound (bump_sound (modStand_sound h))

theorem degrade_sound {s} (h : Sound s₀ s) : Sound s₀ (degrade s) := sound_with h

theorem setEvent_sound {s bitNo} (h : Sound s₀ s) : Sound s₀ (setEvent s bitNo) := sound_with h

theorem standLost_sound {s k} (h : Sound s₀ s) : Sound s₀ (standLost s k) := by
  unfold standLost
  split
  · exact h
  · extract_lets s1
    have hs1 : Sound s₀ s1 := degrade_sound (modStand_sound h)
    split
    · exact sound_ite (enterFaulted_sound hs1) hs1
    · exact hs1

theorem trySpare_sound {s k} (h : Sound s₀ s) : Sound s₀ (trySpare s k) := by
  unfold trySpare
  split
  · exact standTestIn_sound (modStand_sound h)
  · exact standLost_sound h

theorem retireStand_sound {s k} (h : Sound s₀ s) : Sound s₀ (retireStand s k) := trySpare_sound (bump_sound (modStand_sound h))

theorem spareTested_sound {pass s} (h : Sound s₀ s) : Sound s₀ (spareTested pass s) := by
  unfold spareTested
  split
  · exact h
  · split
    · exact h
    · extract_lets s1 s2
      have hs1 : Sound s₀ s1 := dropTests_sound h
      have hs2 : Sound s₀ s2 := modStand_sound hs1
      refine sound_ite ?_ ?_
      · exact degrade_sound (setEvent_sound (modStand_sound hs2))
      · exact trySpare_sound (bump_sound (modStand_sound hs1))

theorem modUnit_sound {s u f} (h : Sound s₀ s) : Sound s₀ (s.modUnit u f) := sound_with h

theorem retireUnit_sound {s u} (h : Sound s₀ s) : Sound s₀ (retireUnit s u) :=
  feedUnits_sound (bump_sound (modUnit_sound (freeUnit_sound h)))

theorem unitFaulted_sound {s u} (h : Sound s₀ s) : Sound s₀ (unitFaulted s u) := by
  unfold unitFaulted
  extract_lets s1
  have hs1 : Sound s₀ s1 := bump_sound (freeUnit_sound h)
  exact sound_ite (modUnit_sound hs1) hs1

theorem unitTested_sound {u pass s} (h : Sound s₀ s) : Sound s₀ (unitTested u pass s) := by
  unfold unitTested
  split
  · split
    · split
      · refine sound_ite ?_ ?_
        · exact h
        · extract_lets s1
          have hs1 : Sound s₀ s1 := dropTests_sound h
          exact sound_ite (modStand_sound hs1) (retireStand_sound hs1)
      · exact h
    · exact h
  · split
    · exact sound_ite h (sound_ite (feedUnits_sound (modUnit_sound h)) (retireUnit_sound h))
    · exact h

/-! ### Machine/Tracker -/

theorem failRequest_sound {s id st} (h : Sound s₀ s) : Sound s₀ (failRequest s id st) := endRequest_sound h

theorem ctxJob_sound {s c kind} (h : Sound s₀ s) : Sound s₀ (ctxJob s c kind) := queueJob_sound h

theorem markPaused_sound {s id} (h : Sound s₀ s) : Sound s₀ (markPaused s id) := modCtx_sound h

theorem addFill_sound {s part space addr len forWhat} (h : Sound s₀ s) : Sound s₀ (addFill s part space addr len forWhat) :=
  sound_with h

theorem pauseNow_sound {s id t spill} (h : Sound s₀ s) : Sound s₀ (pauseNow s id t spill) := by
  unfold pauseNow
  split
  · exact finishPlain_sound h
  · extract_lets keep refuse chip pages
    split
    · exact finishPlain_sound (bump_sound (markPaused_sound h))
    · extract_lets total
      refine sound_ite ?_ ?_
      · exact finishPlain_sound (modCtx_sound h)
      · refine sound_ite ?_ ?_
        · exact finishPlain_sound (bump_sound (markPaused_sound h))
        · exact sound_ite (protection_sound h) (addFill_sound (modCtx_sound (markPaused_sound h)))

theorem enterPrefill_sound {s id} (h : Sound s₀ s) : Sound s₀ (enterPrefill s id) := by
  unfold enterPrefill
  split
  · exact h
  next c _ =>
    refine sound_ite h ?_
    extract_lets go
    have hgo : ∀ s, Sound s₀ s → Sound s₀ (go s) := by
      intro s h1
      dsimp only [go]
      split
      · exact pauseNow_sound (modCtx_sound h1)
      · exact modCtx_sound h1
    split
    · exact hgo s h
    · split
      next ha => exact hgo _ (modCtx_sound (allocResult_sound h ha))
      next => exact modCtx_sound h

theorem endExport_sound {s id} (h : Sound s₀ s) : Sound s₀ (endExport s id) := by
  unfold endExport
  split
  · exact h
  · split
    · exact endRequest_sound (writeResult_sound h)
    · refine sound_ite (endRequest_sound h) (sound_ite (failRequest_sound h) ?_)
      split
      next ha => exact endRequest_sound (writeResult_sound (modCtx_sound (allocResult_sound h ha)))
      next => exact h

theorem promptReady_sound {s id} (h : Sound s₀ s) : Sound s₀ (promptReady s id) := by
  unfold promptReady
  split
  · exact h
  · exact sound_ite (endExport_sound h) (enterPrefill_sound h)

theorem countTexts_sound {s i t texts} (h : Sound s₀ s) : Sound s₀ (countTexts s i t texts) :=
  foldl_sound (fun _ _ => countText_sound) h

theorem packDone_sound {s c} (h : Sound s₀ s) : Sound s₀ (packDone s c) := by
  unfold packDone
  split
  · extract_lets kept s1
    have hs1 : Sound s₀ s1 := countTexts_sound h
    split
    · exact failRequest_sound hs1
    · exact sound_ite (failRequest_sound hs1) (promptReady_sound (modCtx_sound hs1))
  · exact failRequest_sound h

theorem promptDone_sound {s c} (h : Sound s₀ s) : Sound s₀ (promptDone s c) := by
  unfold promptDone
  split
  · extract_lets text w p s1 s2
    have hs1 : Sound s₀ s1 := countText_sound h
    have hs2 : Sound s₀ s2 := modCtx_sound hs1
    refine sound_ite ?_ ?_
    · exact failRequest_sound hs1
    · exact sound_ite (failRequest_sound hs1) (sound_ite hs2 (enterPrefill_sound hs2))
  · exact failRequest_sound h

theorem startPack_sound {s id kept} (h : Sound s₀ s) : Sound s₀ (startPack s id kept) := by
  unfold startPack
  split
  · exact ctxJob_sound (modCtx_sound h)
  · exact h

theorem pairsDone_sound {s c rr} (h : Sound s₀ s) : Sound s₀ (pairsDone s c rr) := by
  unfold pairsDone
  split
  · exact modCtx_sound (countTexts_sound h)
  · exact failRequest_sound h

theorem countSelect_sound {s i n nan} (h : Sound s₀ s) : Sound s₀ (countSelect s i n nan) := countRows_sound h

theorem selectDone_sound {s c} (h : Sound s₀ s) : Sound s₀ (selectDone s c) :=
  startPack_sound (modCtx_sound (countSelect_sound h))

theorem passageIn_sound {s id rank item} (h : Sound s₀ s) : Sound s₀ (passageIn s id rank item) := by
  unfold passageIn
  split
  · exact h
  · split
    · exact modCtx_sound h
    · exact bump_sound (modCtx_sound h)

theorem fetchAdvance_sound {s id} (h : Sound s₀ s) : Sound s₀ (fetchAdvance s id) := by
  unfold fetchAdvance
  split
  · exact h
  · refine sound_ite ?_ ?_
    · exact h
    · split
      · exact sound_ite (startPack_sound h) (ctxJob_sound (modCtx_sound h))
      · exact startPack_sound h

theorem fetchHere_sound {s i id rank store item} (h : Sound s₀ s) : Sound s₀ (fetchHere s i id rank store item) := by
  unfold fetchHere
  split
  · exact passageIn_sound h
  · exact sound_ite (addFill_sound h) (passageIn_sound (charge_sound h))

theorem fetchOne_sound {s id x rank e} (h : Sound s₀ s) : Sound s₀ (fetchOne s id x rank e) := by
  unfold fetchOne
  split
  · exact h
  · extract_lets o
    split
    · exact passageIn_sound h
    · exact sound_ite (fetchHere_sound h) (placeCall_sound h)

theorem fetchStart_sound {s id} (h : Sound s₀ s) : Sound s₀ (fetchStart s id) := by
  unfold fetchStart
  split
  · exact h
  · split
    · exact failRequest_sound h
    · exact fetchAdvance_sound (foldl_sound (fun _ _ => fetchOne_sound) (modCtx_sound h))

theorem embedDone_sound {s c} (h : Sound s₀ s) : Sound s₀ (embedDone s c) := by
  unfold embedDone
  split
  · extract_lets w toks s1
    have hs1 : Sound s₀ s1 := countText_sound h
    exact sound_ite (failRequest_sound hs1) (modCtx_sound hs1)
  · exact failRequest_sound h

theorem vectorDone_sound {s id v} (h : Sound s₀ s) : Sound s₀ (vectorDone s id v) := by
  unfold vectorDone
  split
  · exact h
  · split
    · exact failRequest_sound h
    · exact searchBegin_sound (modCtx_sound h)

theorem ctxSearched_sound {s id y out} (h : Sound s₀ s) : Sound s₀ (ctxSearched s id y out) := by
  unfold ctxSearched
  split
  · exact fetchStart_sound (modCtx_sound h)
  · exact fetchStart_sound (modCtx_sound h)

theorem scoreDone_sound {s id v} (h : Sound s₀ s) : Sound s₀ (scoreDone s id v) := by
  unfold scoreDone
  split
  · exact h
  · extract_lets s1
    have hs1 : Sound s₀ s1 := modCtx_sound h
    exact sound_ite hs1 (ctxJob_sound (modCtx_sound hs1))

theorem ctxTokensDone_sound {j id s} (h : Sound s₀ s) : Sound s₀ (ctxTokensDone j id s) := by
  unfold ctxTokensDone
  extract_lets s1
  have hs1 : Sound s₀ s1 := dropJob_sound h
  split
  · exact hs1
  · refine sound_ite ?_ ?_
    · exact hs1
    · refine sound_ite ?_ ?_
      · exact promptDone_sound hs1
      · split
        · exact embedDone_sound hs1
        · split
          · exact pairsDone_sound hs1
          · exact hs1
        · exact packDone_sound hs1
        · exact hs1

theorem ctxSelectDone_sound {j id s} (h : Sound s₀ s) : Sound s₀ (ctxSelectDone j id s) := by
  unfold ctxSelectDone
  extract_lets s1
  have hs1 : Sound s₀ s1 := dropJob_sound h
  split
  · exact sound_ite hs1 (selectDone_sound hs1)
  · exact hs1

theorem admitOne_sound {s id} (h : Sound s₀ s) : Sound s₀ (admitOne s id) := by
  unfold admitOne
  split
  · exact h
  · refine sound_ite ?_ ?_
    · exact h
    · refine sound_ite ?_ ?_
      · exact promptReady_sound h
      · refine sound_ite ?_ ?_
        · exact h
        · refine sound_ite ?_ ?_
          · exact ctxJob_sound (modCtx_sound h)
          · refine sound_ite ?_ ?_
            · split
              · exact enterPrefill_sound (modCtx_sound h)
              · exact failRequest_sound h
            · exact ctxJob_sound (modCtx_sound h)

theorem admitAll_sound {s i} (h : Sound s₀ s) : Sound s₀ (admitAll s i) := foldl_sound (fun _ _ => admitOne_sound) h

/-! ### Machine/Launches -/

theorem modLaunch_sound {s id f} (h : Sound s₀ s) : Sound s₀ (s.modLaunch id f) := sound_with h

theorem leaveUnits_sound {s ids} (h : Sound s₀ s) : Sound s₀ (leaveUnits s ids) := sound_with h

theorem dropLaunch_sound {s id} (h : Sound s₀ s) : Sound s₀ (dropLaunch s id) := by
  unfold dropLaunch
  extract_lets jobs lists rides s1 x
  have hs1 : Sound s₀ s1 := leaveUnits_sound (freeWork_sound (dropJobs_sound (foldl_sound (fun _ _ => dropGather_sound) h)))
  exact sound_of hs1 (shape := by simp)

theorem endRows_sound {s rows st} (h : Sound s₀ s) : Sound s₀ (endRows s rows st) :=
  foldl_sound (fun _ _ => modCtx_sound) h

theorem failBatch_sound {s l st} (h : Sound s₀ s) : Sound s₀ (failBatch s l st) :=
  foldl_sound (fun _ _ => dropLaunch_sound) (endRows_sound h)

theorem failStep_sound {s l} (h : Sound s₀ s) : Sound s₀ (failStep s l) :=
  foldl_sound (fun _ _ => dropLaunch_sound) (endRows_sound h)

theorem addLaunch_sound {s l} (h : Sound s₀ s) : Sound s₀ (addLaunch s l) := sound_with h

theorem addPass_sound {s i stepNo m img pass rows longest after}
    (h : Sound s₀ s) : Sound s₀ (addPass s i stepNo m img pass rows longest after).1 := by
  unfold addPass
  split
  · exact h
  · exact foldl_fst_sound (fun _ _ => addLaunch_sound) h

theorem passTables_sound {s l m} (h : Sound s₀ s) : Sound s₀ (passTables s l m) := by
  unfold passTables
  extract_lets gen lines s1
  have hs1 : Sound s₀ s1 := by
    dsimp only [s1]
    split
    · exact viewStore_sound h
    · exact h
  refine sound_ite ?_ ?_
  · exact foldl_sound (fun _ _ h1 => by
        split
        · exact areaPut_sound h1
        · exact h1) hs1
  · exact hs1

theorem operandFills_sound {s l m recs} (h : Sound s₀ s) : Sound s₀ (operandFills s l m recs) := by
  unfold operandFills
  exact foldl_sound (fun _ _ h1 => by
      split
      · exact modLaunch_sound (startFill_sound h1)
      · exact h1) h

theorem launchGather_sound {s l} (h : Sound s₀ s) : Sound s₀ (launchGather s l) := by
  unfold launchGather
  split
  · exact h
  · split
    · exact failBatch_sound h
    · exact feedUnits_sound (askRows_sound (modJob_sound (addJob_sound h)))

theorem prepareSample_sound {s l} (h : Sound s₀ s) : Sound s₀ (prepareSample s l) := by
  unfold prepareSample
  extract_lets base
  exact feedUnits_sound (foldl_sound (fun _ _ h1 => by
      split
      · exact h1
      · extract_lets mask s1 s2
        have hs1 : Sound s₀ s1 := by
          dsimp only [s1]
          clear_value mask
          split
          · exact areaPut_sound h1
          · exact h1
        have hs2 : Sound s₀ s2 := areaPut_sound hs1
        exact sound_ite hs2 (modLaunch_sound (addJob_sound hs2))) h)

theorem prepareLaunch_sound {s id} (h : Sound s₀ s) : Sound s₀ (prepareLaunch s id) := by
  unfold prepareLaunch
  split
  · exact h
  · split
    · refine sound_ite ?_ ?_
      · exact h
      · split
        · exact h
        · extract_lets s1 recs
          have hs1 : Sound s₀ s1 := sound_ite (passTables_sound h) h
          exact launchGather_sound (operandFills_sound hs1)
    · exact prepareSample_sound h
    · exact h

theorem splitLaunch_sound {s l} (h : Sound s₀ s) : Sound s₀ (splitLaunch s l) := by
  unfold splitLaunch
  extract_lets x head rest id s1 s2
  have hs1 : Sound s₀ s1 := modLaunch_sound h
  have hs2 : Sound s₀ s2 := sound_with hs1
  exact sound_ite h (addLaunch_sound hs2)

theorem divideAgain_sound {s id} (h : Sound s₀ s) : Sound s₀ (divideAgain s id) := by
  unfold divideAgain
  split
  · exact h
  · refine sound_ite ?_ ?_
    · exact h
    · extract_lets s1 x
      have hs1 : Sound s₀ s1 := splitLaunch_sound h
      split
      · exact h
      · exact sound_ite h (sound_of hs1 (shape := by simp))

theorem postLaunch_sound {s id} (h : Sound s₀ s) : Sound s₀ (postLaunch s id) := by
  unfold postLaunch
  split
  · exact h
  · refine sound_ite ?_ ?_
    · exact h
    · extract_lets s1 soon
      have hs1 : Sound s₀ s1 := splitLaunch_sound h
      split
      · exact h
      · extract_lets free rel target amps s2 s3 req x
        have hs2 : Sound s₀ s2 := modLaunch_sound (takeWork_sound hs1)
        have hs3 : Sound s₀ s3 := foldl_sound (fun _ _ => modStand_sound) hs2
        exact sound_ite h (prepareLaunch_sound (sound_with hs3))

theorem postReady_sound {s i} (h : Sound s₀ s) : Sound s₀ (postReady s i) := foldl_sound (fun _ _ => postLaunch_sound) h

theorem postAll_sound {s} (h : Sound s₀ s) : Sound s₀ (postAll s) := foldl_sound (fun _ _ => postLaunch_sound) h

theorem reformPass_sound {s l} (h : Sound s₀ s) : Sound s₀ (reformPass s l) := by
  unfold reformPass
  extract_lets old gone before deps rows longest again s1 first
  have hs1 : Sound s₀ s1 := foldl_sound (fun _ _ => dropLaunch_sound) h
  split
  · split
    · extract_lets r s2 s3
      have hr : Sound s₀ r.1 := addPass_sound hs1
      have hs2 : Sound s₀ s2 := foldl_sound (fun _ _ => modLaunch_sound) hr
      have hs3 : Sound s₀ s3 := modPart_sound hs2
      exact postReady_sound hs3
    · exact hs1
  · exact hs1

theorem launchGatherDone_sound {j s} (h : Sound s₀ s) : Sound s₀ (launchGatherDone j s) := by
  unfold launchGatherDone
  split
  · exact dropGather_sound h
  · split
    · exact dropGather_sound h
    · split
      · exact failBatch_sound (dropGather_sound h)
      · exact modLaunch_sound (dropGather_sound (runGather_sound (foldl_sound (fun _ _ h1 => (sound_ite (sound_with
          (viewStore_sound h1)) (sound_ite (endRows_sound h1) (sound_ite (endRows_sound h1) (viewStore_sound h1))))) h)))

theorem awaitDone_sound {s launch fill} (h : Sound s₀ s) : Sound s₀ (awaitDone s launch fill) := modLaunch_sound h

theorem moveDone_sound {s launch} (h : Sound s₀ s) : Sound s₀ (moveDone s launch) := modLaunch_sound h

theorem moveFill_sound {s l raw d} (h : Sound s₀ s) : Sound s₀ (moveFill s l raw d) := by
  unfold moveFill
  extract_lets id wait lo len f pay
  refine sound_ite ?_ ?_
  · exact modLaunch_sound (startFill_sound h)
  · exact sound_ite (failBatch_sound h) (modLaunch_sound (placeCall_sound (sound_with h)))

theorem skidderServed_sound {s i} (h : Sound s₀ s) : Sound s₀ (skidderServed s i) := sound_with h

theorem moveStart_sound {launch s} (h : Sound s₀ s) : Sound s₀ (moveStart launch s) := by
  unfold moveStart
  split
  · exact h
  · split
    · exact h
    · refine sound_ite h ?_
      extract_lets s1 d src
      have h1 : Sound s₀ s1 := skidderServed_sound h
      split
      · exact protection_sound h1
      · exact enterFaulted_sound (bump_sound h1)
      · exact protection_sound (bump_sound h1)
      · refine sound_ite (sound_ite (protection_sound h1) ?_) (moveFill_sound h1)
        split
        next hr => exact moveDone_sound (runDesc_sound h1 hr)
        next => exact failBatch_sound h1

theorem turnBegins_sound {l s} (h : Sound s₀ s) : Sound s₀ (turnBegins l s) := foldl_sound (fun _ _ => modJob_sound) h

theorem launchFire_sound {launch s} (h : Sound s₀ s) : Sound s₀ (launchFire launch s) := by
  unfold launchFire
  split
  · exact h
  · refine sound_ite ?_ ?_
    · extract_lets s1 x s2 stall s3 s4
      have hs1 : Sound s₀ s1 := modLaunch_sound h
      have hs2 : Sound s₀ s2 := turnBegins_sound (sound_with hs1)
      have hs3 : Sound s₀ s3 := bump_sound (bump_sound hs2)
      have hs4 : Sound s₀ s4 := bumpMax_sound (bump_sound (bump_sound hs3))
      split
      · exact alignFired_sound hs4
      · exact hs4
    · exact h

theorem runSampleRows_sound {s l rows} (h : Sound s₀ s) : Sound s₀ (runSampleRows s l rows) :=
  foldl_sound (fun _ _ h1 => charge_sound (areaPut_sound h1)) h

theorem noteEnding_sound {s id st r} (h : Sound s₀ s) : Sound s₀ (noteEnding s id st r) := modCtx_sound h

theorem noToken_sound {s c g t reserve} (h : Sound s₀ s) : Sound s₀ (noToken s c g t reserve) := by
  unfold noToken
  split
  · exact bump_sound (noteEnding_sound h)
  · extract_lets s1
    have hs1 : Sound s₀ s1 := releaseText_sound h
    exact sound_ite (noteEnding_sound (modCtx_sound hs1)) (noteEnding_sound hs1)

theorem ctxToken_sound {s c g t reserve tok} (h : Sound s₀ s) : Sound s₀ (ctxToken s c g t reserve tok) := by
  unfold ctxToken
  extract_lets e out full stop p s1 s2
  have hs1 : Sound s₀ s1 := bump_sound (releaseText_sound h)
  have hs2 : Sound s₀ s2 := modCtx_sound hs1
  split
  · exact noteEnding_sound hs2
  · exact sound_ite (noteEnding_sound hs2) hs2

theorem sampleTake_sound {s l r} (h : Sound s₀ s) : Sound s₀ (sampleTake s l r) := by
  unfold sampleTake
  split
  · exact h
  · split
    · exact noteEnding_sound h
    · extract_lets g first again x got s1
      have hs1 : Sound s₀ s1 := bump_sound h
      exact sound_ite (noToken_sound hs1) (ctxToken_sound hs1)

theorem sampleLaunch_sound {s l m pass x} (h : Sound s₀ s) : Sound s₀ (sampleLaunch s l m pass x) :=
  addLaunch_sound (sound_with h)

theorem addSample_sound {s l m bf pass xs} (h : Sound s₀ s) : Sound s₀ (addSample s l m bf pass xs) :=
  foldl_sound (fun _ _ => sampleLaunch_sound) (foldl_sound (fun _ _ => noteEnding_sound) h)

theorem passDone_sound {s l m pass} (h : Sound s₀ s) : Sound s₀ (passDone s l m pass) := by
  unfold passDone
  extract_lets tensor xs
  split
  · exact foldl_sound (fun _ _ h1 => sound_ite (vectorDone_sound h1) h1) h
  · exact foldl_sound (fun _ _ h1 => sound_ite (scoreDone_sound h1) h1) h
  · exact addSample_sound h

theorem samplesDone_sound {s l} (h : Sound s₀ s) : Sound s₀ (samplesDone s l) := by
  unfold samplesDone
  exact foldl_sound (fun _ _ h1 => by
      split
      · exact foldl_sound (fun _ _ h2 => sound_ite (sampleTake_sound h2) h2) h1
      · exact h1) h

theorem candidatesDone_sound {j launch ctx s} (h : Sound s₀ s) : Sound s₀ (candidatesDone j launch ctx s) := by
  unfold candidatesDone
  extract_lets s1
  have hs1 : Sound s₀ s1 := dropJob_sound h
  split
  · exact hs1
  · split
    · exact hs1
    · split
      · exact hs1
      · extract_lets v out s2 s3
        have hs2 : Sound s₀ s2 := areaPut_sound (charge_sound hs1)
        have hs3 : Sound s₀ s3 := modLaunch_sound hs2
        exact countSelect_sound hs3

theorem launchEnds_sound {s l} (h : Sound s₀ s) : Sound s₀ (launchEnds s l) := by
  unfold launchEnds
  split
  · extract_lets more
    split
    · extract_lets p s1
      have hs1 : Sound s₀ s1 := sound_ite (passDone_sound h) h
      exact dropLaunch_sound hs1
    · exact dropLaunch_sound h
  · exact dropLaunch_sound (samplesDone_sound h)
  · exact dropLaunch_sound h
  · exact dropLaunch_sound h
  · exact dropLaunch_sound h
  · exact dropLaunch_sound h

theorem endLaunches_sound {s} (h : Sound s₀ s) : Sound s₀ (endLaunches s) :=
  postAll_sound (foldl_sound (fun _ _ => launchEnds_sound) h)

theorem taskMarked_sound {s launch ti} (h : Sound s₀ s) : Sound s₀ (taskMarked s launch ti) := by
  unfold taskMarked
  extract_lets s1
  have hs1 : Sound s₀ s1 := modLaunch_sound h
  split
  · exact sound_ite (launchEnds_sound hs1) hs1
  · exact hs1

theorem releaseHold_sound {s launch ti} (h : Sound s₀ s) : Sound s₀ (releaseHold s launch ti) := sound_with h

theorem runOp_wf {segs bases st l} (w : Mem.wf 0 st.2 = true) : Mem.wf 0 (runOp segs bases st l).2 = true := by
  unfold runOp
  extract_lets o base
  split
  case h_2 =>
    refine List.foldlRecOn (motive := fun m => Mem.wf 0 m = true) _ _ w fun m hm r _ => ?_
    exact Mem.landWrite_wf hm ..
  all_goals exact w

theorem runTask_wf {segs bases ops m} (w : Mem.wf 0 m = true) : Mem.wf 0 (runTask segs bases ops m) = true :=
  List.foldlRecOn (motive := fun st : Pad × Mem => Mem.wf 0 st.2 = true) _ _ w fun _ hst _ _ => runOp_wf hst

theorem runBody_sound {s k l b} (h : Sound s₀ s) : Sound s₀ (runBody s k l b) := by
  unfold runBody
  extract_lets s0 s1
  have h1 : Sound s₀ s1 := bumpFree_sound (modStand_sound (sound_with h))
  split
  · exact charge_sound ⟨fun m => ⟨runTask_wf (h.memory m).1, (h1.memory m).2⟩, h1.shape⟩
  · exact runSampleRows_sound h1

theorem taskDone_sound {n s} (h : Sound s₀ s) : Sound s₀ (taskDone n s) := by
  unfold taskDone
  split
  · exact h
  · extract_lets s1 s2 s3 s4
    have hs1 : Sound s₀ s1 := runBody_sound h
    have hs2 : Sound s₀ s2 := releaseHold_sound (modStand_sound hs1)
    have hs3 : Sound s₀ s3 := taskMarked_sound hs2
    have hs4 : Sound s₀ s4 := by
      dsimp only [s4]
      split
      · exact sound_ite (taskMarked_sound hs3) hs3
      · exact hs3
    exact postReady_sound hs4

theorem taskComplete_sound {n s} (h : Sound s₀ s) : Sound s₀ (taskComplete n s) := by
  unfold taskComplete
  split
  · exact regulated_sound (fun _ => taskDone_sound) h
  · exact h

theorem taskFault_sound {s k l ti t} (h : Sound s₀ s) : Sound s₀ (taskFault s k l ti t) := by
  unfold taskFault
  extract_lets s0 s1 s2 s3
  have hs0 : Sound s₀ s0 := runBody_sound (sound_with h)
  have hs1 : Sound s₀ s1 := releaseHold_sound (standFault_sound hs0)
  have hs2 : Sound s₀ s2 := modLaunch_sound hs1
  have hs3 : Sound s₀ s3 := by
    dsimp only [s3]
    split
    · split
      · exact failStep_sound (dropLaunch_sound hs1)
      · exact dropLaunch_sound hs1
    · exact addLaunch_sound hs2
  exact postReady_sound hs3

/-! ### Machine/Serving -/

theorem unitPick_sound {lim step m cs budget acc s} (h : Sound s₀ s) : Sound s₀ (unitPick lim step m cs budget acc s).2 := by
  induction cs generalizing budget acc s with
  | nil => exact h
  | cons c r ih =>
    unfold unitPick
    split
    · exact ih h
    · split
      · exact ih (failRequest_sound h)
      · split
        · exact h
        · extract_lets got
          split
          · exact ih h
          · exact ih h

theorem unitBatch_sound {s i m p} (h : Sound s₀ s) : Sound s₀ (unitBatch s i m p).2 :=
  foldl_sound (fun _ _ => modCtx_sound) (unitPick_sound h)

theorem kvTrim_sound {s id m top} (h : Sound s₀ s) : Sound s₀ (kvTrim s id m top) := modCtx_sound h

theorem kvWait_sound {s i n} (h : Sound s₀ s) : Sound s₀ (kvWait s i n) := bump_sound h

theorem kvRoom_sound {s t c m top} (h : Sound s₀ s) (hk : kvRoom s c m top = some t) : Sound s₀ t := by
  unfold kvRoom at hk
  split at hk
  · cases hk
  · extract_lets per want at hk
    split at hk
    · cases hk
      exact h
    · obtain ⟨fresh, -, rfl⟩ := Option.map_eq_some_iff.1 hk
      exact modCtx_sound h

theorem sound_forming {s b r a} (h : Sound s₀ s) : Sound s₀ (Forming.mk s b r a).s := h

theorem formDecode_sound {m k f c} (h : Sound s₀ f.s) : Sound s₀ (formDecode m k f c).s := by
  unfold formDecode
  split
  · split
    next hk => exact kvRoom_sound h hk
    next => exact sound_forming (kvWait_sound h)
  · exact h

theorem formPrefill_sound {m k hold f c} (h : Sound s₀ f.s) : Sound s₀ (formPrefill m k hold f c).s := by
  unfold formPrefill
  extract_lets n
  split
  · exact h
  · split
    next hk => exact kvRoom_sound h hk
    next => exact sound_forming (kvWait_sound h)

theorem fitLists_sound {i m lines used n f} (h : Sound s₀ f.s) : Sound s₀ (fitLists i m lines used n f).s := by
  induction n generalizing f with
  | zero => exact h
  | succ n ih =>
    unfold fitLists
    extract_lets need
    split
    · exact h
    · split
      · exact h
      · exact ih (sound_ite (failRequest_sound (kvTrim_sound h)) (kvWait_sound (kvTrim_sound h)))

theorem genBatch_sound {s i m p used} (h : Sound s₀ s) : Sound s₀ (genBatch s i m p used).2 := by
  unfold genBatch
  extract_lets mine pre f0 f1 hold f2 f3 s1 pick
  have h1 : Sound s₀ f1.s := foldl_sound_of Forming.s (fun _ _ => formDecode_sound) h
  have h2 : Sound s₀ f2.s := foldl_sound_of Forming.s (fun _ _ => formPrefill_sound) h1
  exact foldl_sound (fun _ _ h3 => modCtx_sound h3) (fitLists_sound h2)

theorem formBatches_sound {s i p} (h : Sound s₀ s) : Sound s₀ (formBatches s i p).2 := by
  unfold formBatches
  refine foldl_snd_sound (fun x id h1 => ?_) h
  split
  · exact h1
  · extract_lets used r
    have hr : Sound s₀ r.2 := by
      dsimp only [r]
      split
      · exact genBatch_sound h1
      · exact unitBatch_sound h1
    split
    · exact hr
    · exact hr

theorem countTaken_sound {s i b} (h : Sound s₀ s) : Sound s₀ (countTaken s i b) := by
  unfold countTaken
  extract_lets one
  split
  · exact sound_ite (bump_sound (bump_sound (bump_sound (bump_sound h)))) h
  · exact h

theorem addRiders_sound {i no s} (h : Sound s₀ s) : Sound s₀ (addRiders i no s) := by
  have hr : Sound s₀ (takeRiders s i).1 := takeRiders_sound h
  unfold addRiders
  refine sound_ite h ?_
  split
  · exact sound_ite (modLaunch_sound hr) (addLaunch_sound hr)
  · exact addLaunch_sound hr

theorem batchLaunches_sound {i no x b} (h : Sound s₀ x.1) : Sound s₀ (batchLaunches i no x b).1 := by
  unfold batchLaunches
  split
  · exact h
  · exact addPass_sound (addPass_sound h)

theorem postStep_sound {i s} (h : Sound s₀ s) : Sound s₀ (postStep i s) := by
  unfold postStep
  extract_lets no
  split
  · exact h
  · extract_lets bs s1 s2 ids
    have h1 : Sound s₀ s1 := foldl_sound (fun _ _ => countTaken_sound) h
    have h2 : Sound s₀ s2 := addRiders_sound (foldl_fst_sound (fun _ _ => batchLaunches_sound) h1)
    exact postReady_sound (modPart_sound h2)

theorem endRecovery_sound {s i} (h : Sound s₀ s) : Sound s₀ (endRecovery s i) := modPart_sound h

theorem streamRecord_sound {s id} (h : Sound s₀ s) : Sound s₀ (streamRecord s id) := by
  unfold streamRecord
  split
  · exact h
  · extract_lets n x
    refine sound_ite ?_ ?_
    · exact h
    · split
      · exact h
      · exact post_sound (modCtx_sound h)

theorem boundaryRecords_sound {i s} (h : Sound s₀ s) : Sound s₀ (boundaryRecords i s) := by
  unfold boundaryRecords
  exact endRecovery_sound (foldl_sound (fun _ _ h1 => by
      dsimp only
      split
      · exact endRequest_sound (streamRecord_sound h1)
      · exact streamRecord_sound h1) h)

theorem dropControl_sound {s i x} (h : Sound s₀ s) : Sound s₀ (dropControl s i x) := modPart_sound h

theorem cancelNow_sound {i s x} (h : Sound s₀ s) : Sound s₀ (cancelNow i s x) := by
  unfold cancelNow
  extract_lets s1
  have hs1 : Sound s₀ s1 := dropControl_sound h
  split
  · exact finishPlain_sound hs1
  · extract_lets s2
    have hs2 : Sound s₀ s2 := sound_ite (endRequest_sound hs1) (sound_ite (endRequest_sound hs1) (modCtx_sound hs1))
    exact finishPlain_sound hs2

theorem pauseDue_sound {i s x} (h : Sound s₀ s) : Sound s₀ (pauseDue i s x) := by
  unfold pauseDue
  extract_lets s1
  have hs1 : Sound s₀ s1 := dropControl_sound h
  split
  · exact finishPlain_sound hs1
  · exact sound_ite (pauseNow_sound hs1) (modCtx_sound hs1)

theorem backFromPause_sound {s id t} (h : Sound s₀ s) : Sound s₀ (backFromPause s id t) := by
  unfold backFromPause
  split
  · exact finishPlain_sound h
  · extract_lets s1
    have hs1 : Sound s₀ s1 := finishPlain_sound (modCtx_sound h)
    exact sound_ite (replayRequest_sound hs1) hs1

theorem resumeNow_sound {i s x} (h : Sound s₀ s) : Sound s₀ (resumeNow i s x) := by
  unfold resumeNow
  split
  · exact finishPlain_sound (dropControl_sound h)
  · refine sound_ite ?_ ?_
    · exact h
    · refine sound_ite ?_ ?_
      · exact finishPlain_sound (dropControl_sound h)
      · refine sound_ite ?_ ?_
        · exact backFromPause_sound (dropControl_sound h)
        · split
          · split
            · exact kvWait_sound h
            · extract_lets s1 r
              have hs1 : Sound s₀ s1 := modCtx_sound (dropControl_sound h)
              have hr : Sound s₀ r.1 := startFill_sound hs1
              exact sound_ite hr (finishPlain_sound (failRequest_sound hr))
          · exact backFromPause_sound (dropControl_sound h)

theorem boundaryControls_sound {i n s} (h : Sound s₀ s) : Sound s₀ (boundaryControls i n s) := by
  unfold boundaryControls
  extract_lets s1 s2
  have hs1 : Sound s₀ s1 := foldl_sound (fun _ _ => cancelNow_sound) h
  have hs2 : Sound s₀ s2 := foldl_sound (fun _ _ => pauseDue_sound) hs1
  exact foldl_sound (fun _ _ => resumeNow_sound) hs2

theorem boundaryAdmit_sound {i s} (h : Sound s₀ s) : Sound s₀ (boundaryAdmit i s) := sound_ite (admitAll_sound h) h

theorem actIdle_sound {i s} (h : Sound s₀ s) : Sound s₀ (actIdle i s) :=
  sound_ite (boundaryAdmit_sound (boundaryControls_sound (boundaryRecords_sound h))) h

theorem stepForm_sound {i s} (h : Sound s₀ s) : Sound s₀ (Machine.stepForm i s) := by
  unfold Machine.stepForm
  extract_lets p s0
  have h0 : Sound s₀ s0 := actIdle_sound h
  split
  · exact h
  · extract_lets r no s1
    have hr : Sound s₀ r.2 := formBatches_sound h0
    have h1 : Sound s₀ s1 := modPart_sound hr
    exact sound_ite h (sound_ite hr (sound_ite (postStep_sound h1) h1))

theorem spillDone_sound {s f id t} (h : Sound s₀ s) : Sound s₀ (spillDone s f id t) := by
  unfold spillDone
  split
  · exact dropFill_sound h
  · extract_lets chip bytes s1 done r
    have hs1 : Sound s₀ s1 := dropFill_sound h
    have hr : Sound s₀ r.1 := hostStore_sound hs1
    refine sound_ite ?_ ?_
    · exact finishPlain_sound (bump_sound (modCtx_sound (t1Store_sound hs1)))
    · exact sound_ite (finishPlain_sound (bump_sound (modCtx_sound hr))) (finishPlain_sound (modCtx_sound hs1))

theorem refillDone_sound {s f id t bytes} (h : Sound s₀ s) : Sound s₀ (refillDone s f id t bytes) := by
  unfold refillDone
  split
  · exact dropFill_sound h
  · extract_lets s1
    have hs1 : Sound s₀ s1 := dropFill_sound h
    split
    · exact hs1
    · split
      · exact backFromPause_sound (bump_sound (modCtx_sound hs1))
      · exact backFromPause_sound (foldl_sound (fun _ _ => t1Store_sound) hs1)

theorem cmdServeStart_sound {r t s} (h : Sound s₀ s) : Sound s₀ (cmdServeStart r t s) :=
  runCmd_sound (fun _ _ h1 => finishPlain_sound (modPart_sound h1)) h

theorem warmupEnd_sound {i s} (h : Sound s₀ s) : Sound s₀ (warmupEnd i s) := by
  unfold warmupEnd
  split
  · exact sound_ite (modPart_sound h) h
  · exact h

theorem cmdServeStop_sound {r t s} (h : Sound s₀ s) : Sound s₀ (cmdServeStop r t s) :=
  runCmd_sound (fun _ _ h1 => finishPlain_sound (modPart_sound (alignDropped_sound h1))) h

theorem restartPair_sound {s k} (h : Sound s₀ s) : Sound s₀ (restartPair s k) := modPair_sound h

theorem recoverEffect_sound {i s} (h : Sound s₀ s) : Sound s₀ (recoverEffect i s) := by
  unfold recoverEffect
  extract_lets p gen s1 x s2 s3 x1
  have hs1 : Sound s₀ s1 := dropEngineWork_sound (sound_with h)
  have hs2 : Sound s₀ s2 := sound_of hs1 (landing := fun w => Mem.zeroSegs_wf w _)
  have hs3 : Sound s₀ s3 := foldl_sound (fun _ _ => restartPair_sound) hs2
  exact formDigest_sound (modPart_sound hs3)

theorem cmdPartitionRecover_sound {r t s} (h : Sound s₀ s) : Sound s₀ (cmdPartitionRecover r t s) := by
  unfold cmdPartitionRecover
  refine runCmd_sound (fun t s h1 => ?_) h
  exact finishPlain_sound (sound_with (recoverEffect_sound h1))

theorem acceptRequest_sound {r i t isQuery generator maxNew stream p o s}
    (h : Sound s₀ s) : Sound s₀ (acceptRequest r i t isQuery generator maxNew stream p o s) := by
  unfold acceptRequest
  split
  · exact finishPlain_sound h
  · extract_lets c s1
    have hs1 : Sound s₀ s1 := modCmd_sound (sound_with h)
    exact actIdle_sound (post_sound hs1)

theorem cmdQuerySubmit_sound {r t s} (h : Sound s₀ s) : Sound s₀ (cmdQuerySubmit r t s) :=
  runCmd_sound (fun _ _ h1 => sound_ite (finishPlain_sound h1) (acceptRequest_sound h1)) h

theorem cmdGenerateSubmit_sound {r t s} (h : Sound s₀ s) : Sound s₀ (cmdGenerateSubmit r t s) :=
  runCmd_sound (fun _ _ h1 => sound_ite (finishPlain_sound h1) (acceptRequest_sound h1)) h

theorem addControl_sound {i t c k spill s} (h : Sound s₀ s) : Sound s₀ (addControl i t c k spill s) :=
  actIdle_sound (modPart_sound h)

theorem cmdRequestCancel_sound {r t s} (h : Sound s₀ s) : Sound s₀ (cmdRequestCancel r t s) := by
  unfold cmdRequestCancel
  extract_lets c x
  exact runCmd_sound (fun _ _ h1 => by
      clear_value c
      split
      · exact addControl_sound (modCtx_sound h1)
      · exact h1) h

theorem cmdRequestPause_sound {r t s} (h : Sound s₀ s) : Sound s₀ (cmdRequestPause r t s) := by
  unfold cmdRequestPause
  extract_lets c l spill x
  exact runCmd_sound (fun _ _ h1 => by
      clear_value c
      split
      · exact addControl_sound h1
      · exact h1) h

theorem cmdRequestResume_sound {r t s} (h : Sound s₀ s) : Sound s₀ (cmdRequestResume r t s) := by
  unfold cmdRequestResume
  extract_lets c x
  exact runCmd_sound (fun _ _ h1 => by
      clear_value c
      split
      · exact addControl_sound h1
      · exact h1) h

/-! ### Machine/Fills -/

theorem endThose_sound {s i st f} (h : Sound s₀ s) : Sound s₀ (endThose s i st f) :=
  foldl_sound (fun _ _ => endRequest_sound) h

theorem dropModelLaunches_sound {s i id} (h : Sound s₀ s) : Sound s₀ (dropModelLaunches s i id) :=
  foldl_sound (fun _ _ => dropLaunch_sound) h

theorem faultCmds_sound {s cs} (h : Sound s₀ s) : Sound s₀ (faultCmds s cs) :=
  foldl_sound (fun _ _ h1 => finishPlain_sound (foldl_sound (fun _ _ => dropJob_sound) h1)) h

theorem shardGone_sound {s i x} (h : Sound s₀ s) : Sound s₀ (shardGone s i x) := by
  unfold shardGone
  exact foldl_sound (fun _ _ h1 => (by
      split
      · exact finishPlain_sound (cancelSearch_sound h1)
      · exact sound_ite h1 (shardMissing_sound (foldl_sound (fun _ _ => dropJob_sound) h1)))) h

theorem shardDamaged_sound {i id s} (h : Sound s₀ s) : Sound s₀ (damageOwner.shard i id s) := by
  unfold damageOwner.shard
  split
  · exact shardGone_sound (sound_ite (modIndex_sound h) (bump_sound (modIndex_sound h)))
  · exact h

theorem damageOwner_sound {s i pg} (h : Sound s₀ s) : Sound s₀ (damageOwner s i pg) := by
  unfold damageOwner
  extract_lets p hit dmg
  have hit_sound : ∀ {s was}, Sound s₀ s → Sound s₀ (hit s was) := fun h => sound_ite h (bump_sound h)
  split
  · exact dropModelLaunches_sound (endThose_sound (hit_sound (modPart_sound h)))
  · exact endThose_sound (hit_sound (modPart_sound h))
  · exact faultCmds_sound (endThose_sound (hit_sound (modPart_sound h)))
  · exact faultCmds_sound (endThose_sound (hit_sound (modPart_sound h)))
  · split
    · exact hit_sound (modTable_sound h)
    · exact h
  · exact shardDamaged_sound h
  · exact shardDamaged_sound h
  · exact shardDamaged_sound h
  · exact h
  · exact h

theorem damageOwner.shard_sound {i id s} (h : Sound s₀ s) : Sound s₀ (damageOwner.shard i id s) := by
  unfold damageOwner.shard
  split
  · extract_lets s1
    have hs1 : Sound s₀ s1 := modIndex_sound h
    exact shardGone_sound (sound_ite hs1 (bump_sound hs1))
  · exact h

theorem repairStart_sound {s i pg} (h : Sound s₀ s) : Sound s₀ (repairStart s i pg) := by
  unfold repairStart
  refine sound_ite ?_ ?_
  · exact h
  · split
    · exact damageOwner_sound h
    · extract_lets span x
      have hx : Sound s₀ x.1 := by
        dsimp only [x]
        split
        · exact startFill_sound h
        · exact startFill_sound h
      exact sound_ite hx (damageOwner_sound hx)

theorem loadEnds_sound {s t st} (h : Sound s₀ s) : Sound s₀ (loadEnds s t st) := by
  unfold loadEnds
  split
  · exact loadFail_sound h
  · exact h

theorem launchFails_sound {s launch st} (h : Sound s₀ s) : Sound s₀ (launchFails s launch st) := by
  unfold launchFails
  split
  · exact failBatch_sound h
  · exact h

theorem spillLost_sound {s f} (h : Sound s₀ s) : Sound s₀ (spillLost s f) := by
  unfold spillLost
  extract_lets s1
  have hs1 : Sound s₀ s1 := dropFill_sound h
  split
  · exact finishPlain_sound (modCtx_sound hs1)
  · exact backFromPause_sound (modCtx_sound hs1)
  · exact hs1

theorem fillLost_sound {s f st} (h : Sound s₀ s) : Sound s₀ (fillLost s f st) := by
  unfold fillLost
  split
  · exact loadEnds_sound (dropFill_sound h)
  · exact launchFails_sound (dropFill_sound h)
  · exact launchFails_sound (dropFill_sound h)
  · exact spillLost_sound h
  · exact spillLost_sound h
  · exact damageOwner_sound (dropFill_sound h)
  · exact failRequest_sound (dropFill_sound h)

theorem launchReforms_sound {s launch} (h : Sound s₀ s) : Sound s₀ (launchReforms s launch) := by
  unfold launchReforms
  split
  · exact reformPass_sound h
  · exact h

theorem fillTaken_sound {s f} (h : Sound s₀ s) : Sound s₀ (fillTaken s f) := by
  unfold fillTaken
  split
  · exact launchReforms_sound (dropFill_sound h)
  · exact launchReforms_sound (dropFill_sound h)
  · exact fillLost_sound h

theorem sweepFills_sound {s i own} (h : Sound s₀ s) : Sound s₀ (sweepFills s i own) := by
  unfold sweepFills
  exact foldl_sound (fun _ _ h1 => by
      split
      · exact sound_ite (sound_ite (fillTaken_sound h1) (fillLost_sound h1)) h1
      · exact h1) h

theorem pageLost_sound {s i pg} (h : Sound s₀ s) : Sound s₀ (pageLost s i pg) := by
  unfold pageLost
  extract_lets s1
  have hs1 : Sound s₀ s1 := by
    dsimp only [s1]
    split
    · exact replayRequest_sound h
    · exact h
    · exact damageOwner_sound h
    · exact repairStart_sound h
  exact feedUnits_sound (sweepFills_sound hs1)

theorem poisonPage_sound {s page} (h : Sound s₀ s) : Sound s₀ (poisonPage s page) := sound_ite h (sound_t1 h (fun w => w))

theorem pageError_sound {s page} (h : Sound s₀ s) : Sound s₀ (pageError s page) := sound_ite h (bump_sound (poisonPage_sound h))

theorem fillCharge_sound {s f n} (h : Sound s₀ s) : Sound s₀ (fillCharge s f n) :=
  sound_ite (charge_sound h) (charge_sound (charge_sound h))

theorem readCorrects_sound {s i pages} (h : Sound s₀ s) : Sound s₀ (readCorrects s i pages) := by
  refine foldl_sound (fun s c h1 => ?_) h
  have h2 := bumpFree_sound (name := .memCe) (part := 0) (idx := c) h1
  exact sound_t1 h2 fun w => w

theorem fillPartial_sound {s f rd} (h : Sound s₀ s) : Sound s₀ (fillPartial s f rd) := by
  unfold fillPartial
  split
  · exact runFailed_sound h
  · split
    · exact sound_landing h (fun w => Mem.landWrite_wf w ..)
    · exact h
  · exact h

theorem chipFails_sound {s f} (h : Sound s₀ s) : Sound s₀ (chipFails s f) := by
  unfold chipFails
  extract_lets s1 pages
  have hs1 : Sound s₀ s1 := bump_sound h
  refine sound_ite ?_ ?_
  · exact fillLost_sound hs1
  · exact foldl_sound (fun _ _ => repairStart_sound) (fillPartial_sound hs1)

theorem repairDone_sound {s f i pg rd} (h : Sound s₀ s) : Sound s₀ (repairDone s f i pg rd) := by
  unfold repairDone
  extract_lets s1
  have h1 : Sound s₀ s1 := dropFill_sound h
  split
  · exact h1
  · extract_lets n got page
    refine sound_ite ?_ ?_
    · have h2 := fillCharge_sound (f := f) (n := n) h1
      exact feedUnits_sound (bump_sound ⟨fun m => ⟨(h2.memory m).1, (h1.memory m).2.1, (h2.memory m).2.2⟩, h2.shape⟩)
    · exact feedUnits_sound (sweepFills_sound (damageOwner_sound (bump_sound h1)))

theorem fillArrived_sound {s f rd} (h : Sound s₀ s) : Sound s₀ (fillArrived s f rd) := by
  unfold fillArrived
  split
  · exact loadArrive_sound (fillCharge_sound (dropFill_sound h))
  · extract_lets d s1
    have h1 : Sound s₀ s1 := dropFill_sound h
    refine sound_ite (protection_sound h1) ?_
    split
    next hr => exact awaitDone_sound (moveDone_sound (runDesc_sound h1 hr))
    next => exact sound_ite (chipFails_sound h) (launchFails_sound (bump_sound h1))
  · extract_lets s1
    have h1 : Sound s₀ s1 := dropFill_sound h
    split
    · dsimp only
      split
      · exact awaitDone_sound (viewStore_sound h1)
      · exact chipFails_sound h
    · exact h1
  · exact spillDone_sound (fillCharge_sound h)
  · exact refillDone_sound (fillCharge_sound h)
  · exact repairDone_sound h
  · split
    · exact sound_ite (chipFails_sound h) (fetchAdvance_sound (passageIn_sound (charge_sound (dropFill_sound h))))
    · exact fetchAdvance_sound (passageIn_sound (dropFill_sound h))

theorem dropAsked_sound {s id} (h : Sound s₀ s) : Sound s₀ (dropAsked s id) := sound_with h

theorem fillTake_sound {f data s} (h : Sound s₀ s) : Sound s₀ (fillTake f data s) := by
  unfold fillTake
  extract_lets isSpill r l r1
  refine sound_ite ?_ ?_
  · refine sound_ite ?_ ?_
    · exact protection_sound h
    · exact sound_ite (fillPartial_sound h) (fillArrived_sound (readCorrects_sound h))
  · exact sound_ite h (fillArrived_sound (dropAsked_sound h))

theorem fillComplete_sound {fill data s} (h : Sound s₀ s) : Sound s₀ (fillComplete fill data s) := by
  unfold fillComplete
  split
  · exact h
  · exact regulated_sound (fun _ => fillTake_sound) h

theorem fillGrows_sound {s id bytes} (h : Sound s₀ s) : Sound s₀ (fillGrows s id bytes) := by
  unfold fillGrows
  split
  · exact h
  · extract_lets got set need r
    have hr : Sound s₀ r.1 := hostFetch_sound (sound_with h)
    exact sound_ite (sound_with h) (sound_ite (sound_ite hr (fillLost_sound h)) (sound_with h))

theorem sourceFails_sound {s f st} (h : Sound s₀ s) : Sound s₀ (sourceFails s f st) := by
  unfold sourceFails
  extract_lets s1
  have hs1 : Sound s₀ s1 := fillPartial_sound (dropAsked_sound h)
  split
  · exact finishPlain_sound (modCtx_sound (dropFill_sound hs1))
  · exact endRequest_sound (finishPlain_sound (dropFill_sound hs1))
  · exact feedUnits_sound (sweepFills_sound (damageOwner_sound (dropFill_sound hs1)))
  · exact fillLost_sound hs1

theorem fillFailed_sound {fill cause s} (h : Sound s₀ s) : Sound s₀ (fillFailed fill cause s) := by
  unfold fillFailed
  split
  · exact h
  · split
    · split
      · refine sound_ite ?_ ?_
        · extract_lets s1
          have hs1 : Sound s₀ s1 := pageError_sound h
          exact pageLost_sound (fillPartial_sound hs1)
        · exact h
      · exact h
    · exact sound_ite h (sourceFails_sound h)
    · split
      · exact sound_ite (loadEnds_sound (dropFill_sound (dropAsked_sound h))) h
      · exact feedUnits_sound (sweepFills_sound (damageOwner_sound (bump_sound (dropFill_sound (dropAsked_sound h)))))
      · exact spillLost_sound (bump_sound (dropAsked_sound h))
      · exact h
      · exact chipFails_sound (dropAsked_sound h)

theorem rowsFail_sound {s job comp items st} (h : Sound s₀ s) : Sound s₀ (rowsFail s job comp items st) := by
  unfold rowsFail
  split
  · exact h
  · refine sound_ite ?_ ?_
    · exact finishPlain_sound (dropGather_sound h)
    · split
      · exact feedUnits_sound (endRows_sound h)
      · exact feedUnits_sound h

theorem callFails_sound {s c} (h : Sound s₀ s) : Sound s₀ (callFails s c) := by
  unfold callFails
  extract_lets s1 next
  have hs1 : Sound s₀ s1 := dropCall_sound h
  split
  · clear_value next
    split
    · exact sound_ite (shardMissing_sound hs1) (resendCall_sound h)
    · exact shardMissing_sound hs1
  · clear_value next
    split
    · exact sound_ite (fetchAdvance_sound (fetchHere_sound hs1)) (resendCall_sound h)
    · exact fetchAdvance_sound (passageIn_sound hs1)
  · split
    · extract_lets r
      have hr : Sound s₀ r.1 := by
        dsimp only [r]
        split
        · exact hs1
        · exact askReplicas_sound hs1
      exact sound_ite (feedUnits_sound hr) (rowsFail_sound hr)
    · exact hs1
  · exact finishPlain_sound (sound_with hs1)
  · split
    · exact sourceFails_sound hs1
    · exact hs1

theorem t2Timeout_sound {n s} (h : Sound s₀ s) : Sound s₀ (t2Timeout n s) := by
  unfold t2Timeout
  split
  · exact sound_ite (sourceFails_sound h) h
  · split
    · exact sound_ite (callFails_sound h) h
    · exact h

theorem epochReport_sound {s i table owner epoch} (h : Sound s₀ s) : Sound s₀ (epochReport s i table owner epoch) :=
  modTable_sound h

theorem callAnswered_sound {s c st l} (h : Sound s₀ s) : Sound s₀ (callAnswered s c st l) := by
  unfold callAnswered
  extract_lets s1 ok n
  have hs1 : Sound s₀ s1 := dropCall_sound h
  split
  · exact shardAnswered_sound hs1
  · exact fetchAdvance_sound (passageIn_sound hs1)
  · refine sound_ite ?_ ?_
    · exact rowsFail_sound hs1
    · split
      · exact hs1
      · split
        · exact sound_ite (feedUnits_sound (sound_with (epochReport_sound hs1))) (callFails_sound h)
        · exact callFails_sound h
  · refine sound_ite ?_ ?_
    · extract_lets s2
      have hs2 : Sound s₀ s2 := epochReport_sound hs1
      exact sound_ite hs2 (finishPlain_sound hs2)
    · extract_lets s2
      have hs2 : Sound s₀ s2 := sound_ite (epochReport_sound hs1) hs1
      exact finishPlain_sound (sound_with hs2)
  · refine sound_ite ?_ ?_
    · exact fillGrows_sound hs1
    · split
      · exact sourceFails_sound hs1
      · exact hs1

theorem replyArrives_sound {s src tag total bytes} (h : Sound s₀ s) : Sound s₀ (replyArrives s src tag total bytes) := by
  unfold replyArrives
  split
  · exact h
  · extract_lets x s1
    have hs1 : Sound s₀ s1 := by
      dsimp only [s1]
      split
      · exact h
      · exact charge_sound h
    exact sound_ite (sound_with hs1) (callAnswered_sound hs1)

theorem itemAnswer_sound {i st item t s} (h : Sound s₀ s) : Sound s₀ (itemAnswer i st item t s) := by
  unfold itemAnswer
  extract_lets pages bad
  refine sound_ite ?_ ?_
  · exact finishPlain_sound h
  · refine sound_ite ?_ ?_
    · exact finishPlain_sound (foldl_sound (fun _ _ => pageLost_sound) h)
    · split
      · exact finish_sound (charge_sound h)
      · exact finishPlain_sound (foldl_sound (fun _ _ => repairStart_sound) (bump_sound h))

theorem cmdPeerFetch_sound {r t s} (h : Sound s₀ s) : Sound s₀ (cmdPeerFetch r t s) := by
  unfold cmdPeerFetch
  extract_lets i l store item there x
  exact runCmd_sound (fun _ _ h1 => (sound_ite (by
      clear_value store
      split
      · exact itemAnswer_sound h1
      · exact h1) (sound_ite (finish_sound (charge_sound h1)) (finishPlain_sound (foldl_sound
          (fun _ _ => pageLost_sound) h1))))) h

/-! ### Machine/Cut -/

theorem askAgain_sound {s} (h : Sound s₀ s) : Sound s₀ (askAgain s) := sound_with h

theorem decideOne_sound {e s r} (h : Sound s₀ s) : Sound s₀ (decideOne e s r) := by
  unfold decideOne
  extract_lets older x s1
  have hs1 : Sound s₀ s1 := sound_with h
  split
  · exact bump_sound (modLaunch_sound hs1)
  · exact sound_with h

theorem cutRound_sound {e pick s} (h : Sound s₀ s) : Sound s₀ (cutRound e pick s) := by
  unfold cutRound
  extract_lets s1
  have hs1 : Sound s₀ s1 := foldl_sound (fun _ _ => divideAgain_sound) h
  exact foldl_sound (fun _ _ => decideOne_sound) hs1

theorem epochEnds_sound {s} (h : Sound s₀ s) : Sound s₀ (epochEnds s) := by
  unfold epochEnds
  extract_lets x s1
  have hs1 : Sound s₀ s1 := sound_with h
  exact askAgain_sound hs1

theorem epochBoundary_sound {s} (h : Sound s₀ s) : Sound s₀ (epochBoundary s) := sound_ite (epochEnds_sound h) h

theorem cutMain_sound {s} (h : Sound s₀ s) : Sound s₀ (cutMain s) := sound_ite (cutRound_sound (epochEnds_sound h)) h

theorem cutLate_sound {s} (h : Sound s₀ s) : Sound s₀ (cutLate s) := sound_ite (cutRound_sound (askAgain_sound h)) h

theorem budgetUpdate_sound {pavg peak s} (h : Sound s₀ s) : Sound s₀ (budgetUpdate pavg peak s) := sound_with h

theorem thermalSample_sound {temps milliVolts milliAmps coreMilliVolts s}
    (h : Sound s₀ s) : Sound s₀ (thermalSample temps milliVolts milliAmps coreMilliVolts s) := by
  unfold thermalSample
  refine sound_ite ?_ ?_
  · exact h
  · extract_lets tmax new s1 x x1
    have hs1 : Sound s₀ s1 := by
      dsimp only [s1]
      split
      · exact h
      · exact bump_sound h
      · exact bump_sound h
    exact sound_with hs1

theorem stallOne_sound {s l} (h : Sound s₀ s) : Sound s₀ (stallOne s l) := by
  unfold stallOne
  refine sound_ite ?_ ?_
  · exact h
  · refine sound_ite ?_ ?_
    · exact modLaunch_sound h
    · refine sound_ite ?_ ?_
      · exact h
      · extract_lets cause s1
        have hs1 : Sound s₀ s1 := modLaunch_sound h
        clear_value cause
        split
        · exact bump_sound hs1
        · exact hs1

theorem regWaits_sound {s} (h : Sound s₀ s) : Sound s₀ (regWaits s) :=
  foldl_sound (fun _ _ h1 => (foldl_sound (fun _ _ h2 => sound_ite (sound_ite (bumpFree_sound h2) h2) (sound_ite
    (bump_sound h2) h2)) h1)) h

theorem tierWait_sound {s w} (h : Sound s₀ s) : Sound s₀ (tierWait s w) := bump_sound (sound_with h)

theorem engineWaits_sound {s} (h : Sound s₀ s) : Sound s₀ (engineWaits s) :=
  foldl_sound (fun _ _ h1 => bump_sound (bump_sound (bump_sound h1))) h

theorem freeCounts_sound {s} (h : Sound s₀ s) : Sound s₀ (freeCounts s) :=
  foldl_sound (fun _ _ h1 => sound_ite h1 (bumpFree_sound h1)) (foldl_sound (fun _ _ => bumpFree_sound) (foldl_sound
    (fun _ _ => bumpFree_sound) (bumpFree_sound h)))

theorem countPasses_sound {s} (h : Sound s₀ s) : Sound s₀ (countPasses s) := by
  unfold countPasses
  extract_lets s1 s2 s3
  have hs1 : Sound s₀ s1 := askAgain_sound (foldl_sound (fun _ _ => stallOne_sound) h)
  have hs2 : Sound s₀ s2 := regWaits_sound (engineWaits_sound (foldl_sound (fun _ _ => tierWait_sound) hs1))
  have hs3 : Sound s₀ s3 := freeCounts_sound hs2
  clear_value s1 s2 s3
  exact sound_of hs3 (shape := by simp)

theorem fireDue_sound {s} (h : Sound s₀ s) : Sound s₀ (fireDue s) := foldl_sound (fun _ _ => launchFire_sound) h

theorem tick_sound {s} (h : Sound s₀ s) : Sound s₀ (tick s) :=
  sound_ite h (groupResetNow_sound (countPasses_sound (fireDue_sound h)))

/-! ### Machine/Health -/

theorem retireSegment_sound {s g} (h : Sound s₀ s) : Sound s₀ (retireSegment s g) := by
  unfold retireSegment
  refine sound_ite ?_ ?_
  · exact h
  · refine sound_ite ?_ ?_
    · exact sound_ite (bump_sound (sound_with h)) h
    · extract_lets s1
      have hs1 : Sound s₀ s1 := bump_sound (sound_with h)
      split
      · exact copyRetired_sound hs1
      · exact hs1

theorem accessFailed_sound {s ticket survive} (h : Sound s₀ s) : Sound s₀ (accessFailed s ticket survive) := by
  unfold accessFailed
  split
  · exact sound_ite h (foldl_sound (fun _ _ => replayRequest_sound) (dropLaunch_sound h))
  · split
    · exact h
    · refine sound_ite ?_ ?_
      · exact feedUnits_sound (foldl_sound (fun _ _ h1 => by
            split
            · exact modJob_sound (freeUnit_sound h1)
            · exact h1) h)
      · split
        · exact replayRequest_sound h
        · exact faultCmds_sound h

theorem landingUe_sound {g ticket survive s} (h : Sound s₀ s) : Sound s₀ (landingUe g ticket survive s) := by
  unfold landingUe
  refine sound_ite ?_ ?_
  · exact h
  · extract_lets s1 again s2 s3
    have hs1 : Sound s₀ s1 := bump_sound h
    have hs2 : Sound s₀ s2 := sound_with hs1
    have hs3 : Sound s₀ s3 := by
      dsimp only [s3]
      split
      · exact enterFaulted_sound hs2
      · exact hs2
    exact accessFailed_sound (sound_ite (retireSegment_sound hs3) hs3)

theorem contextsLost_sound {s} (h : Sound s₀ s) : Sound s₀ (contextsLost s) :=
  foldl_sound (fun _ _ => endRequest_sound) (sound_with h)

theorem patrolScrub_sound {page found s} (h : Sound s₀ s) : Sound s₀ (patrolScrub page found s) := by
  unfold patrolScrub
  extract_lets fw home written c s1
  have hs1 : Sound s₀ s1 := pageError_sound h
  refine sound_ite ?_ ?_
  · exact h
  · split
    · exact h
    · extract_lets s2 x
      have hs2 : Sound s₀ s2 := bump_sound h
      exact sound_t1 hs2 (fun w => w)
    · clear_value home
      split
      · exact pageLost_sound hs1
      · exact contextsLost_sound hs1

theorem channelRetire_sound {c dead s} (h : Sound s₀ s) : Sound s₀ (channelRetire c dead s) := by
  unfold channelRetire
  refine sound_ite h ?_
  split
  · exact h
  · extract_lets t s1 pages s2
    have h1 : Sound s₀ s1 := sound_t1 h fun w => w
    have h2 : Sound s₀ s2 := by
      refine foldl_sound (fun s e hs => ?_) h1
      exact sound_t1 hs fun w => w
    exact sound_ite (contextsLost_sound (foldl_sound (fun _ _ => pageLost_sound) h2)) h1

theorem channelCopied_sound {c s} (h : Sound s₀ s) : Sound s₀ (channelCopied c s) :=
  sound_ite (degrade_sound (setEvent_sound (sound_t1 h (fun w => w)))) h

theorem forgetFlows_sound {s m} (h : Sound s₀ s) : Sound s₀ (forgetFlows s m) := sound_of h (shape := by simp [forgetFlows])

theorem peerLost_sound {m s} (h : Sound s₀ s) : Sound s₀ (peerLost m s) := by
  unfold peerLost
  refine sound_ite h ?_
  extract_lets x s1 me s2 s3
  have h1 : Sound s₀ s1 := degrade_sound (setEvent_sound (bump_sound (sound_with (forgetFlows_sound h))))
  have h2 : Sound s₀ s2 := sound_of h1 (shape := by simp [s2])
  exact globalsLose_sound (foldl_sound (fun _ _ h3 => sound_ite (callFails_sound h3) h3) h2)

theorem peerReinstated_sound {m s} (h : Sound s₀ s) : Sound s₀ (peerReinstated m s) :=
  sound_ite (sound_of h (shape := by simp)) h

theorem cmdLoopbackSet_sound {r t s} (h : Sound s₀ s) : Sound s₀ (cmdLoopbackSet r t s) := by
  unfold cmdLoopbackSet
  refine runCmd_sound (fun t s h1 => ?_) h
  split
  · exact finish_sound (sound_of h1 (shape := by simp))
  · exact modPart_sound h1

theorem loopbackEnd_sound {i results s} (h : Sound s₀ s) : Sound s₀ (loopbackEnd i results s) := by
  unfold loopbackEnd
  split
  · exact finish_sound (modPart_sound h)
  · exact h

theorem testStands_sound {s i} (h : Sound s₀ s) : Sound s₀ (testStands s i) := by
  unfold testStands
  split
  · exact foldl_sound (fun _ _ => standTest_sound) h
  · exact h

theorem cmdSelftestRun_sound {r t s} (h : Sound s₀ s) : Sound s₀ (cmdSelftestRun r t s) :=
  runCmd_sound (fun _ _ h1 => sound_ite (testStands_sound (modPart_sound h1)) (modPart_sound h1)) h

theorem selftestEffect_sound {s i target failed} (h : Sound s₀ s) : Sound s₀ (selftestEffect s i target failed) := by
  unfold selftestEffect
  split
  · exact foldl_sound (fun _ _ h1 => by
        split
        · exact retireStand_sound h1
        · exact h1) h
  · exact foldl_sound (fun _ _ h1 => by
        split
        · exact bump_sound h1
        · exact retireUnit_sound h1
        · exact h1) h
  · extract_lets gs s1
    have hs1 : Sound s₀ s1 := foldl_sound (fun _ _ => retireSegment_sound) h
    exact sound_landing hs1 (fun w => Mem.zeroSegs_wf w _)
  · extract_lets s1 gen x
    have hs1 : Sound s₀ s1 := by
      dsimp only [s1]
      exact foldl_sound (fun _ _ h1 => by
          split
          · exact poisonPage_sound h1
          · exact h1) h
    exact sound_ite hs1 (modPart_sound (sound_t1 hs1 (fun w => w)))

theorem selftestEnd_sound {i failed s} (h : Sound s₀ s) : Sound s₀ (selftestEnd i failed s) := by
  unfold selftestEnd
  split
  · exact h
  · refine sound_ite ?_ ?_
    · exact h
    · extract_lets own mask unit first s1 s2
      have hs1 : Sound s₀ s1 := sound_ite (dropTests_sound h) h
      have hs2 : Sound s₀ s2 := selftestEffect_sound (modPart_sound hs1)
      exact testStands_sound (finish_sound hs2)

/-! ### Machine/Cores -/

theorem dropTicketWork_sound {s t} (h : Sound s₀ s) : Sound s₀ (dropTicketWork s t) := by
  unfold dropTicketWork
  extract_lets gone mine s1
  have h1 : Sound s₀ s1 := dropJobs_sound h
  exact sound_of h1 (shape := by simp [s1, dropJobs, unride, freeWork, dropTurns, dropLaunches])

theorem abortSelftest_sound {s i t} (h : Sound s₀ s) : Sound s₀ (abortSelftest s i t) := by
  unfold abortSelftest
  extract_lets old s1
  have hs1 : Sound s₀ s1 := modPart_sound h
  clear_value old
  split
  · exact sound_ite (testStands_sound (sound_ite (dropTests_sound hs1) hs1)) hs1
  · exact hs1

theorem undoCommand_sound {s c} (h : Sound s₀ s) : Sound s₀ (undoCommand s c) := by
  unfold undoCommand
  split
  · exact h
  · split
    · exact unbindEffect_sound h
    · exact modPart_sound h
    · exact abortSelftest_sound h
    · exact h

theorem abortCommand_sound {s t} (h : Sound s₀ s) : Sound s₀ (abortCommand s t) := by
  unfold abortCommand
  split
  · exact h
  · exact sound_ite h (feedUnits_sound (finishPlain_sound (undoCommand_sound (dropTicketWork_sound h))))

theorem coreRetire_sound {core ctxs tickets s} (h : Sound s₀ s) : Sound s₀ (coreRetire core ctxs tickets s) := by
  unfold coreRetire
  refine sound_ite ?_ ?_
  · exact h
  · extract_lets m x s1 s2
    have hs1 : Sound s₀ s1 := bump_sound (sound_with h)
    have hs2 : Sound s₀ s2 := foldl_sound (fun _ _ => replayRequest_sound) hs1
    exact sound_ite (innerReset_sound hs1) (foldl_sound (fun _ _ => abortCommand_sound) hs2)

/-! ### Machine/Slices -/

theorem homeMergeDone_sound {j id s} (h : Sound s₀ s) : Sound s₀ (homeMergeDone j id s) := by
  unfold homeMergeDone
  extract_lets r
  have hr : Sound s₀ r.1 := homeMerged_sound h
  split
  · exact hr
  · split
    · exact searchRecord_sound hr
    · exact ctxSearched_sound hr
    · exact hr

theorem gatherEnds_sound {j s} (h : Sound s₀ s) : Sound s₀ (gatherEnds j s) := by
  unfold gatherEnds
  split
  · exact sound_ite (peerGatherDone_sound h) (gatherDone_sound h)
  · exact launchGatherDone_sound h

theorem jobTraffic_sound {j s} (h : Sound s₀ s) : Sound s₀ (jobTraffic j s) := by
  unfold jobTraffic
  extract_lets pay
  split
  · exact charge_sound h
  · exact charge_sound h
  · exact chargeFree_sound h
  · exact charge_sound h
  · exact chargeFree_sound h
  · exact chargeFree_sound h
  · exact chargeFree_sound h
  · exact chargeFree_sound (chargeFree_sound h)
  · exact chargeFree_sound (chargeFree_sound h)
  · exact h
  · exact h

theorem jobDone_sound {j s0} (h : Sound s₀ s0) : Sound s₀ (jobDone j s0) := by
  unfold jobDone
  extract_lets s
  have hs : Sound s₀ s := jobTraffic_sound h
  split
  · exact tokenizeDone_sound (dropJob_sound hs)
  · exact detokenizeDone_sound (dropJob_sound hs)
  · exact tallyDone_sound (dropJob_sound hs)
  · exact gatherEnds_sound hs
  · exact searchPartDone_sound hs
  · exact shardMergeDone_sound hs
  · exact homeMergeDone_sound hs
  · split
    · exact ctxTokensDone_sound hs
    · exact dropJob_sound hs
  · split
    · exact ctxSelectDone_sound hs
    · exact dropJob_sound hs
  · exact candidatesDone_sound hs
  · exact plantingReady_sound hs

theorem tallyCorrects_sound {s u} (h : Sound s₀ s) : Sound s₀ (tallyCorrects s u) := sound_ite (bumpFree_sound h) h

theorem sliceEnd_sound {u finished s} (h : Sound s₀ s) : Sound s₀ (sliceEnd u finished s) := by
  unfold sliceEnd
  split
  · exact h
  · refine sound_ite ?_ ?_
    · exact h
    · extract_lets s1 s2
      have hs1 : Sound s₀ s1 := freeUnit_sound (tallyCorrects_sound h)
      have hs2 : Sound s₀ s2 := sound_ite (jobDone_sound hs1) hs1
      exact feedUnits_sound (feedUnit_sound hs2)

theorem searchFault_sound {s id} (h : Sound s₀ s) : Sound s₀ (searchFault s id) := by
  unfold searchFault
  split
  · exact h
  · split
    · exact finishPlain_sound (cancelSearch_sound h)
    · exact finishPlain_sound (cancelSearch_sound h)
    · exact failRequest_sound (cancelSearch_sound h)

theorem stepGivesUp_sound {s l} (h : Sound s₀ s) : Sound s₀ (stepGivesUp s l) := by
  unfold stepGivesUp
  split
  · exact failStep_sound h
  · exact h

theorem tallyGivesUp_sound {s j} (h : Sound s₀ s) : Sound s₀ (tallyGivesUp s j) := by
  unfold tallyGivesUp
  extract_lets l s1 s2
  have hs1 : Sound s₀ s1 := dropJob_sound h
  have hs2 : Sound s₀ s2 := by
    dsimp only [s2]
    split
    · exact searchFault_sound hs1
    · exact searchFault_sound hs1
    · split
      · exact failRequest_sound hs1
      · exact hs1
    · exact hs1
    · exact finishPlain_sound hs1
  exact stepGivesUp_sound hs2

theorem unitFaults_sound {u s} (h : Sound s₀ s) : Sound s₀ (unitFaults u s) := by
  unfold unitFaults
  split
  · exact feedUnits_sound (unitFaulted_sound h)
  · extract_lets s1 s2
    have hs1 : Sound s₀ s1 := unitFaulted_sound h
    have hs2 : Sound s₀ s2 := by
      dsimp only [s2]
      split
      · exact sound_ite (tallyGivesUp_sound hs1) (modJob_sound hs1)
      · exact modJob_sound hs1
    exact feedUnits_sound hs2

theorem serviceFault_sound {u s} (h : Sound s₀ s) : Sound s₀ (serviceFault u s) := by
  unfold serviceFault
  split
  · exact sound_ite (unitFaults_sound h) h
  · exact h

/-! ### Machine/Boundaries -/

theorem startHeld_sound {s c} (h : Sound s₀ s) : Sound s₀ (startHeld s c) := by
  unfold startHeld
  extract_lets r
  split
  · exact cmdServeStart_sound h
  · exact cmdModelSwapIn_sound h
  · exact cmdModelSwapOut_sound h
  · exact cmdIndexUnload_sound h
  · exact cmdContentUnload_sound h
  · exact cmdIndexLoad_sound h
  · exact cmdTableLoad_sound h
  · exact cmdTokenizerLoad_sound h
  · exact cmdGrammarLoad_sound h
  · exact cmdSearchSubmit_sound h
  · exact cmdGatherSubmit_sound h
  · exact cmdUpdateSubmit_sound h
  · exact cmdTallySubmit_sound h
  · exact cmdTokenizeSubmit_sound h
  · exact cmdDetokenizeSubmit_sound h
  · exact cmdSearchInsert_sound h
  · exact cmdSearchDelete_sound h
  · exact cmdPlantStart_sound h
  · exact cmdBarrierJoin_sound h
  · exact cmdBroadcastSend_sound h
  · exact cmdSnapshotTake_sound h
  · exact cmdGroupReset_sound h
  · exact cmdLoopbackSet_sound h
  · exact cmdSelftestRun_sound h
  · exact cmdPeerFetch_sound h
  · exact cmdPeerSearch_sound h
  · exact cmdPeerGather_sound h
  · exact cmdPeerUpdate_sound h
  · exact h

theorem afterSwitch_sound {i s x} (hx : Sound s₀ x) : Sound s₀ (afterSwitch i s x) := by
  unfold afterSwitch
  split
  · exact sound_ite hx (feedUnits_sound (actIdle_sound (foldl_sound (fun _ _ => startHeld_sound) hx)))
  · exact hx

theorem switchGoes_sound {s i} (h : Sound s₀ s) : Sound s₀ (switchGoes s i) := afterSwitch_sound (rebindGo_sound h)

theorem settle_sound {s} (h : Sound s₀ s) : Sound s₀ (settle s) :=
  foldl_sound (fun _ _ => switchGoes_sound) (endLaunches_sound h)

theorem boundaryActs_sound {i n s} (h : Sound s₀ s) : Sound s₀ (boundaryActs i n s) := by
  unfold boundaryActs
  extract_lets s1 s2
  have hs1 : Sound s₀ s1 := boundaryEpochs_sound (boundaryChanges_sound (boundaryRecords_sound h))
  have hs2 : Sound s₀ s2 := boundaryGlobals_sound (boundaryControls_sound hs1)
  exact postStep_sound (boundaryAdmit_sound (afterSwitch_sound (rebindAt_sound hs2)))

theorem stepBoundary_sound {i s0} (h : Sound s₀ s0) : Sound s₀ (stepBoundary i s0) := by
  unfold stepBoundary
  extract_lets s n s1
  have hs : Sound s₀ s := endLaunches_sound h
  have hs1 : Sound s₀ s1 := modPart_sound hs
  exact sound_ite hs (boundaryActs_sound (bump_sound hs1))

theorem zeroedActs_sound {segment s} (h : Sound s₀ s) : Sound s₀ (zeroedActs segment s) :=
  foldl_sound (fun _ _ => afterSwitch_sound) (segmentZeroed_sound h)

theorem sliceRow_sound {u finished s} (h : Sound s₀ s) : Sound s₀ (sliceRow u finished s) := by
  unfold sliceRow
  split
  · exact sound_ite (regulated_sound (fun _ => sliceEnd_sound) h) (sliceEnd_sound h)
  · exact h

/-! ### Machine/Mailbox -/

theorem cmdNop_sound {r t s} (h : Sound s₀ s) : Sound s₀ (cmdNop r t s) := runCmd_sound (fun _ _ => finishPlain_sound) h

theorem cmdResultRelease_sound {r t s} (h : Sound s₀ s) : Sound s₀ (cmdResultRelease r t s) :=
  runCmd_sound (fun _ _ h1 => finishPlain_sound (modPair_sound h1)) h

theorem writeCplHead_sound {i value s} (h : Sound s₀ s) : Sound s₀ (writeCplHead i value s) :=
  sound_ite h (sound_ite (modPair_sound h) (sound_ite (modPair_sound h) (modPair_sound h)))

theorem roomWaitEnd_sound {ticket s} (h : Sound s₀ s) : Sound s₀ (roomWaitEnd ticket s) := by
  unfold roomWaitEnd
  split
  · exact h
  · split
    · exact h
    · exact sound_ite (finish_sound h) h

/-! ### Machine/Registers -/

theorem flashError_sound {s code} (h : Sound s₀ s) : Sound s₀ (flashError s code) := sound_of h

theorem flashStart_sound {op s} (h : Sound s₀ s) : Sound s₀ (flashStart op s) := by
  unfold flashStart
  extract_lets a unit_ x
  refine sound_ite ?_ ?_
  · exact h
  · refine sound_ite ?_ ?_
    · exact flashError_sound h
    · exact sound_ite (flashError_sound h) (sound_ite (flashError_sound h) (sound_of h))

theorem flashEffect_sound {op a ok s} (h : Sound s₀ s) : Sound s₀ (flashEffect op a ok s) := by
  unfold flashEffect
  split
  · exact sound_of h (buf := fun _ => Mem.writeRange_wf rfl ..)
  · exact h
  · split
    · exact sound_with (flashWrite_sound h)
    · exact flashWrite_sound h
  · exact sound_with (flashWrite_sound h)
  · exact flashErase_sound h
  · exact sound_with (flashWrite_sound h)

theorem flashOpDone_sound {deviceOk s} (h : Sound s₀ s) : Sound s₀ (flashOpDone deviceOk s) := by
  unfold flashOpDone
  split
  · exact h
  · extract_lets s1 x s2
    have hs1 : Sound s₀ s1 := flashEffect_sound h
    have hs2 : Sound s₀ s2 := sound_of hs1
    exact sound_ite (bootRom_sound hs2) hs2

theorem pwrLimitWrite_sound {value s} (h : Sound s₀ s) : Sound s₀ (pwrLimitWrite value s) := sound_ite (sound_with h) h

theorem pwrMeasRead_sound {nbytes s} (h : Sound s₀ s) : Sound s₀ (pwrMeasRead nbytes s) :=
  sound_ite (sound_with (sound_with h)) (sound_with h)

theorem sbModuleIdWrite_sound {value s} (h : Sound s₀ s) : Sound s₀ (sbModuleIdWrite value s) :=
  sound_ite h (sound_ite (firmwareStart_sound (sound_with h)) (sound_with h))

theorem lcCountRead_sound {high s} (h : Sound s₀ s) : Sound s₀ (lcCountRead high s) := sound_ite (sound_with h) (sound_with h)

theorem sbLcCountRead_sound {high nbytes s} (h : Sound s₀ s) : Sound s₀ (sbLcCountRead high nbytes s) := by
  unfold sbLcCountRead
  refine sound_ite ?_ ?_
  · exact sound_with h
  · exact sound_ite (sound_with h) (sound_ite (sound_with (sound_with h)) (sound_with h))

theorem gateArm_sound {port value s} (h : Sound s₀ s) : Sound s₀ (gateArm port value s) := sound_ite h (modPort_sound h)

theorem gateCancel_sound {port value s} (h : Sound s₀ s) : Sound s₀ (gateCancel port value s) := sound_ite h (modPort_sound h)

theorem gateBankSwitch_sound {port s} (h : Sound s₀ s) : Sound s₀ (gateBankSwitch port s) := sound_ite (modPort_sound h) h

theorem portCtlWrite_sound {port value s} (h : Sound s₀ s) : Sound s₀ (portCtlWrite port value s) := by
  unfold portCtlWrite
  extract_lets p s1
  have hs1 : Sound s₀ s1 := modPort_sound h
  refine sound_ite ?_ ?_
  · exact hs1
  · exact sound_ite (routesChanged_sound (portDown_sound hs1)) (sound_ite (modPort_sound hs1) hs1)

theorem holdLow_sound {s off value} (h : Sound s₀ s) : Sound s₀ (holdLow s off value) := sound_with h

theorem linkBlockWrite_sound {off value s} (h : Sound s₀ s) : Sound s₀ (linkBlockWrite off value s) := by
  unfold linkBlockWrite
  extract_lets port low
  split
  · exact portCtlWrite_sound h
  · exact sound_ite (gateArm_sound h) (gateCancel_sound h)
  · exact sound_ite h (holdLow_sound h)
  · exact sound_ite h (modPort_sound h)
  · exact h

theorem gateEntryWrite_sound {off value s} (h : Sound s₀ s) : Sound s₀ (gateEntryWrite off value s) :=
  sound_ite h (sound_ite (holdLow_sound h) (modPort_sound h))

theorem sbWrite_sound {off value s} (h : Sound s₀ s) : Sound s₀ (sbWrite off value s) := by
  unfold sbWrite
  refine sound_ite h (sound_ite (sbModuleIdWrite_sound h) (sound_ite ?_ ?_))
  · split
    · exact flashStart_sound h
    · exact flashStart_sound h
    · exact flashStart_sound h
    · exact h
  · refine sound_ite (sound_of h) (sound_ite (sound_of h) (sound_ite ?_ ?_))
    · exact sound_of h (buf := fun w => Mem.writeRange_wf w ..)
    · exact sound_ite h (sound_ite (pwrLimitWrite_sound h) (sound_ite (linkBlockWrite_sound h) (sound_ite
        (gateEntryWrite_sound h) h)))

theorem slotRegWrite_sound {pair off value s} (h : Sound s₀ s) : Sound s₀ (slotRegWrite pair off value s) := by
  unfold slotRegWrite
  split
  · exact modPair_sound h
  · exact sound_with h
  · exact h

theorem page0Write_sound {fn off value s} (h : Sound s₀ s) : Sound s₀ (page0Write fn off value s) := sound_ite (sound_with h) h

/-! ### Machine/Imger -/

theorem startCode_sound {c r t s} (h : Sound s₀ s) : Sound s₀ (startCode c r t s) :=
  match c with
  | .nop => cmdNop_sound h
  | .resultRelease => cmdResultRelease_sound h
  | .moduleQuery => cmdModuleQuery_sound h
  | .healthRead => cmdHealthRead_sound h
  | .powerSet => cmdPowerSet_sound h
  | .partitionBind => cmdPartitionBind_sound h
  | .partitionUnbind => cmdPartitionUnbind_sound h
  | .partitionRebind => cmdPartitionRebind_sound h
  | .lifecycleAdvance => cmdLifecycleAdvance_sound (sound_with h)
  | .attestGet => cmdAttestGet_sound h
  | .configExport => cmdConfigExport_sound h
  | .configImport => cmdConfigImport_sound h
  | .bridgeMap => cmdBridgeMap_sound h
  | .serveStart => cmdServeStart_sound h
  | .serveStop => cmdServeStop_sound h
  | .partitionStatus => cmdPartitionStatus_sound h
  | .digestRead => cmdDigestRead_sound h
  | .partitionRecover => cmdPartitionRecover_sound h
  | .modelSwapIn => cmdModelSwapIn_sound h
  | .modelSwapOut => cmdModelSwapOut_sound h
  | .indexLoad => cmdIndexLoad_sound h
  | .indexUnload => cmdIndexUnload_sound h
  | .tableLoad => cmdTableLoad_sound h
  | .tokenizerLoad => cmdTokenizerLoad_sound h
  | .grammarLoad => cmdGrammarLoad_sound h
  | .contentUnload => cmdContentUnload_sound h
  | .querySubmit => cmdQuerySubmit_sound h
  | .generateSubmit => cmdGenerateSubmit_sound h
  | .requestCancel => cmdRequestCancel_sound h
  | .requestPause => cmdRequestPause_sound h
  | .requestResume => cmdRequestResume_sound h
  | .searchSubmit => cmdSearchSubmit_sound h
  | .gatherSubmit => cmdGatherSubmit_sound h
  | .updateSubmit => cmdUpdateSubmit_sound h
  | .tallySubmit => cmdTallySubmit_sound h
  | .tokenizeSubmit => cmdTokenizeSubmit_sound h
  | .detokenizeSubmit => cmdDetokenizeSubmit_sound h
  | .searchInsert => cmdSearchInsert_sound h
  | .searchDelete => cmdSearchDelete_sound h
  | .plantStart => cmdPlantStart_sound h
  | .barrierJoin => cmdBarrierJoin_sound h
  | .broadcastSend => cmdBroadcastSend_sound h
  | .snapshotTake => cmdSnapshotTake_sound h
  | .groupReset => cmdGroupReset_sound h
  | .loopbackSet => cmdLoopbackSet_sound h
  | .selftestRun => cmdSelftestRun_sound h
  | .peerSearch => cmdPeerSearch_sound h
  | .peerFetch => cmdPeerFetch_sound h
  | .peerGather => cmdPeerGather_sound h
  | .peerUpdate => cmdPeerUpdate_sound h

theorem takeRequest_sound {code r s} (h : Sound s₀ s) : Sound s₀ (takeRequest code r s) := by
  unfold takeRequest
  split
  · exact enter_sound (fun _ _ _ => startCode_sound) h
  · extract_lets p irq s1 ok s2 x
    have hs1 : Sound s₀ s1 := sound_with h
    have hs2 : Sound s₀ s2 := sound_ite (modPair_sound hs1) hs1
    exact sound_ite h (post_sound hs2)

theorem takeRing_sound {pair n s} (h : Sound s₀ s) : Sound s₀ (takeRing pair n s) := by
  induction n generalizing s with
  | zero => exact h
  | succ n ih =>
    unfold takeRing
    extract_lets p q
    exact sound_ite h (ih (takeRequest_sound (modPair_sound h)))

theorem doorbell_sound {pair value s} (h : Sound s₀ s) : Sound s₀ (doorbell pair value s) := by
  unfold doorbell
  refine sound_ite ?_ ?_
  · exact h
  · exact sound_ite (modPair_sound h) (sound_ite (modPair_sound h) (takeRing_sound (modPair_sound h)))

theorem fencedStart_sound {pair s} (h : Sound s₀ s) : Sound s₀ (fencedStart pair s) := by
  unfold fencedStart
  split
  · exact h
  · exact sound_ite (startCode_sound (modPair_sound h)) h

theorem slotWrite_sound {pair off value s} (h : Sound s₀ s) : Sound s₀ (slotWrite pair off value s) :=
  sound_ite h (sound_ite (doorbell_sound h) (sound_ite (writeCplHead_sound h) (slotRegWrite_sound h)))

theorem slotRead_sound {pair off s} (h : Sound s₀ s) : Sound s₀ (slotRead pair off s).2 := sound_ite (sound_with h) h

theorem slotWords_sound {pair off n s} (h : Sound s₀ s) : Sound s₀ (slotWords pair off n s).2 := by
  induction n generalizing off s with
  | zero => exact h
  | succ n ih => exact ih (slotRead_sound h)

theorem slotReadBytes_sound {pair off n s} (h : Sound s₀ s) : Sound s₀ (slotReadBytes pair off n s).2 := slotWords_sound h

theorem slotWriteBytes_sound {pair off data s} (h : Sound s₀ s) : Sound s₀ (slotWriteBytes pair off data s) :=
  foldl_sound (fun _ _ => slotWrite_sound) h

theorem registerWrite_sound {space off value s} (h : Sound s₀ s) : Sound s₀ (registerWrite space off value s) := by
  unfold registerWrite
  split
  · exact slotWrite_sound h
  · exact page0Write_sound h
  · exact sbWrite_sound h

/-! ### Machine/Arrive -/

theorem setAer_sound {s fn b} (h : Sound s₀ s) : Sound s₀ (setAer s fn b) := sound_with h

theorem setUnreach_sound {s0 fn} (h : Sound s₀ s0) : Sound s₀ (setUnreach s0 fn) := by
  unfold setUnreach
  extract_lets s x
  have hs : Sound s₀ s := setAer_sound h
  exact sound_with hs

theorem readDone_sound {s fn tag bs} (h : Sound s₀ s) : Sound s₀ (readDone s fn tag bs) := sound_with h

theorem readUnreach_sound {s fn tag len} (h : Sound s₀ s) : Sound s₀ (readUnreach s fn tag len) :=
  readDone_sound (setUnreach_sound h)

theorem endRelays_sound {s f} (h : Sound s₀ s) : Sound s₀ (endRelays s f) := sound_with h

theorem dropRelay_sound {s tag} (h : Sound s₀ s) : Sound s₀ (dropRelay s tag) := sound_with h

theorem sendReadData_sound {s dest host tag bs} (h : Sound s₀ s) : Sound s₀ (sendReadData s dest host tag bs) :=
  foldl_sound (fun _ _ => sendFrame_sound) h

theorem noteVia_sound {s pair b} (h : Sound s₀ s) : Sound s₀ (noteVia s pair b) := modPair_sound h

theorem mboxWriteAt_sound {s f} (h : Sound s₀ s) : Sound s₀ (mboxWriteAt s f) := by
  unfold mboxWriteAt
  extract_lets pair s1
  have hs1 : Sound s₀ s1 := noteVia_sound h
  refine sound_ite ?_ ?_
  · exact sendReadData_sound h
  · refine sound_ite ?_ ?_
    · exact slotWriteBytes_sound (noteVia_sound h)
    · exact sound_ite (sound_landing hs1 (fun w => Mem.regionWrite_wf w ..)) (sendReadData_sound h)

theorem mboxReadAt_sound {s f} (h : Sound s₀ s) : Sound s₀ (mboxReadAt s f) := by
  unfold mboxReadAt
  extract_lets pair n r s1
  have hr : Sound s₀ r.2 := slotReadBytes_sound (noteVia_sound h)
  have hs1 : Sound s₀ s1 := noteVia_sound h
  refine sound_ite ?_ ?_
  · exact sendReadData_sound h
  · exact sound_ite (sendReadData_sound hr) (sound_ite (sendReadData_sound hs1) (sendReadData_sound h))

theorem readDataAt_sound {s f} (h : Sound s₀ s) : Sound s₀ (readDataAt s f) := by
  unfold readDataAt
  refine sound_ite ?_ ?_
  · split
    · exact sound_ite (sourceFails_sound h) (fillGrows_sound h)
    · exact h
  · refine sound_ite ?_ ?_
    · exact setUnreach_sound h
    · split
      · extract_lets s1
        have hs1 : Sound s₀ s1 := dropRelay_sound h
        exact sound_ite hs1 (sound_ite (readUnreach_sound hs1) (readDone_sound hs1))
      · exact h

theorem placePeer_sound {s pair x off} (h : Sound s₀ s) : Sound s₀ (placePeer s pair x off) := by
  unfold placePeer
  extract_lets p n m1 m2 s1 q s2
  have h1 : Sound s₀ s1 := sound_landing h fun w => by
    dsimp only [m2]
    split
    · exact Mem.regionWrite_wf w ..
    · exact Mem.regionWrite_wf (Mem.regionWrite_wf w ..) ..
  exact takeRequest_sound (modPair_sound h1)

theorem placeArrived_sound {pair n s} (h : Sound s₀ s) : Sound s₀ (placeArrived pair n s) := by
  induction n generalizing s with
  | zero => exact h
  | succ n ih =>
    unfold placeArrived
    split
    · exact h
    · split
      · exact h
      · exact ih (placePeer_sound (modPair_sound h))

theorem placeAll_sound {pair s} (h : Sound s₀ s) : Sound s₀ (placeAll pair s) := placeArrived_sound h

theorem denyPeer_sound {s f} (h : Sound s₀ s) : Sound s₀ (denyPeer s f) := sendMessage_sound h

theorem peerReqAt_sound {s f} (h : Sound s₀ s) : Sound s₀ (peerReqAt s f) :=
  sound_ite (denyPeer_sound h) (placeAll_sound (modPair_sound h))

theorem peerDataAt_sound {s f} (h : Sound s₀ s) : Sound s₀ (peerDataAt s f) := by
  unfold peerDataAt
  extract_lets pair
  refine sound_ite ?_ ?_
  · exact h
  · split
    · exact placeAll_sound (modPair_sound h)
    · exact h

theorem messageAt_sound {s f} (h : Sound s₀ s) : Sound s₀ (messageAt s f) :=
  sound_ite (replyArrives_sound h) (sound_ite (bridgeIrq_sound h) h)

theorem hostWriteAt_sound {s f} (h : Sound s₀ s) : Sound s₀ (hostWriteAt s f) := by
  unfold hostWriteAt
  split
  · exact sound_ite (bridgeWrite_sound h) h
  · exact h

theorem hostReadAt_sound {s f} (h : Sound s₀ s) : Sound s₀ (hostReadAt s f) :=
  sound_ite (sendReadData_sound h) (sound_ite (bridgeRead_sound h) (sendReadData_sound h))

theorem deliverFrame_sound {s f} (h : Sound s₀ s) : Sound s₀ (deliverFrame s f) := by
  unfold deliverFrame
  split
  · exact mboxWriteAt_sound h
  · exact mboxReadAt_sound h
  · exact readDataAt_sound h
  · exact peerReqAt_sound h
  · exact peerDataAt_sound h
  · exact messageAt_sound h
  · exact hostWriteAt_sound h
  · exact hostReadAt_sound h
  · exact blazeArrive_sound h

theorem drainEarly_sound {k n s} (h : Sound s₀ s) : Sound s₀ (drainEarly k n s) := by
  induction n generalizing s with
  | zero => exact h
  | succ n ih =>
    unfold drainEarly
    extract_lets exp
    split
    · exact h
    · exact ih (deliverFrame_sound (sound_with h))

theorem flowArrive_sound {s f} (h : Sound s₀ s) : Sound s₀ (flowArrive s f) := by
  unfold flowArrive
  extract_lets k exp s1
  have hs1 : Sound s₀ s1 := deliverFrame_sound (sound_with h)
  exact sound_ite (drainEarly_sound hs1) (sound_ite (sound_with h) h)

/-! ### Machine/Bridge -/

theorem flushMsix_sound {s fn} (h : Sound s₀ s) : Sound s₀ (flushMsix s fn) := sound_ite (sound_with h) h

theorem msixWrite_sound {s fn off data} (h : Sound s₀ s) : Sound s₀ (msixWrite s fn off data) :=
  flushMsix_sound (foldl_sound (fun _ _ h1 => sound_with h1) h)

theorem relayWrite_sound {s e reg off data} (h : Sound s₀ s) : Sound s₀ (relayWrite s e reg off data) := by
  unfold relayWrite
  refine sound_ite ?_ ?_
  · refine sound_ite ?_ ?_
    · exact slotWriteBytes_sound h
    · exact sound_ite (sound_landing h (fun w => Mem.regionWrite_wf w ..)) (setUnreach_sound h)
  · extract_lets s1
    have hs1 : Sound s₀ s1 := foldl_sound (fun _ _ => sendFrame_sound) h
    exact sound_ite hs1 (setUnreach_sound hs1)

theorem windowWrite_sound {fn bar off data s} (h : Sound s₀ s) : Sound s₀ (windowWrite fn bar off data s) := by
  unfold windowWrite
  refine sound_ite ?_ ?_
  · exact h
  · refine sound_ite ?_ ?_
    · exact setAer_sound h
    · split
      · exact foldl_sound (fun _ _ => page0Write_sound) h
      · exact msixWrite_sound h
      · exact h
      · exact relayWrite_sound h
      · exact relayWrite_sound h
      · exact h

theorem relayRead_sound {s e reg off n tag} (h : Sound s₀ s) : Sound s₀ (relayRead s e reg off n tag) := by
  unfold relayRead
  refine sound_ite ?_ ?_
  · refine sound_ite ?_ ?_
    · exact readDone_sound (slotReadBytes_sound h)
    · exact sound_ite (readDone_sound h) (readUnreach_sound h)
  · exact sound_ite (sendFrame_sound (sound_with h)) (readUnreach_sound (sendFrame_sound h))

theorem windowRead_sound {fn bar off n s} (h : Sound s₀ s) : Sound s₀ (windowRead fn bar off n s) := by
  unfold windowRead
  extract_lets tag
  refine sound_ite ?_ ?_
  · exact h
  · refine sound_ite ?_ ?_
    · exact readDone_sound (setAer_sound h)
    · split
      · exact readDone_sound h
      · exact readDone_sound h
      · exact readDone_sound h
      · exact relayRead_sound h
      · exact relayRead_sound h
      · exact readDone_sound h

theorem relayTimeout_sound {tag s} (h : Sound s₀ s) : Sound s₀ (relayTimeout tag s) := by
  unfold relayTimeout
  split
  · exact sound_ite (bump_sound (readUnreach_sound (endRelays_sound h))) h
  · exact h

theorem functionReset_sound {fn s} (h : Sound s₀ s) : Sound s₀ (functionReset fn s) := by
  unfold functionReset
  refine sound_ite ?_ ?_
  · exact h
  · extract_lets s1 x
    have hs1 : Sound s₀ s1 := endRelays_sound h
    exact sound_with hs1

theorem linkDown_sound {s} (h : Sound s₀ s) : Sound s₀ (linkDown s) := by
  unfold linkDown
  refine sound_ite ?_ ?_
  · extract_lets s1 x
    have hs1 : Sound s₀ s1 := endRelays_sound h
    exact sound_with hs1
  · exact h

theorem linkUp_sound {gtps width s} (h : Sound s₀ s) : Sound s₀ (linkUp gtps width s) :=
  sound_ite (issueReads_sound (sound_with h)) h

theorem configWrite_sound {w s} (h : Sound s₀ s) : Sound s₀ (configWrite w s) := by
  unfold configWrite
  refine sound_ite ?_ ?_
  · exact h
  · split
    · exact sound_ite (sound_with h) h
    · exact sound_ite (issueReads_sound (flushMsix_sound (sound_with h))) h
    · exact sound_ite (flushMsix_sound (sound_with h)) h
    · exact sound_ite (sound_with h) h
    · exact sound_ite (sound_with h) h
    · exact sound_ite (sound_with h) h

theorem asksEnd_sound {s e} (h : Sound s₀ s) : Sound s₀ (asksEnd s e) := sound_with h

theorem readBrings_sound {s e ok data} (h : Sound s₀ s) : Sound s₀ (readBrings s e ok data) := by
  unfold readBrings
  refine sound_ite ?_ ?_
  · exact sendReadData_sound h
  · split
    · exact h
    · refine sound_ite ?_ ?_
      · exact fillGrows_sound h
      · split
        · exact sourceFails_sound h
        · exact h

theorem hostCompletion_sound {tag ok data s} (h : Sound s₀ s) : Sound s₀ (hostCompletion tag ok data s) := by
  unfold hostCompletion
  split
  · exact h
  · refine sound_ite ?_ ?_
    · exact h
    · extract_lets x s1 b s2
      have hs1 : Sound s₀ s1 := sound_with h
      have hs2 : Sound s₀ s2 := sound_ite hs1 (asksEnd_sound (setAer_sound (sound_with hs1)))
      exact issueReads_sound (sound_ite hs2 (readBrings_sound hs2))

/-! ### Machine/Links -/

theorem sendData_sound {s i q f} (h : Sound s₀ s) : Sound s₀ (sendData s i q f) := by
  unfold sendData
  extract_lets n ci s1
  have hs1 : Sound s₀ s1 := modPort_sound h
  exact sound_ite hs1 (bump_sound hs1)

theorem sendCtl_sound {s i} (h : Sound s₀ s) : Sound s₀ (sendCtl s i) := modPort_sound h

theorem sendAgain_sound {s i} (h : Sound s₀ s) : Sound s₀ (sendAgain s i) := modPort_sound h

theorem noteCredits_sound {s i} (h : Sound s₀ s) : Sound s₀ (noteCredits s i) := by
  unfold noteCredits
  exact foldl_sound (fun _ _ h1 => by
      dsimp only
      split
      · exact modPort_sound h1
      · exact bump_sound (modPort_sound h1)
      · exact h1) h

theorem takeHead_sound {s i q t flows} (h : Sound s₀ s) : Sound s₀ (takeHead s i q t flows) := modPort_sound h

theorem sendQueued_sound {s0 i} (h : Sound s₀ s0) : Sound s₀ (sendQueued s0 i) := by
  unfold sendQueued
  extract_lets s p flows
  have hs : Sound s₀ s := noteCredits_sound h
  split
  · exact sendData_sound (modPort_sound hs)
  · split
    · exact modPort_sound hs
    · extract_lets s1
      have hs1 : Sound s₀ s1 := sendData_sound (takeHead_sound hs)
      split
      · exact bump_sound hs1
      · exact hs1

theorem frameTransmit_sound {i s} (h : Sound s₀ s) : Sound s₀ (frameTransmit i s) := by
  unfold frameTransmit
  extract_lets p up
  refine sound_ite ?_ ?_
  · exact h
  · refine sound_ite ?_ ?_
    · exact sendAgain_sound h
    · split
      · exact sendCtl_sound h
      · exact sound_ite (sendCtl_sound h) h
      · exact sound_ite (sendQueued_sound h) h

theorem peerAcked_sound {s pair} (h : Sound s₀ s) : Sound s₀ (peerAcked s pair) := by
  unfold peerAcked
  extract_lets p s1
  have hs1 : Sound s₀ s1 := modPair_sound h
  exact sound_ite h (placeAll_sound (drainRecords_sound hs1))

theorem takeAck_sound {s i ack} (h : Sound s₀ s) : Sound s₀ (takeAck s i ack) := by
  unfold takeAck
  split
  · exact h
  · exact foldl_sound (fun _ _ => peerAcked_sound) (modPort_sound h)

theorem nakTaken_sound {i seq s} (h : Sound s₀ s) : Sound s₀ (nakTaken i seq s) := by
  unfold nakTaken
  extract_lets p s1
  have hs1 : Sound s₀ s1 := takeAck_sound h
  refine sound_ite ?_ ?_
  · exact h
  · exact sound_ite (groupResetNow_sound hs1) (groupResetNow_sound (bump_sound (modPort_sound hs1)))

theorem creditReturn_sound {i ack channel hop flits s}
    (h : Sound s₀ s) : Sound s₀ (creditReturn i ack channel hop flits s) := by
  unfold creditReturn
  refine sound_ite ?_ ?_
  · exact h
  · extract_lets s1 k
    have hs1 : Sound s₀ s1 := takeAck_sound h
    exact groupResetNow_sound (sound_ite (modPort_sound hs1) hs1)

theorem received_sound {s i n} (h : Sound s₀ s) : Sound s₀ (received s i n) := modPort_sound h

theorem forward_sound {s f} (h : Sound s₀ s) : Sound s₀ (forward s f) := sound_ite (bump_sound h) (routeFrame_sound h)

theorem receive_sound {kind i f s} (h : Sound s₀ s) : Sound s₀ (receive kind i f s) := by
  unfold receive
  extract_lets p s1
  have hs1 : Sound s₀ s1 := received_sound h
  exact sound_ite h (sound_ite (flowArrive_sound hs1) (forward_sound hs1))

theorem receiveBlaze_sound {dir i f s} (h : Sound s₀ s) : Sound s₀ (receiveBlaze dir i f s) := sound_ite (receive_sound h) h

theorem helloTaken_sound {i neighbour seq s} (h : Sound s₀ s) : Sound s₀ (helloTaken i neighbour seq s) := by
  unfold helloTaken
  refine sound_ite ?_ ?_
  · exact h
  · refine sound_ite ?_ ?_
    · exact routesChanged_sound (bump_sound (portDown_sound h))
    · exact routesChanged_sound (modPort_sound (received_sound h))

theorem vectorTaken_sound {i vec seq s} (h : Sound s₀ s) : Sound s₀ (vectorTaken i vec seq s) := by
  unfold vectorTaken
  refine sound_ite ?_ ?_
  · exact h
  · extract_lets s1
    have hs1 : Sound s₀ s1 := received_sound h
    exact routesChanged_sound (sound_with hs1)

theorem vectorSend_sound {s} (h : Sound s₀ s) : Sound s₀ (vectorSend s) := groupResetNow_sound (queueVectors_sound h)

theorem retireLane_sound {i lane detecting s} (h : Sound s₀ s) : Sound s₀ (retireLane i lane detecting s) := by
  unfold retireLane
  extract_lets p m s1 s2
  have hs1 : Sound s₀ s1 := degrade_sound (setEvent_sound (bump_sound h))
  have hs2 : Sound s₀ s2 := modPort_sound hs1
  refine sound_ite ?_ ?_
  · exact h
  · refine sound_ite ?_ ?_
    · exact routesChanged_sound (portDown_sound hs2)
    · exact routesChanged_sound (reroutePort_sound (sound_ite (modPort_sound hs2) hs2))

theorem retireTaken_sound {i lane seq s} (h : Sound s₀ s) : Sound s₀ (retireTaken i lane seq s) :=
  sound_ite (retireLane_sound (received_sound h)) h

theorem laneFails_sound {s i k} (h : Sound s₀ s) : Sound s₀ (laneFails s i k) := modPort_sound (bump_sound h)

theorem flitDiscard_sound {i uncorrectable s} (h : Sound s₀ s) : Sound s₀ (flitDiscard i uncorrectable s) := by
  unfold flitDiscard
  extract_lets p nak lanes k s1
  have hs1 : Sound s₀ s1 := modPort_sound (laneFails_sound (sound_with h))
  exact sound_ite h (sound_ite (sound_ite (retireLane_sound hs1) hs1) (modPort_sound h))

theorem portUp_sound {i s} (h : Sound s₀ s) : Sound s₀ (portUp i s) := by
  unfold portUp
  extract_lets p lanes
  refine sound_ite ?_ ?_
  · exact h
  · split
    · exact sound_ite (modPort_sound h) (routesChanged_sound (modPort_sound h))
    · exact routesChanged_sound (modPort_sound h)
    · exact h

/-! ### Machine/Step -/

theorem withFetchWord_sound {s nbits w} (h : Sound s₀ s) : Sound s₀ (s.withFetchWord nbits w) := by
  unfold State.withFetchWord
  split
  · exact sound_with h
  · exact h

/-! ### Every row -/

theorem live_sound {s t u : State} (h : Sound s₀ t) (hl : live s t = .next u) : Sound s₀ u := by
  unfold live at hl
  split at hl
  · cases hl
  · cases hl
    exact h

/-- Every row keeps both. -/
theorem exec_sound {c : Instr} {s t : State} (h : Sound s₀ s) (he : exec c s = .next t) : Sound s₀ t := by
  cases c with
  | powerOn _ => cases he; exact powerOn_sound h
  | powerLoss => cases he; exact powerLoss_sound h
  | resetInput _ => exact live_sound (resetInput_sound h) he
  | resetRelease _ => exact live_sound (resetRelease_sound h) he
  | pcieDetectEnd _ => exact live_sound (pcieDetectEnd_sound h) he
  | moduleReady => exact live_sound (moduleReady_sound h) he
  | firmwareWatchdog => exact live_sound (firmwareWatchdog_sound h) he
  | coreRetire _ _ _ => exact live_sound (coreRetire_sound h) he
  | lifecycleReset => exact live_sound (lifecycleReset_sound h) he
  | doorbell _ _ => exact live_sound (doorbell_sound h) he
  | fencedCommandStart _ => exact live_sound (fencedStart_sound h) he
  | imgCplHeadWrite _ _ => exact live_sound (writeCplHead_sound h) he
  | pendingRecordPost _ => exact live_sound (drainRecords_sound h) he
  | resultRoomWaitEnd _ => exact live_sound (roomWaitEnd_sound h) he
  | lcCountRead _ => exact live_sound (lcCountRead_sound h) he
  | sbLcCountRead _ _ => exact live_sound (sbLcCountRead_sound h) he
  | pwrMeasRead _ => exact live_sound (pwrMeasRead_sound h) he
  | pwrLimitWrite _ => exact live_sound (pwrLimitWrite_sound h) he
  | sbModuleIdWrite _ => exact live_sound (sbModuleIdWrite_sound h) he
  | gateSwitchArm _ _ => exact live_sound (gateArm_sound h) he
  | gateSwitchCancel _ _ => exact live_sound (gateCancel_sound h) he
  | gateBankSwitch _ => exact live_sound (gateBankSwitch_sound h) he
  | flashRead => exact live_sound (flashStart_sound h) he
  | flashProgram => exact live_sound (flashStart_sound h) he
  | flashErase => exact live_sound (flashStart_sound h) he
  | flashOpDone _ => exact live_sound (flashOpDone_sound h) he
  | registerWrite _ _ _ => exact live_sound (registerWrite_sound h) he
  | nop _ => exact live_sound (enter_sound (fun _ _ _ => cmdNop_sound) h) he
  | resultRelease _ => exact live_sound (enter_sound (fun _ _ _ => cmdResultRelease_sound) h) he
  | moduleQuery _ => exact live_sound (enter_sound (fun _ _ _ => cmdModuleQuery_sound) h) he
  | healthRead _ => exact live_sound (enter_sound (fun _ _ _ => cmdHealthRead_sound) h) he
  | powerSet _ => exact live_sound (enter_sound (fun _ _ _ => cmdPowerSet_sound) h) he
  | partitionBind _ => exact live_sound (enter_sound (fun _ _ _ => cmdPartitionBind_sound) h) he
  | partitionUnbind _ => exact live_sound (enter_sound (fun _ _ _ => cmdPartitionUnbind_sound) h) he
  | partitionRebind _ => exact live_sound (enter_sound (fun _ _ _ => cmdPartitionRebind_sound) h) he
  | lifecycleAdvance _ _ => exact live_sound (enter_sound (fun _ _ _ => cmdLifecycleAdvance_sound) h) he
  | attestGet _ => exact live_sound (enter_sound (fun _ _ _ => cmdAttestGet_sound) h) he
  | configExport _ => exact live_sound (enter_sound (fun _ _ _ => cmdConfigExport_sound) h) he
  | configImport _ => exact live_sound (enter_sound (fun _ _ _ => cmdConfigImport_sound) h) he
  | bridgeMap _ => exact live_sound (enter_sound (fun _ _ _ => cmdBridgeMap_sound) h) he
  | serveStart _ => exact live_sound (enter_sound (fun _ _ _ => cmdServeStart_sound) h) he
  | warmupEnd _ => exact live_sound (warmupEnd_sound h) he
  | serveStop _ => exact live_sound (enter_sound (fun _ _ _ => cmdServeStop_sound) h) he
  | partitionStatus _ => exact live_sound (enter_sound (fun _ _ _ => cmdPartitionStatus_sound) h) he
  | digestRead _ => exact live_sound (enter_sound (fun _ _ _ => cmdDigestRead_sound) h) he
  | partitionRecover _ => exact live_sound (enter_sound (fun _ _ _ => cmdPartitionRecover_sound) h) he
  | modelSwapIn _ => exact live_sound (enter_sound (fun _ _ _ => cmdModelSwapIn_sound) h) he
  | modelSwapOut _ => exact live_sound (enter_sound (fun _ _ _ => cmdModelSwapOut_sound) h) he
  | indexLoad _ => exact live_sound (enter_sound (fun _ _ _ => cmdIndexLoad_sound) h) he
  | indexUnload _ => exact live_sound (enter_sound (fun _ _ _ => cmdIndexUnload_sound) h) he
  | tableLoad _ => exact live_sound (enter_sound (fun _ _ _ => cmdTableLoad_sound) h) he
  | tokenizerLoad _ => exact live_sound (enter_sound (fun _ _ _ => cmdTokenizerLoad_sound) h) he
  | grammarLoad _ => exact live_sound (enter_sound (fun _ _ _ => cmdGrammarLoad_sound) h) he
  | contentUnload _ => exact live_sound (enter_sound (fun _ _ _ => cmdContentUnload_sound) h) he
  | querySubmit _ => exact live_sound (enter_sound (fun _ _ _ => cmdQuerySubmit_sound) h) he
  | generateSubmit _ => exact live_sound (enter_sound (fun _ _ _ => cmdGenerateSubmit_sound) h) he
  | requestCancel _ => exact live_sound (enter_sound (fun _ _ _ => cmdRequestCancel_sound) h) he
  | requestPause _ => exact live_sound (enter_sound (fun _ _ _ => cmdRequestPause_sound) h) he
  | requestResume _ => exact live_sound (enter_sound (fun _ _ _ => cmdRequestResume_sound) h) he
  | searchSubmit _ => exact live_sound (enter_sound (fun _ _ _ => cmdSearchSubmit_sound) h) he
  | gatherSubmit _ => exact live_sound (enter_sound (fun _ _ _ => cmdGatherSubmit_sound) h) he
  | updateSubmit _ => exact live_sound (enter_sound (fun _ _ _ => cmdUpdateSubmit_sound) h) he
  | tallySubmit _ => exact live_sound (enter_sound (fun _ _ _ => cmdTallySubmit_sound) h) he
  | tokenizeSubmit _ => exact live_sound (enter_sound (fun _ _ _ => cmdTokenizeSubmit_sound) h) he
  | detokenizeSubmit _ => exact live_sound (enter_sound (fun _ _ _ => cmdDetokenizeSubmit_sound) h) he
  | searchInsert _ => exact live_sound (enter_sound (fun _ _ _ => cmdSearchInsert_sound) h) he
  | searchDelete _ => exact live_sound (enter_sound (fun _ _ _ => cmdSearchDelete_sound) h) he
  | plantStart _ => exact live_sound (enter_sound (fun _ _ _ => cmdPlantStart_sound) h) he
  | plantingDone _ _ => exact live_sound (plantingDue_sound h) he
  | barrierJoin _ => exact live_sound (enter_sound (fun _ _ _ => cmdBarrierJoin_sound) h) he
  | broadcastSend _ => exact live_sound (enter_sound (fun _ _ _ => cmdBroadcastSend_sound) h) he
  | snapshotTake _ => exact live_sound (enter_sound (fun _ _ _ => cmdSnapshotTake_sound) h) he
  | groupReset _ => exact live_sound (enter_sound (fun _ _ _ => cmdGroupReset_sound) h) he
  | globalDeferredStart _ _ => exact live_sound (deferredStart_sound h) he
  | loopbackSet _ => exact live_sound (enter_sound (fun _ _ _ => cmdLoopbackSet_sound) h) he
  | selftestRun _ => exact live_sound (enter_sound (fun _ _ _ => cmdSelftestRun_sound) h) he
  | peerSearch _ => exact live_sound (enter_sound (fun _ _ _ => cmdPeerSearch_sound) h) he
  | peerFetch _ => exact live_sound (enter_sound (fun _ _ _ => cmdPeerFetch_sound) h) he
  | peerGather _ => exact live_sound (enter_sound (fun _ _ _ => cmdPeerGather_sound) h) he
  | peerUpdate _ => exact live_sound (enter_sound (fun _ _ _ => cmdPeerUpdate_sound) h) he
  | stepForm _ => exact live_sound (stepForm_sound (settle_sound h)) he
  | stepBoundary _ => exact live_sound (stepBoundary_sound h) he
  | changeBoundary _ => exact live_sound (changeBoundary_sound h) he
  | launchFire _ => exact live_sound (launchFire_sound h) he
  | standTaskComplete _ => exact live_sound (taskComplete_sound h) he
  | arrayResidueFault _ =>
    refine live_sound ?_ he
    split
    · exact taskFault_sound h
    · exact h
  | taskWatchdog _ =>
    refine live_sound ?_ he
    split
    · exact sound_ite (taskFault_sound h) h
    · exact h
  | engineSliceEnd _ _ => exact live_sound (settle_sound (sliceRow_sound h)) he
  | sliceWatchdog _ => exact live_sound (sound_ite (settle_sound (serviceFault_sound h)) h) he
  | engineFault _ => exact live_sound (settle_sound (serviceFault_sound h)) he
  | tallyFault _ => exact live_sound (sound_ite (settle_sound (serviceFault_sound h)) h) he
  | sapwoodBudgetExpiry _ =>
    refine live_sound ?_ he
    split
    · exact settle_sound (budgetExpiry_sound h)
    · exact h
  | unitSelftestDone _ _ => exact live_sound (postAll_sound (unitTested_sound h)) he
  | spareSelftestDone _ => exact live_sound (postAll_sound (spareTested_sound h)) he
  | moveDescriptorStart _ =>
    refine live_sound ?_ he
    split
    · exact regulated_sound (fun _ => moveStart_sound) h
    · exact h
  | fillComplete _ _ => exact live_sound (fillComplete_sound h) he
  | fillFailed _ _ => exact live_sound (fillFailed_sound h) he
  | t2FillTimeout _ => exact live_sound (t2Timeout_sound h) he
  | landingUe _ _ _ => exact live_sound (landingUe_sound h) he
  | segmentZeroed _ => exact live_sound (zeroedActs_sound h) he
  | patrolScrub _ _ => exact live_sound (patrolScrub_sound h) he
  | channelRetire _ _ => exact live_sound (channelRetire_sound h) he
  | channelCopyComplete _ => exact live_sound (channelCopied_sound h) he
  | cacheCountHalve _ => exact live_sound (cacheHalve_sound h) he
  | cutMainRound => exact live_sound (cutMain_sound h) he
  | cutLateRound => exact live_sound (cutLate_sound h) he
  | epochBoundary => exact live_sound (epochBoundary_sound h) he
  | budgetUpdate _ _ => exact live_sound (budgetUpdate_sound h) he
  | thermalSample _ _ _ _ => exact live_sound (thermalSample_sound h) he
  | hostWindowWrite _ _ _ _ => exact live_sound (windowWrite_sound h) he
  | hostWindowRead _ _ _ _ => exact live_sound (windowRead_sound h) he
  | relayReadTimeout _ => exact live_sound (relayTimeout_sound h) he
  | functionLevelReset _ => exact live_sound (functionReset_sound h) he
  | pcieLinkDown => exact live_sound (linkDown_sound h) he
  | mboxWrite _ _ => exact live_sound (receive_sound h) he
  | mboxRead _ _ => exact live_sound (receive_sound h) he
  | readData _ _ => exact live_sound (receive_sound h) he
  | peerReq _ _ => exact live_sound (receive_sound h) he
  | peerData _ _ => exact live_sound (receive_sound h) he
  | message _ _ => exact live_sound (receive_sound h) he
  | hostWrite _ _ => exact live_sound (receive_sound h) he
  | hostRead _ _ => exact live_sound (receive_sound h) he
  | blazeUp _ _ => exact live_sound (receiveBlaze_sound h) he
  | blazeDown _ _ => exact live_sound (receiveBlaze_sound h) he
  | blazeChildTimeout _ _ => exact live_sound (childTimeout_sound h) he
  | blazeDownTimeout _ _ => exact live_sound (downTimeout_sound h) he
  | frameTransmit _ => exact live_sound (frameTransmit_sound h) he
  | nak _ _ => exact live_sound (nakTaken_sound h) he
  | hello _ _ _ _ => exact live_sound (helloTaken_sound h) he
  | distanceVector _ _ => exact live_sound (vectorTaken_sound h) he
  | distanceVectorSend => exact live_sound (vectorSend_sound h) he
  | laneRetire _ _ => exact live_sound (retireLane_sound h) he
  | retire _ _ => exact live_sound (retireTaken_sound h) he
  | portUp _ => exact live_sound (portUp_sound h) he
  | peerLost _ => exact live_sound (peerLost_sound h) he
  | peerReinstated _ => exact live_sound (peerReinstated_sound h) he
  | flitDiscard _ _ => exact live_sound (flitDiscard_sound h) he
  | creditReturn _ _ _ _ _ => exact live_sound (creditReturn_sound h) he
  | loopbackTestEnd _ _ => exact live_sound (loopbackEnd_sound h) he
  | selftestRunEnd _ _ => exact live_sound (selftestEnd_sound h) he
  | configurationSpaceWrite _ => exact live_sound (configWrite_sound h) he
  | pcieLinkUp _ _ => exact live_sound (linkUp_sound h) he
  | hostCompletion _ _ _ => exact live_sound (hostCompletion_sound h) he
  | setdasa _ => exact live_sound (setdasa_sound h) he

theorem step_sound {s t : State} (h : Sound s₀ s) (hs : step s = .next t) : Sound s₀ t := by
  cases hp : s.pending with
  | nil =>
    rw [step_of_empty hp] at hs
    cases hs
    exact tick_sound h
  | cons c rest =>
    rw [step_of_front hp] at hs
    exact exec_sound (sound_with h) hs

theorem sound_refl (s : State) : Sound s s := ⟨id, id⟩

/-- Settles O57: every operation of the model carries the canonical form along. -/
theorem stepKeepsMemory : Obligations.StepKeepsMemory := by
  unfold Obligations.StepKeepsMemory
  exact fun s t hs => (step_sound (sound_refl s) hs).memory

/-- Settles O58: every operation of the model carries the shape along. -/
theorem stepKeepsShape : Obligations.StepKeepsShape := by
  unfold Obligations.StepKeepsShape
  exact fun s t hs => (step_sound (sound_refl s) hs).shape

/-- Settles O60: after reset the memories are empty and the lists have their lengths. -/
theorem resetMeetsInvariants : Obligations.ResetMeetsInvariants := by
  unfold Obligations.ResetMeetsInvariants
  exact ⟨⟨rfl, rfl, rfl, rfl⟩, rfl, rfl, rfl, by simp [State.reset, Stand.assign]⟩

end Sys2Proof.Laws
end

section
/-! SUPPORT. Registers (02 R36, R61 to R63; 14 R386; 18 R477, R479): what they read after a reset, reads of LcCount, and the
writes to the registers and ring indices. The section settles O4, O11, O15 and O16. -/

namespace Sys2Proof.Laws

open Sys2Proof Sys2Proof.Machine

/-! ### After reset -/

theorem getD_replicate_self {α : Type} (n i : Nat) (x : α) : (List.replicate n x).getD i x = x := by
  by_cases h : i < n <;> simp [List.getD, h]

theorem reset_pair {i : Nat} (h1 : 1 ≤ i) : State.reset.pair i = Pair.reset := by
  obtain ⟨j, rfl⟩ := Nat.exists_eq_add_of_le' h1
  show (Pair.reset0 :: List.replicate 95 Pair.reset).getD (j + 1) Pair.reset = Pair.reset
  rw [List.getD_cons_succ, getD_replicate_self]

theorem reset_part (i : Nat) : State.reset.part i = Partition.unbound :=
  getD_replicate_self _ _ _

theorem reset_port (p : Nat) : State.reset.port p = Port.reset :=
  getD_replicate_self _ _ _

theorem imgPairStatus_reset {i : Nat} (h1 : 1 ≤ i) : imgPairStatus State.reset i = 0 := by
  simp [imgPairStatus, pairPState, reset_pair h1, Pair.reset, PState.code, boolNat, w32, show i ≠ 0 by omega]

/-- Settles O4: pairs, partitions and ports are all in their reset form, and the rest are values of the reset state. -/
theorem resetRegisters : Obligations.ResetRegisters := by
  unfold Obligations.ResetRegisters
  refine ⟨fun i off h1 _ hoff => ?_, rfl, rfl, fun fn => rfl, rfl, rfl, rfl, rfl, rfl,
    fun p _ => by simp [reset_port, Port.reset], fun i _ => by simp [reset_part, Partition.unbound], rfl⟩
  simp only [List.mem_cons, List.not_mem_nil, or_false] at hoff
  rcases hoff with rfl | rfl | rfl | rfl | rfl | rfl
  case inr.inr.inr.inr.inl => exact imgPairStatus_reset h1
  all_goals simp [slotReg, reset_pair h1, Pair.reset]

/-! ### LcCount -/

/-- Settles O11: the two offsets read the two halves of the counter. -/
theorem lcCountReads : Obligations.LcCountReads := by
  unfold Obligations.LcCountReads
  intro s hup
  refine ⟨(live_next hup).trans ?_, live_next hup⟩
  simp [lcCountRead, halfWord_low, halfWord_high]

/-! ### Writes -/

section
variable {s : State} (hup : s.power.railTripped = false)
include hup

theorem exec_registerWrite (space : RegSpace) (off : Nat) (v : W32) :
    exec (.registerWrite space off v) s = .next (registerWrite space off v s) := live_next hup

theorem exec_doorbell (i : Nat) (v : W32) : exec (.doorbell i v) s = .next (doorbell i v s) := live_next hup

theorem exec_imgCplHeadWrite (i : Nat) (v : W32) : exec (.imgCplHeadWrite i v) s = .next (writeCplHead i v s) :=
  live_next hup

end

section
variable {s : State} {pair : Nat} {v : W32} (hrel : s.released = true)
include hrel

theorem slotWrite_of_released {off : Nat} (h0 : off ≠ 0) (h4 : off ≠ 4) :
    slotWrite pair off v s = slotRegWrite pair off v s := by
  simp [slotWrite, hrel, h0, h4]

theorem slotWrite_tail : slotWrite pair 0x000 v s = doorbell pair v s := by simp [slotWrite, hrel]

theorem slotWrite_head : slotWrite pair 0x004 v s = writeCplHead pair v s := by simp [slotWrite, hrel]

theorem slotWrite_readOnly {off : Nat} (h : off ∈ [0x008, 0x00C, 0x014, 0x018, 0x800, 0x804, 0x810, 0x814]) :
    slotWrite pair off v s = s := by
  simp only [List.mem_cons, List.not_mem_nil, or_false] at h
  rcases h with rfl | rfl | rfl | rfl | rfl | rfl | rfl | rfl <;> exact slotWrite_of_released hrel (by decide) (by decide)

/-- A write in the side-band space of the link ports reaches the port's block (14 R386). -/
theorem sbWrite_link {off : Nat} (hin : s.power.inputOn = true) (h4 : off % 4 = 0) (hlo : 0x400 ≤ off) (hhi : off < 0x600) :
    sbWrite off v s = linkBlockWrite off v s := by
  unfold sbWrite
  rw [if_neg (by simp [State.managed, hin, h4]), if_neg (by omega), if_neg (by omega), if_neg (by omega), if_neg (by omega),
    if_neg (by omega), if_neg (by simp [hrel]), if_neg (by omega), if_pos ⟨hlo, hhi⟩]

end

theorem gateIgnored_of_blaze {s : State} {p : Nat} (h : s.ident.bridge = false ∨ 4 ≤ p) : gateIgnored s p = false := by
  rcases h with h | h
  · simp [gateIgnored, h]
  · simp [gateIgnored, h]

/-- The low word of LinkGateBase waits for the high one. -/
theorem linkBlockWrite_baseLow {s : State} {p : Nat} {v : W32} (h : s.ident.bridge = false ∨ 4 ≤ p) :
    linkBlockWrite (0x410 + 0x20 * p) v s = holdLow s (0x410 + 0x20 * p) v := by
  unfold linkBlockWrite
  rw [show (0x410 + 0x20 * p - 0x400) % 0x20 = 0x10 by omega, show (0x410 + 0x20 * p - 0x400) / 0x20 = p by omega]
  exact if_neg (by simp [gateIgnored_of_blaze h])

theorem linkBlockWrite_baseHigh {s : State} {p : Nat} {v : W32} (h : s.ident.bridge = false ∨ 4 ≤ p) :
    linkBlockWrite (0x414 + 0x20 * p) v s =
      s.modPort p fun q => { q with gateBase := v ++ heldFor s (0x410 + 0x20 * p) } := by
  unfold linkBlockWrite
  rw [show (0x414 + 0x20 * p - 0x400) % 0x20 = 0x14 by omega, show (0x414 + 0x20 * p - 0x400) / 0x20 = p by omega,
    show 0x414 + 0x20 * p - 4 = 0x410 + 0x20 * p by omega]
  exact if_neg (by simp [gateIgnored_of_blaze h])

section
variable {s : State} (hin : s.power.inputOn = true) (v : W32)
include hin

theorem sbWrite_moduleId : sbWrite 0x0008 v s = sbModuleIdWrite v s := by simp [sbWrite, State.managed, hin]

theorem sbWrite_flashRead : sbWrite 0x0100 1 s = flashStart .read s := by simp [sbWrite, State.managed, hin, bitsOf]

theorem sbWrite_flashAddr :
    sbWrite 0x0104 v s = { s with flash := { s.flash with addr := w32 (v.toNat % 2 ^ 28) } } := by
  simp [sbWrite, State.managed, hin, bitsOf]

theorem sbWrite_flashSts :
    sbWrite 0x0108 v s = { s with flash := { s.flash with err := s.flash.err && !bit v.toNat 30 } } := by
  simp [sbWrite, State.managed, hin]

theorem sbWrite_zero : sbWrite 0x0000 v s = s := by simp [sbWrite, State.managed, hin]

end

theorem page0Write_winErr (fn : Nat) (v : W32) (s : State) : page0Write fn 0x004 v s = if bit v.toNat 0
    then { s with bridge := { s.bridge with winErr := s.bridge.winErr.filter (· != fn) } } else s := by
  simp [page0Write]

/-- Settles O15: each register by the lemma of its write. -/
theorem registerWrites : Obligations.RegisterWrites := by
  unfold Obligations.RegisterWrites
  intro s v hup hin
  simp only [exec_registerWrite hup, exec_doorbell hup, exec_imgCplHeadWrite hup, registerWrite,
    Host.Outcome.next.injEq]
  refine ⟨fun hrel => ⟨fun pair => ?_, fun pair => ?_, fun pair off hoff => slotWrite_readOnly hrel hoff,
    fun pair => ⟨slotWrite_tail hrel, slotWrite_head hrel⟩, fun p hp hgate => ⟨?_, ?_⟩⟩,
    fun fn => page0Write_winErr fn v s, sbWrite_flashAddr hin v, sbWrite_flashSts hin v, ?_, ?_, sbWrite_zero hin v⟩
  · exact slotWrite_of_released hrel (by decide) (by decide)
  · exact slotWrite_of_released hrel (by decide) (by decide)
  · rw [sbWrite_link hrel hin (by omega) (by omega) (by omega), linkBlockWrite_baseLow hgate]
    rfl
  · rw [sbWrite_link hrel hin (by omega) (by omega) (by omega), linkBlockWrite_baseHigh hgate]
    rfl
  · rw [sbWrite_moduleId hin]
    exact (live_next hup).symm
  · rw [sbWrite_flashRead hin]
    exact (live_next hup).symm

/-! ### Ring indices -/

section
variable {s : State} {i : Nat} {v : W32} (hi : i < 64)
include hi

theorem doorbell_of_unbound (h : (s.pair i).bound = false) :
    doorbell i v s = s.modPair i fun p => { p with unboundWr := true } := by
  simp [doorbell, show ¬64 ≤ i by omega, h]

theorem doorbell_of_bound (h : (s.pair i).bound = true) :
    doorbell i v s = if tailOk (s.pair i) (v.setWidth 16)
      then takeRing i (2 ^ (s.pair i).geom.reqLog2) (s.modPair i fun p => { p with reqTail := v.setWidth 16 })
      else s.modPair i fun p => { p with tailErr := true } := by
  cases ht : tailOk (s.pair i) (v.setWidth 16) <;> simp [doorbell, show ¬64 ≤ i by omega, h, ht]

theorem writeCplHead_of_unbound (h : (s.pair i).bound = false) :
    writeCplHead i v s = s.modPair i fun p => { p with unboundWr := true } := by
  simp [writeCplHead, show ¬64 ≤ i by omega, h]

theorem writeCplHead_of_bound (h : (s.pair i).bound = true) :
    writeCplHead i v s = if cplUsed (s.pair i) < ((v.setWidth 16 : W16) - (s.pair i).cplHead).toNat
      then s.modPair i fun p => { p with headErr := true }
      else s.modPair i fun p => { p with cplHead := v.setWidth 16 } := by
  simp [writeCplHead, show ¬64 ≤ i by omega, h]

end

theorem tailOk_iff (p : Pair) (w : W16) : tailOk p w = true ↔
    (w - p.reqHead).toNat ≤ 2 ^ p.geom.reqLog2 ∧ (p.reqTail - p.reqHead).toNat ≤ (w - p.reqHead).toNat := by
  simp only [tailOk, Bool.and_eq_true, decide_eq_true_eq]

/-- Settles O16: the pair, then the range of the index, decide what a write sets. -/
theorem ignoredIndexWrites : Obligations.IgnoredIndexWrites := by
  unfold Obligations.IgnoredIndexWrites
  intro i v s hup hi
  simp only [exec_doorbell hup, exec_imgCplHeadWrite hup]
  refine ⟨fun hb => ?_, fun hb => ⟨fun hbad => ?_, fun hbad => ?_⟩⟩
  · rw [doorbell_of_unbound hi hb, writeCplHead_of_unbound hi hb]
    exact ⟨rfl, rfl⟩
  · rw [doorbell_of_bound hi hb, if_neg (by rw [tailOk_iff]; omega)]
    rfl
  · rw [writeCplHead_of_bound hi hb, if_pos (show cplUsed (s.pair i) < _ from hbad)]
    rfl

end Sys2Proof.Laws
end

section
/-! SUPPORT. The rings (02 R35, R40 to R47, R62): indices that are taken, the layout of a completion record and where it is
written, and what waits for the rings. The section settles O17, O18 and O19. -/

namespace Sys2Proof.Laws

open Sys2Proof Sys2Proof.Machine

/-! ### Indices that are taken -/

section
variable {s : State} {i : Nat}

theorem takeRing_idle (n : Nat) (h : s.isReady = false) : takeRing i n s = s := by
  cases n with
  | zero => rfl
  | succ n => simp [takeRing, h]

theorem takeRing_succ (hb : (s.pair i).bound = true) (n : Nat) : takeRing i (n + 1) s =
    if s.isReady = true ∧ (s.pair i).reqHead ≠ (s.pair i).reqTail then
      takeRing i n (takeRequest (requestAt s i (s.pair i).reqHead).1 (requestAt s i (s.pair i).reqHead).2
        (s.modPair i fun p => { p with reqHead := p.reqHead + 1 }))
    else s := by
  rw [takeRing]
  by_cases hr : s.isReady = true
  · by_cases he : (s.pair i).reqHead = (s.pair i).reqTail
    · rw [if_pos (by simp [he]), if_neg (by simp [he])]
    · rw [if_neg (by simp [hr, hb, he]), if_pos ⟨hr, he⟩]
  · rw [if_pos (by simp [hr]), if_neg (by simp [hr])]

end

/-- Settles O17: the two writes by their lemmas, and the ring one request at a time. -/
theorem indexWritesTaken : Obligations.IndexWritesTaken := by
  unfold Obligations.IndexWritesTaken
  intro i v s hup hi hb
  refine ⟨fun hok => ?_, fun hroom hback => ?_, takeRing_succ hb⟩
  · rw [exec_imgCplHeadWrite hup, writeCplHead_of_bound hi hb,
      if_neg (show ¬cplUsed (s.pair i) < _ from Nat.not_lt.2 hok)]
    rfl
  · have hrun := (exec_doorbell hup i v).trans
      (congrArg _ ((doorbell_of_bound hi hb).trans (if_pos ((tailOk_iff _ _).2 ⟨hroom, hback⟩))))
    exact ⟨hrun, fun hidle => hrun.trans (congrArg _ (takeRing_idle _ hidle))⟩

/-! ### Layout of a record -/

theorem leNat_leBytes (k n : Nat) : leNat (leBytes k n) = n % 256 ^ k := by
  induction k generalizing n with
  | zero => simp [leBytes, leNat, Nat.mod_one]
  | succ k ih =>
    rw [leBytes, leNat, ih, BitVec.toNat_ofNat, Nat.pow_succ' (m := 256), Nat.mod_mul]

/-- A field that a structure holds after the bytes before it. -/
theorem fld_append {l m r : List Byte} {off k : Nat} (ho : l.length = off) (hk : m.length = k) :
    fld (l ++ (m ++ r)) off k = leNat m := by
  subst ho hk
  rw [fld, List.drop_left, List.take_left]

theorem statusCode_lt (st : Status) : st.code < 16 := by cases st <;> decide

theorem reasonCode_lt (r : Reason) : r.code < 16 := by cases r <;> decide

theorem partStateCode_lt (p : PState) : p.code < 16 := by cases p <;> decide

theorem boolNat_lt (b : Bool) : boolNat b < 2 := by cases b <;> decide

theorem leNat_byte (b : Byte) : leNat [b] = b.toNat := by simp [leNat]

theorem toNat_b8 {n : Nat} (h : n < 256) : (b8 n).toNat = n := by simp [b8, Nat.mod_eq_of_lt h]

/-- The bytes of a record, one list for each field. -/
def recordFields (r : Record) (idx : W16) (g : Nat) : List (List Byte) :=
  [leBytes 4 r.seq.toNat, leBytes 2 r.status.code, [b8 r.reason.code],
   [b8 (boolNat r.more + 2 * boolNat r.handle.isSome)], leBytes 2 (r.context.getD 0xFFFF), [b8 r.partState.code],
   [partByte r.partition], leBytes 4 (r.handle.getD 0).toNat, leBytes 4 r.resOffset, leBytes 4 r.resLength,
   leBytes 4 r.detail.toNat, leBytes 4 (boolNat (!bit idx.toNat g) * 2 ^ 31 + idx.toNat)]

theorem recordBytes_eq (r : Record) (idx : W16) (g : Nat) : recordBytes r idx g = (recordFields r idx g).flatten := by
  simp [recordBytes, recordFields]

/-- The field at place `n` lies after those before it. -/
theorem fld_flatten {fs : List (List Byte)} {n off k : Nat} (hn : n < fs.length) (ho : ((fs.take n).map List.length).sum = off)
    (hk : fs[n].length = k) : fld fs.flatten off k = leNat fs[n] := by
  have hs : fs.flatten = (fs.take n).flatten ++ (fs[n] ++ (fs.drop (n + 1)).flatten) := by
    rw [← List.flatten_cons, List.cons_getElem_drop_succ, ← List.flatten_append, List.take_append_drop]
  rw [hs]
  exact fld_append (by rw [List.length_flatten, ho]) hk

theorem phaseWord_toNat (idx : W16) (g : Nat) : (boolNat (!bit idx.toNat g) * 2 ^ 31 + idx.toNat) % 256 ^ 4 =
    (if idx.toNat / 2 ^ g % 2 = 0 then 2 ^ 31 else 0) + idx.toNat := by
  have hi : idx.toNat < 65536 := idx.isLt
  by_cases h : idx.toNat / 2 ^ g % 2 = 0
  · have hb : bit idx.toNat g = false := by simp [bit, Nat.testBit_eq_decide_div_mod_eq, h]
    rw [hb, if_pos h]
    simp [boolNat]
    omega
  · have hb : bit idx.toNat g = true := by simp [bit, Nat.testBit_eq_decide_div_mod_eq]; omega
    rw [hb, if_neg h]
    simp [boolNat]
    omega

theorem fld_recordBytes {r : Record} {idx : W16} {g : Nat} (n : Nat) {off k : Nat} (hn : n < 12)
    (ho : (((recordFields r idx g).take n).map List.length).sum = off) (hk : ((recordFields r idx g)[n]'hn).length = k) :
    fld (recordBytes r idx g) off k = leNat ((recordFields r idx g)[n]'hn) := by
  rw [recordBytes_eq]
  exact fld_flatten (fs := recordFields r idx g) hn ho hk

theorem recordBytes_length (r : Record) (idx : W16) (g : Nat) : (recordBytes r idx g).length = 32 := by
  rw [recordBytes_eq, List.length_flatten]
  rfl

theorem word_toNat (v : W32) : v.toNat % 256 ^ 4 = v.toNat := Nat.mod_eq_of_lt v.isLt

theorem recordBytes_layout (r : Record) (idx : W16) (g : Nat) :
    fld (recordBytes r idx g) 0 4 = r.seq.toNat ∧
    fld (recordBytes r idx g) 4 2 = r.status.code ∧
    fld (recordBytes r idx g) 6 1 = r.reason.code ∧
    fld (recordBytes r idx g) 7 1 = boolNat r.more + 2 * boolNat r.handle.isSome ∧
    fld (recordBytes r idx g) 8 2 = (r.context.getD 0xFFFF) % 65536 ∧
    fld (recordBytes r idx g) 0x0A 1 = r.partState.code ∧
    fld (recordBytes r idx g) 0x0B 1 = (partByte r.partition).toNat ∧
    fld (recordBytes r idx g) 0x0C 4 = (r.handle.getD 0).toNat ∧
    fld (recordBytes r idx g) 0x10 4 = r.resOffset % 2 ^ 32 ∧
    fld (recordBytes r idx g) 0x14 4 = r.resLength % 2 ^ 32 ∧
    fld (recordBytes r idx g) 0x18 4 = r.detail.toNat ∧
    fld (recordBytes r idx g) 0x1C 4 = (if idx.toNat / 2 ^ g % 2 = 0 then 2 ^ 31 else 0) + idx.toNat := by
  have hst := statusCode_lt r.status
  have hre := reasonCode_lt r.reason
  have hps := partStateCode_lt r.partState
  have hmore := boolNat_lt r.more
  have hres := boolNat_lt r.handle.isSome
  refine ⟨?_, ?_, ?_, ?_, ?_, ?_, ?_, ?_, ?_, ?_, ?_, ?_⟩
  · exact (fld_recordBytes 0 (by decide) rfl rfl).trans ((leNat_leBytes _ _).trans (word_toNat _))
  · exact (fld_recordBytes 1 (by decide) rfl rfl).trans ((leNat_leBytes _ _).trans (Nat.mod_eq_of_lt (by omega)))
  · exact (fld_recordBytes 2 (by decide) rfl rfl).trans ((leNat_byte _).trans (toNat_b8 (by omega)))
  · exact (fld_recordBytes 3 (by decide) rfl rfl).trans ((leNat_byte _).trans (toNat_b8 (by omega)))
  · exact (fld_recordBytes 4 (by decide) rfl rfl).trans (leNat_leBytes _ _)
  · exact (fld_recordBytes 5 (by decide) rfl rfl).trans ((leNat_byte _).trans (toNat_b8 (by omega)))
  · exact (fld_recordBytes 6 (by decide) rfl rfl).trans (leNat_byte _)
  · exact (fld_recordBytes 7 (by decide) rfl rfl).trans ((leNat_leBytes _ _).trans (word_toNat _))
  · exact (fld_recordBytes 8 (by decide) rfl rfl).trans (leNat_leBytes _ _)
  · exact (fld_recordBytes 9 (by decide) rfl rfl).trans (leNat_leBytes _ _)
  · exact (fld_recordBytes 10 (by decide) rfl rfl).trans ((leNat_leBytes _ _).trans (word_toNat _))
  · exact (fld_recordBytes 11 (by decide) rfl rfl).trans ((leNat_leBytes _ _).trans (phaseWord_toNat _ _))

/-! ### Posting -/

section
variable {s : State} {i : Nat} {r : Record}

theorem post_of_unbound (h : (s.pair i).bound = false) : post s i r = s := by simp [post, h]

theorem post_of_room (hb : (s.pair i).bound = true) (hw : (s.pair i).waiting = []) (hr : cplFull (s.pair i) = false) :
    post s i r = writeRecord s i r := by
  simp [post, hb, hw, hr]

theorem post_behind (hb : (s.pair i).bound = true) (h : (s.pair i).waiting ≠ [] ∨ cplFull (s.pair i) = true) :
    post s i r = s.modPair i fun p => { p with waiting := p.waiting ++ [r] } := by
  rcases h with h | h
  · simp [post, hb, h]
  · simp [post, hb, h]

/-- CTRL accesses are counted, and no regulator holds them (01 R16; 13 R353). -/
theorem charge_ctrl (s : State) (i n : Nat) (h : n ≠ 0) : charge s i .ctrl n = bump s .landingBytes i 0 n := if_neg h

/-- The bytes of a record count for the partition of its pair (01 R16). -/
theorem charge_record (s : State) (part : Option Nat) :
    (match part with
      | some k => charge s k .ctrl 32
      | none => s) =
    { s with ctr := match part with
      | some k => (bump s .landingBytes k 0 32).ctr
      | none => s.ctr } := by
  cases part with
  | none => rfl
  | some k => exact charge_ctrl s k 32 (by decide)

/-- A record of a command that moves nothing is its bytes in the slot of ImgCplTail. -/
theorem writeRecord_plain (hh : r.handle = none) (ho : r.owner = none) (hq : r.irq = false) (hd : r.dest = none) :
    writeRecord s i r = { s with
      landing := regionWrite s.landing (s.pair i).segs (0x20000 + 32 * ((s.pair i).cplTail.toNat % 2 ^ (s.pair i).geom.cplLog2))
        (recordBytes r (s.pair i).cplTail (s.pair i).geom.cplLog2)
      pairs := s.pairs.set i { s.pair i with cplTail := (s.pair i).cplTail + 1 }
      ctr := match (s.pair i).part with
        | some k => (bump s .landingBytes k 0 32).ctr
        | none => s.ctr } := by
  unfold writeRecord
  simp only [hd, hq, ho, closeResult, hh, Bool.false_eq_true, if_false, ite_self]
  generalize regionWrite _ _ _ _ = l
  exact congrArg (fun t : State => t.modPair i fun p => { p with cplTail := p.cplTail + 1 })
    (charge_record { s with landing := l } _)

end

/-- Settles O18: the layout field by field, and the three forms of posting. -/
theorem recordsPosted : Obligations.RecordsPosted := by
  unfold Obligations.RecordsPosted
  refine ⟨fun r idx g => ⟨recordBytes_length r idx g, recordBytes_layout r idx g⟩, fun s i r hh ho hq hd =>
    ⟨post_of_unbound, fun hb hw => ?_, fun hb hw hr => ?_⟩⟩
  · exact post_behind hb hw
  · exact (post_of_room hb hw hr).trans (writeRecord_plain hh ho hq hd)

/-! ### What waited -/

section
variable {s : State} (hup : s.power.railTripped = false) {i : Nat}
include hup

theorem exec_pendingRecordPost : exec (.pendingRecordPost i) s = .next (drainRecords i (s.pair i).waiting.length s) :=
  live_next hup

theorem exec_fencedCommandStart : exec (.fencedCommandStart i) s = .next (fencedStart i s) := live_next hup

theorem exec_resultRoomWaitEnd (t : Nat) : exec (.resultRoomWaitEnd t) s = .next (roomWaitEnd t s) := live_next hup

end

section
variable {s : State} {i : Nat}

theorem drainRecords_none (n : Nat) (h : (s.pair i).waiting = []) : drainRecords i n s = s := by
  cases n with
  | zero => rfl
  | succ n => simp [drainRecords, h]

theorem drainRecords_full (n : Nat) (h : cplFull (s.pair i) = true) : drainRecords i n s = s := by
  cases n with
  | zero => rfl
  | succ n => cases hw : (s.pair i).waiting <;> simp [drainRecords, hw, h]

theorem drainRecords_one {r : Record} (hw : (s.pair i).waiting = [r]) (h : cplFull (s.pair i) = false) :
    drainRecords i 1 s = writeRecord (s.modPair i fun p => { p with waiting := [] }) i r := by
  simp [drainRecords, hw, h]

theorem fencedStart_of_front {t : Nat} {c : Code} {r : Req} {rest : List (Nat × Code × Req)}
    (h : (s.pair i).fenced = (t, c, r) :: rest) : fencedStart i s =
      if earlierDone s i t = true then startCode c r t (s.modPair i fun p => { p with fenced := rest }) else s := by
  simp [fencedStart, h]

theorem roomWaitEnd_of_oldest {t : Nat} {c : Cmd} {st : Status} {d : W32} {bs : List Byte} (hc : s.cmd? t = some c)
    (hw : c.roomWait = some (st, d, bs)) (ho : (roomWaiters s c.pair).head?.map (·.ticket) = some t) :
    roomWaitEnd t s = finish s t st d (some bs) := by
  simp only [roomWaitEnd, hc, hw, ho, if_true]

/-- The final record of a command with a result that its pair's result region holds (02 R47). -/
theorem finish_in_region {t off : Nat} {c : Cmd} {st : Status} {d h : W32} {bs : List Byte} {s1 : State}
    (hc : s.cmd? t = some c) (hp : c.pair < 64) (hfit : bs.length ≤ resBytes (s.pair c.pair))
    (ha : allocResult s c.pair bs.length true = some (h, off, s1)) :
    finish s t st d (some bs) = (post (writeResult s1 c.pair off bs) c.pair
      { mkRecord s c.seq c.irq c.part st (c.detail st d) t with
        context := c.ctx, handle := some h, resOffset := off, resLength := bs.length }).endCmd c st := by
  simp only [finish, hc, ha, Nat.not_le.2 hp, Nat.not_lt.2 hfit, if_false]

end

/-- Settles O19: each event by the lemma of its effect. -/
theorem ringEvents : Obligations.RingEvents := by
  unfold Obligations.RingEvents
  intro i s hup
  refine ⟨fun r hw hr => ?_, fun h => ?_, fun t c r rest hf => ?_, fun t c st d bs h off s1 hc hp hw ho ha hfit => ?_⟩
  · rw [exec_pendingRecordPost hup, hw]
    exact congrArg _ (drainRecords_one hw hr)
  · rw [exec_pendingRecordPost hup]
    rcases h with h | h
    · rw [drainRecords_none _ h]
    · rw [drainRecords_full _ h]
  · rw [exec_fencedCommandStart hup, fencedStart_of_front hf]
    rfl
  · rw [exec_resultRoomWaitEnd hup, roomWaitEnd_of_oldest hc hw ho, finish_in_region hc hp hfit ha]

end Sys2Proof.Laws
end

section
/-! SUPPORT. How every command is taken (02 R24, R38, R45, R51): its sequence check, the fence, and the checks of the command in
their order. The section settles O20 and O21. -/

namespace Sys2Proof.Laws

open Sys2Proof Sys2Proof.Machine

/-- A command with a body of its own runs its checks over it, and its records show the partition it names. -/
def RunsChecks (c : Code) (cmd : Req → Nat → State → State) : Prop :=
  ∀ r t s, ∃ n eff, cmd r t s = runCmd c (commandPart s c r) n eff r t s

/-- Every row of a command takes it and runs its checks. -/
theorem exec_command {i : Instr} {c : Code} {r : Req} (h : commandOf i = some (c, r)) :
    ∃ cmd, (∀ s, exec i s = live s (enter c cmd r s)) ∧ RunsChecks c cmd := by
  cases i <;> cases h
  all_goals
    refine ⟨_, fun s => rfl, fun r t s => ?_⟩
    dsimp only [cmdNop, cmdResultRelease, cmdModuleQuery, cmdHealthRead, cmdPowerSet, cmdPartitionBind,
      cmdPartitionUnbind, cmdPartitionRebind, cmdLifecycleAdvance, cmdAttestGet, cmdConfigExport, cmdConfigImport,
      cmdBridgeMap, cmdServeStart, cmdServeStop, cmdPartitionStatus, cmdDigestRead, cmdPartitionRecover,
      cmdModelSwapIn, cmdModelSwapOut, cmdIndexLoad, cmdIndexUnload, cmdTableLoad, cmdTokenizerLoad, cmdGrammarLoad,
      cmdContentUnload, cmdQuerySubmit, cmdGenerateSubmit, cmdRequestCancel, cmdRequestPause, cmdRequestResume,
      cmdSearchSubmit, cmdGatherSubmit, cmdUpdateSubmit, cmdTallySubmit, cmdTokenizeSubmit, cmdDetokenizeSubmit,
      cmdSearchInsert, cmdSearchDelete, cmdPlantStart, cmdBarrierJoin, cmdBroadcastSend, cmdSnapshotTake,
      cmdGroupReset, cmdLoopbackSet, cmdSelftestRun, cmdPeerSearch, cmdPeerFetch, cmdPeerGather, cmdPeerUpdate]
    exact ⟨_, _, rfl⟩

/-! ### Sequence number and fence -/

section
variable {c : Code} {cmd : Req → Nat → State → State} {r : Req} {s : State}

theorem enter_of_not_taken (h : s.isReady = false ∨ (s.pair r.pair).bound = false ∨ 96 ≤ r.pair) : enter c cmd r s = s := by
  refine if_pos ?_
  rcases h with h | h | h
  · simp [h]
  · simp [h]
  · simp [h]

/-- A ready module takes what comes on a bound pair. -/
theorem enter_taken (h : Taken r s) : enter c cmd r s =
    if r.hdr.seq ≠ (s.pair r.pair).expSeq then
      (post { s with nextId := s.nextId + 1 } r.pair
        { mkRecord s r.hdr.seq (bit r.hdr.flags.toNat 0) (s.pair r.pair).part .sequence (s.pair r.pair).expSeq s.nextId with
          dest := if 64 ≤ r.pair then some (r.src, r.tag) else none }).countGlobal c (s.pair r.pair).part .sequence
    else if bit r.hdr.flags.toNat 1 && !earlierDone (counted r s) r.pair s.nextId then
      (counted r s).modPair r.pair fun p => { p with fenced := p.fenced ++ [(s.nextId, c, r)] }
    else cmd r s.nextId (counted r s) := by
  obtain ⟨-, hready, hpair, hb, -⟩ := h
  exact if_neg (by simp [hready, hb]; omega)

theorem enter_out_of_sequence (h : Taken r s) (hseq : r.hdr.seq ≠ (s.pair r.pair).expSeq) : enter c cmd r s =
    (post { s with nextId := s.nextId + 1 } r.pair
      { mkRecord s r.hdr.seq (bit r.hdr.flags.toNat 0) (s.pair r.pair).part .sequence (s.pair r.pair).expSeq s.nextId with
        dest := if 64 ≤ r.pair then some (r.src, r.tag) else none }).countGlobal c (s.pair r.pair).part .sequence :=
  (enter_taken h).trans (if_pos hseq)

theorem enter_fenced (h : Taken r s) (hseq : r.hdr.seq = (s.pair r.pair).expSeq) (hf : bit r.hdr.flags.toNat 1 = true)
    (he : earlierDone s r.pair s.nextId = false) :
    enter c cmd r s = (counted r s).modPair r.pair fun p => { p with fenced := p.fenced ++ [(s.nextId, c, r)] } := by
  have hb := h.2.2.2.1
  rw [enter_taken h, if_neg (not_not.2 hseq), if_pos (by simp [hf, earlierDone_counted hb, he])]

theorem fenced_counted (h : Taken r s) :
    ((counted r s).modPair r.pair fun p => { p with fenced := p.fenced ++ [(s.nextId, c, r)] }) = { s with
      nextId := s.nextId + 1
      pairs := s.pairs.set r.pair { s.pair r.pair with
        expSeq := (s.pair r.pair).expSeq + 1
        fenced := (s.pair r.pair).fenced ++ [(s.nextId, c, r)] } } := by
  have hb := h.2.2.2.1
  rw [State.modPair, counted_pair hb]
  simp only [counted, List.set_set]

end

/-- Settles O20: what every row does with a command before its checks. -/
theorem commandsTaken : Obligations.CommandsTaken := by
  unfold Obligations.CommandsTaken
  intro i c r s hi hup
  obtain ⟨cmd, hexec, -⟩ := exec_command hi
  simp only [hexec, live_next hup]
  refine ⟨fun h => ?_, fun h hseq => ?_, fun h hseq hf he => ?_⟩
  · rw [enter_of_not_taken h]
  · rw [enter_out_of_sequence h hseq]
  · rw [enter_fenced h hseq hf he, fenced_counted h]

/-! ### The checks -/

section
variable {c : Code} {r : Req} {s : State} {n : Need}

theorem firstFail_denied (h : permitted s c r = false) : firstFail s c r n = some (.denied, 0) := by simp [firstFail, h]

theorem firstFail_invalid (hp : permitted s c r = true) (h : headerForm s c r = false ∨ n.form = false) :
    firstFail s c r n = some (.invalid, 0) := by
  rcases h with h | h
  · simp [firstFail, hp, h]
  · simp [firstFail, hp, h]

section
variable (hp : permitted s c r = true) (hh : headerForm s c r = true) (hf : n.form = true)
include hp hh hf

theorem firstFail_digest {p : Nat} (h : digestOk s r = false) (hpart : (s.pair r.pair).part = some p) :
    firstFail s c r n = some (.digestMismatch, (s.part p).digest.toNat % 2 ^ 32) := by
  simp only [firstFail, hp, hh, hf, h, hpart]
  rfl

theorem firstFail_own (h : digestOk s r = true) : firstFail s c r n =
    if !n.state then some (.wrongState, n.stateDetail)
    else if !n.found then some (.notFound, 0)
    else n.room.map fun st => (st, n.detail) := by
  simp only [firstFail, hp, hh, hf, h]
  rfl

end

variable {t : Nat} {part : Option Nat} {eff : Nat → State → State} (hnew : s.cmd? t = none)
include hnew

theorem runCmd_of_fail {st : Status} {d : Nat} (h : firstFail s c r n = some (st, d)) :
    runCmd c part n eff r t s = finishPlain { s with cmds := s.cmds ++ [mkCmd c part r t] } t st d := by
  simp [runCmd, hnew, h]

theorem runCmd_of_pass (h : firstFail s c r n = none) : runCmd c part n eff r t s =
    if startsAfterSwitch c && switchPending s part t then { s with cmds := s.cmds ++ [mkCmd c part r t] }
    else eff t { s with cmds := s.cmds ++ [mkCmd c part r t] } := by
  simp [runCmd, hnew, h]

end

/-- The first failing check of a command in its turn ends it, whichever row it came by. -/
theorem exec_fails {i : Instr} {c : Code} {r : Req} {s : State} {st : Status} {d : Nat} (hi : commandOf i = some (c, r))
    (h : InTurn r s) (hfail : ∀ n, firstFail s c r n = some (st, d)) :
    exec i s = .next (finishPlain (came c r s) s.nextId st d) := by
  obtain ⟨cmd, hexec, hruns⟩ := exec_command hi
  obtain ⟨n, eff, hcmd⟩ := hruns r s.nextId (counted r s)
  have hb := h.1.2.2.2.1
  rw [hexec, live_next h.1.1, enter_inTurn h, hcmd, runCmd_fails h (commandPart_counted hb) (hfail n) (firstFail_counted hb)]

/-- Settles O21: the checks one after the other. -/
theorem checksInOrder : Obligations.ChecksInOrder := by
  unfold Obligations.ChecksInOrder
  refine ⟨fun i c r s hi h => ⟨fun hp => ?_, fun hp hh => ?_⟩, fun c part n eff r t s hnew => ?_⟩
  · exact exec_fails hi h fun n => firstFail_denied hp
  · exact exec_fails hi h fun n => firstFail_invalid hp (.inl hh)
  refine ⟨fun hp => runCmd_of_fail hnew (firstFail_denied hp), fun hp =>
    ⟨fun hform => runCmd_of_fail hnew (firstFail_invalid hp hform), fun hh hf =>
    ⟨fun p hd hpart => runCmd_of_fail hnew (firstFail_digest hp hh hf hd hpart), fun hd => ?_⟩⟩⟩
  have hown := firstFail_own (n := n) hp hh hf hd
  refine ⟨fun hs => ?_, fun hs hn => ?_, fun hs hn => ⟨fun st hr => ?_, fun hr => ?_⟩⟩
  · exact runCmd_of_fail hnew (by simp [hown, hs])
  · exact runCmd_of_fail hnew (by simp [hown, hs, hn])
  · exact runCmd_of_fail hnew (by simp [hown, hs, hn, hr])
  · exact runCmd_of_pass hnew (by simp [hown, hs, hn, hr])

end Sys2Proof.Laws
end

section
/-! SUPPORT. Final records and result payloads (02 R40, R44, R47, R50): the forms of a final record, and where a result payload
lies. The section settles O22. -/

namespace Sys2Proof.Laws

open Sys2Proof Sys2Proof.Machine

/-! ### Final records -/

section
variable {s : State} {t : Nat} {st : Status} {d : W32} {c : Cmd} (hc : s.cmd? t = some c)
include hc

theorem finish_on_host (hp : c.pair < 64) : finish s t st d none =
    (post s c.pair { mkRecord s c.seq c.irq c.part st (c.detail st d) t with context := c.ctx }).endCmd c st := by
  simp only [finish, hc, Nat.not_le.2 hp, if_false]
  rfl

theorem finish_on_peer (hp : 64 ≤ c.pair) : finish s t st d none =
    (post s c.pair { mkRecord s c.seq c.irq c.part st (c.detail st d) t with
      context := c.ctx, dest := some (c.src, c.tag) }).endCmd c st := by
  simp only [finish, hc, hp, if_true]

theorem finish_replies (hp : 64 ≤ c.pair) (bs : List Byte) : finish s t st d (some bs) =
    (post (s.replied c bs) c.pair { mkRecord s c.seq c.irq c.part st (c.detail st d) t with
      context := c.ctx, dest := some (c.src, c.tag), data := bs, resLength := bs.length }).endCmd c st := by
  simp only [finish, hc, hp, if_true]

variable {bs : List Byte} (hp : c.pair < 64)
include hp

theorem finish_over_region (h : resBytes (s.pair c.pair) < bs.length) : finish s t st d (some bs) =
    (post s c.pair { mkRecord s c.seq c.irq c.part .noSpace (c.detail .noSpace 0) t with context := c.ctx }).endCmd c .noSpace := by
  simp only [finish, hc, Nat.not_le.2 hp, h, if_false, if_true]
  rfl

theorem finish_waits (hfit : bs.length ≤ resBytes (s.pair c.pair)) (ha : allocResult s c.pair bs.length true = none) :
    finish s t st d (some bs) = s.modCmd t fun c => { c with roomWait := some (st, d, bs) } := by
  simp only [finish, hc, ha, Nat.not_le.2 hp, Nat.not_lt.2 hfit, if_false]

end

/-! ### The place of a payload -/

/-- The least of a list is one of it. -/
theorem foldl_least_mem {l : List Nat} {b : Option Nat} {x : Nat}
    (h : l.foldl (fun b a => match b with
      | none => some a
      | some m => some (min m a)) b = some x) : x ∈ l ∨ b = some x := by
  induction l generalizing b with
  | nil => exact .inr h
  | cons a l ih =>
    rcases ih h with hx | hx
    · exact .inl (List.mem_cons_of_mem _ hx)
    · cases b with
      | none => exact .inl (by cases hx; exact List.mem_cons_self)
      | some m =>
        cases hx
        rcases Nat.le_total m a with hm | hm
        · exact .inr (by rw [Nat.min_eq_left hm])
        · exact .inl (by rw [Nat.min_eq_right hm]; exact List.mem_cons_self)

/-- A place chosen among ranges is aligned, below the limit and clear of each of them. -/
theorem lowestFree_free {align limit len x : Nat} {used : List (Nat × Nat)} (h : lowestFree align used limit len = some x) :
    x % align = 0 ∧ x + len ≤ limit ∧ ∀ u ∈ used, rangesMeet (x, len) u = false := by
  rcases foldl_least_mem h with hx | hx
  · obtain ⟨hmem, hok⟩ := List.mem_filter.1 hx
    simp only [Bool.and_eq_true, decide_eq_true_eq, List.all_eq_true, Bool.not_eq_true'] at hok
    refine ⟨?_, hok.1, hok.2⟩
    rcases List.mem_cons.1 hmem with rfl | hmem
    · exact Nat.zero_mod _
    · obtain ⟨u, -, rfl⟩ := List.mem_map.1 hmem
      exact Nat.mul_mod_left _ _
  · cases hx

/-- A search upwards that finds nothing has found every place taken. -/
theorem firstFrom_none {p : Nat → Bool} {fuel i : Nat} (h : firstFrom p fuel i 1 = none) : ∀ j < fuel, p (i + j) = false := by
  induction fuel generalizing i with
  | zero => exact fun j hj => absurd hj (Nat.not_lt_zero j)
  | succ fuel ih =>
    rw [firstFrom] at h
    split at h
    next => cases h
    next hi =>
      intro j hj
      cases j with
      | zero => simpa using hi
      | succ j => exact (by omega : i + 1 + j = i + (j + 1)) ▸ ih h j (Nat.lt_of_succ_lt_succ hj)

theorem firstFrom_below {p : Nat → Bool} {fuel i n : Nat} (h : firstFrom p fuel i 1 = some n) : n < i + fuel := by
  induction fuel generalizing i with
  | zero => cases h
  | succ fuel ih =>
    rw [firstFrom] at h
    split at h
    next =>
      cases h
      omega
    next =>
      have := ih h
      omega

/-- Some number up to the length of a list is not in it. -/
theorem exists_not_mem_of_length (l : List Nat) : ∃ j < l.length + 1, j ∉ l := by
  by_contra hall
  have hsub : List.range (l.length + 1) ⊆ l := fun j hj => by
    by_contra hj'
    exact hall ⟨j, List.mem_range.1 hj, hj'⟩
  have := (List.nodup_range.subperm hsub).length_le
  simp at this

/-- The chosen allocation index is free, and no larger than the number of live payloads. -/
theorem freeHandleIdx_free (live : List Nat) : freeHandleIdx live ∉ live ∧ freeHandleIdx live ≤ live.length := by
  cases hf : firstFrom (fun i => !live.contains i) (live.length + 1) 0 1 with
  | none =>
    obtain ⟨j, hj, hnot⟩ := exists_not_mem_of_length live
    have := firstFrom_none hf j hj
    simp [hnot] at this
  | some n =>
    have hn : freeHandleIdx live = n := by rw [freeHandleIdx, hf, Option.getD_some]
    have hfree := firstFrom_holds hf
    have hlt := firstFrom_below hf
    rw [hn]
    exact ⟨by simpa using hfree, by omega⟩

/-- The low half of a handle is its allocation index. -/
theorem handle_idx {gen idx : Nat} (h : idx < 65536) : (w32 (gen % 65536 * 65536 + idx)).toNat % 65536 = idx := by
  simp only [w32, BitVec.toNat_ofNat]
  omega

/-- A payload is allocated where its pair's results leave room, with a handle of a free index. -/
theorem allocResult_some {s s1 : State} {i len off : Nat} {final : Bool} {h : W32}
    (ha : allocResult s i len final = some (h, off, s1)) :
    lowestFree 64 ((s.pair i).results.map fun x => (x.off, x.len)) (resBytes (s.pair i)) (max len 1) = some off ∧
    (∃ gen, h = w32 (gen % 65536 * 65536 + freeHandleIdx ((s.pair i).results.map fun x => x.handle.toNat % 65536))) ∧
    ∃ gens, s1 = s.modPair i fun p => { p with results := p.results ++ [⟨h, off, max len 1, final⟩], gens } := by
  unfold allocResult at ha
  dsimp only at ha
  split at ha
  next => cases ha
  next hoff =>
    cases ha
    exact ⟨hoff, ⟨_, rfl⟩, _, rfl⟩

/-- Settles O22: the forms of a final record, and the place and handle of a payload. -/
theorem finalRecords : Obligations.FinalRecords := by
  unfold Obligations.FinalRecords
  refine ⟨fun s t st d c hc => ⟨finish_on_host hc, fun hp => ⟨finish_on_peer hc hp, finish_replies hc hp⟩, fun bs hp =>
    ⟨finish_over_region hc hp, fun hfit => ⟨fun h off s1 ha => finish_in_region hc hp hfit ha, finish_waits hc hp hfit⟩⟩⟩,
    fun s s1 i len off final h ha => ?_⟩
  obtain ⟨hoff, ⟨gen, hh⟩, gens, hs1⟩ := allocResult_some ha
  obtain ⟨halign, hlimit, hclear⟩ := lowestFree_free hoff
  refine ⟨halign, by omega, fun x hx => ?_, fun hfew x hx hsame => ?_, gens, hs1⟩
  · have hx' := hclear _ (List.mem_map.2 ⟨x, hx, rfl⟩)
    simp only [rangesMeet, Bool.and_eq_false_iff, decide_eq_false_iff_not] at hx'
    omega
  · obtain ⟨hfree, hle⟩ := freeHandleIdx_free ((s.pair i).results.map fun x => x.handle.toNat % 65536)
    refine hfree (List.mem_map.2 ⟨x, hx, ?_⟩)
    rw [hsame, hh]
    exact handle_idx (by rw [List.length_map] at hle; omega)

end Sys2Proof.Laws
end

section
/-! SUPPORT. The mailbox class and the queries (02 R48, R49, R57; 13 R363, R364; 15 R411, R412). The section settles O23. -/

namespace Sys2Proof.Laws

open Sys2Proof Sys2Proof.Machine

section
variable {c : Code} {r : Req} {s : State} (hb : (s.pair r.pair).bound = true)
include hb

theorem pair_came : (came c r s).pair r.pair = { s.pair r.pair with expSeq := (s.pair r.pair).expSeq + 1 } := counted_pair hb

theorem pairUsable_counted : pairUsable (counted r s) r = pairUsable s r := by
  unfold pairUsable
  rw [pairPState_counted hb]

theorem results_counted : ((counted r s).pair r.pair).results = (s.pair r.pair).results := by rw [counted_pair hb]

/-- A change of the pair a command came on, after the command was counted. -/
theorem modPair_came (f : Pair → Pair) : (came c r s).modPair r.pair f = { came c r s with
    pairs := s.pairs.set r.pair (f { s.pair r.pair with expSeq := (s.pair r.pair).expSeq + 1 }) } := by
  rw [State.modPair, pair_came hb]
  simp only [came, List.set_set]

end

section
variable {r : Req} {s : State}

theorem exec_nop (h : Accepted .nop r s) (hpay : r.pay = []) (hstate : pairUsable s r = true) :
    exec (.nop r) s = .next (finishPlain (came .nop r s) s.nextId .ok 0) := by
  have hb := bound_of_accepted h
  exact (live_enter_accepted h cmdNop).trans (congrArg _ (runCmd_accepted h (pairPart_counted hb)
    (by simp [hpay]) ((pairUsable_counted hb).trans hstate) rfl rfl))

section
variable (h : Accepted .resultRelease r s) (hform : releaseForm r = true) (hstate : pairUsable s r = true)
  (hnone : noneUnfinished (releaseHandles r) (s.pair r.pair).results = true)
include h hform hstate hnone

theorem exec_resultRelease_all (hlive : allLive (releaseHandles r) (s.pair r.pair).results = true) :
    exec (.resultRelease r) s = .next (finishPlain
      { came .resultRelease r s with pairs := s.pairs.set r.pair { s.pair r.pair with
          expSeq := (s.pair r.pair).expSeq + 1
          results := (s.pair r.pair).results.filter fun x => !(releaseHandles r).contains x.handle } }
      s.nextId .ok (releaseHandles r).length) := by
  have hb := bound_of_accepted h
  refine (live_enter_accepted h cmdResultRelease).trans (congrArg _ ?_)
  unfold cmdResultRelease
  refine (runCmd_accepted h (pairPart_counted hb) hform ?_ ?_ rfl).trans ?_
  · simp only [pairUsable_counted hb, results_counted hb, hstate, hnone, Bool.and_true]
  · simp only [results_counted hb, hlive]
  · simp only [modPair_came hb]

theorem exec_resultRelease_unnamed (hlive : allLive (releaseHandles r) (s.pair r.pair).results = false) :
    exec (.resultRelease r) s = .next (finishPlain (came .resultRelease r s) s.nextId .notFound 0) := by
  have hb := bound_of_accepted h
  refine (live_enter_accepted h cmdResultRelease).trans (congrArg _ ?_)
  unfold cmdResultRelease
  obtain ⟨hturn, hperm, hhead, hdig, -⟩ := h
  refine runCmd_fails hturn (pairPart_counted hb) ?_ (firstFail_counted hb)
  rw [firstFail_own hperm hhead hform hdig]
  simp only [pairUsable_counted hb, results_counted hb, hstate, hnone, hlive]
  rfl

end

theorem exec_moduleQuery (h : Accepted .moduleQuery r s) (hpay : r.pay = []) : exec (.moduleQuery r) s = .next
    (finish (came .moduleQuery r s) s.nextId .ok (w32 (activeStands s)) (some (moduleQueryBytes s))) :=
  (live_enter_accepted h cmdModuleQuery).trans (congrArg _ (runCmd_accepted h rfl (by simp [hpay]) rfl rfl rfl))

theorem exec_healthRead (h : Accepted .healthRead r s) (hlen : 8 ≤ r.pay.length) (hrsv : zeroAt r.pay 1 7 = true)
    (hscope : fld r.pay 0 1 < 32 ∨ fld r.pay 0 1 = 0xFF) : exec (.healthRead r) s = .next
      (finish { came .healthRead r s with cut := { s.cut with peakHr := 0 } } s.nextId .ok 0
        (some (healthBytes s (fld r.pay 0 1)))) := by
  refine (live_enter_accepted h cmdHealthRead).trans (congrArg _ ?_)
  unfold cmdHealthRead
  refine runCmd_accepted h rfl ?_ rfl rfl rfl
  rcases hscope with hs | hs
  · simp [has, hlen, hrsv, hs]
  · simp [has, hlen, hrsv, hs]

theorem reqPart_came {c : Code} (hb : (s.pair r.pair).bound = true) : reqPart (came c r s) r = reqPart s r :=
  reqPart_counted hb

theorem exec_partitionStatus (h : Accepted .partitionStatus r s) (hpay : r.pay = []) (hbound : (reqPart s r).state ≠ .unbound) :
    exec (.partitionStatus r) s = .next (finish (came .partitionStatus r s) s.nextId .ok ((reqPart s r).digest.setWidth 32)
      (some (statusBytes s (reqPid s r)))) := by
  have hb := bound_of_accepted h
  refine (live_enter_accepted h cmdPartitionStatus).trans (congrArg _ ?_)
  refine (runCmd_accepted h (pairPart_counted hb) (by simp [hpay]) ?_ rfl rfl).trans ?_
  · simp only [reqPart_counted hb, bne_iff_ne]
    exact hbound
  · simp only [reqPart_came hb, reqPid_came hb]
    rfl

theorem exec_digestRead (h : Accepted .digestRead r s) (hpay : r.pay = []) (hbound : (reqPart s r).state ≠ .unbound) :
    exec (.digestRead r) s = .next (finish (came .digestRead r s) s.nextId .ok ((reqPart s r).digest.setWidth 32)
      (some (leBytes 8 (reqPart s r).digest.toNat))) := by
  have hb := bound_of_accepted h
  refine (live_enter_accepted h cmdDigestRead).trans (congrArg _ ?_)
  refine (runCmd_accepted h (pairPart_counted hb) (by simp [hpay]) ?_ rfl rfl).trans ?_
  · simp only [reqPart_counted hb, bne_iff_ne]
    exact hbound
  · simp only [reqPart_came hb]
    rfl

end

/-- Settles O23: each command by the lemma of its accepted form. -/
theorem mailboxAndQueries : Obligations.MailboxAndQueries := by
  unfold Obligations.MailboxAndQueries
  exact ⟨fun r s => ⟨exec_nop, fun h hform hstate hnone =>
      ⟨exec_resultRelease_all h hform hstate hnone, exec_resultRelease_unnamed h hform hstate hnone⟩⟩,
    fun r s => ⟨exec_moduleQuery, exec_healthRead, exec_partitionStatus, exec_digestRead⟩⟩

end Sys2Proof.Laws
end

section
/-! SUPPORT. Accesses of the host's windows and their relay (02 R31 to R34; 14 R387 to R393): what the endpoint sees, where an
access goes, and what a lost one leaves. The section settles O47. -/

namespace Sys2Proof.Laws

open Sys2Proof Sys2Proof.Machine

section
variable {s : State} (hup : s.power.railTripped = false)
include hup

theorem exec_hostWindowWrite (fn bar off : Nat) (d : List Byte) :
    exec (.hostWindowWrite fn bar off d) s = .next (windowWrite fn bar off d s) := live_next hup

theorem exec_hostWindowRead (fn bar off n : Nat) : exec (.hostWindowRead fn bar off n) s = .next (windowRead fn bar off n s) :=
  live_next hup

theorem exec_relayReadTimeout (tag : Nat) : exec (.relayReadTimeout tag) s = .next (relayTimeout tag s) := live_next hup

end

/-! ### Accesses the endpoint sees -/

section
variable {s : State} {fn bar off : Nat} {d : List Byte}

theorem windowWrite_unseen (h : accessOk s fn bar off d.length = false) : windowWrite fn bar off d s = s := by
  simp [windowWrite, h]

theorem windowWrite_unsupported (h : accessOk s fn bar off d.length = true) (hrate : relays s = false) :
    windowWrite fn bar off d s = setAer s fn aerUnsupported := by
  simp [windowWrite, h, hrate]

section
variable (h : accessOk s fn bar off d.length = true) (hrate : relays s = true)
include h hrate

theorem windowWrite_region {e : Slot} {o : Nat} (hplace : windowPlace s fn bar off = .region e o) :
    windowWrite fn bar off d s = relayWrite s e false o d := by
  simp [windowWrite, h, hrate, hplace]

theorem windowWrite_slotPage {e : Slot} {o : Nat} (hplace : windowPlace s fn bar off = .slotPage e o) :
    windowWrite fn bar off d s = relayWrite s e true o d := by
  simp [windowWrite, h, hrate, hplace]

end

theorem windowWrite_nothing (hrate : relays s = true) (hplace : windowPlace s fn bar off = .nothing) :
    windowWrite fn bar off d s = s := by
  simp [windowWrite, hrate, hplace]

end

section
variable {s : State} {fn bar off n : Nat}

theorem windowRead_unseen (h : accessOk s fn bar off n = false) : windowRead fn bar off n s = s := by
  simp [windowRead, h]

variable (h : accessOk s fn bar off n = true)
include h

theorem windowRead_unsupported (hrate : relays s = false) :
    windowRead fn bar off n s = readDone (setAer s fn aerUnsupported) fn (freeRelayTag s) [] := by
  simp [windowRead, h, hrate]

theorem windowRead_region {e : Slot} {o : Nat} (hrate : relays s = true) (hplace : windowPlace s fn bar off = .region e o) :
    windowRead fn bar off n s = relayRead s e false o n (freeRelayTag s) := by
  simp [windowRead, h, hrate, hplace]

theorem windowRead_nothing (hrate : relays s = true) (hplace : windowPlace s fn bar off = .nothing) :
    windowRead fn bar off n s = readDone s fn (freeRelayTag s) (List.replicate n 0) := by
  simp [windowRead, h, hrate, hplace]

/-- An access has a byte and stays in its page. -/
theorem accessOk_size : 1 ≤ n ∧ n ≤ 4096 := by
  simp only [accessOk, Bool.and_eq_true, decide_eq_true_eq] at h
  omega

end

/-! ### The relay -/

/-- What one access may carry goes in one frame. -/
theorem framePieces_of_access {d : List Byte} (h1 : 1 ≤ d.length) (h2 : d.length ≤ 4096) : framePieces d = [(0, d)] := by
  have hc : chunks frameRoom 0 d.length = [(0, d.length)] := by
    have hk : min d.length (frameRoom - 0 % frameRoom) = d.length := by
      simp only [frameRoom]
      omega
    have hz : chunksAux frameRoom (d.length / frameRoom + 1) (0 + d.length) 0 = [] := rfl
    rw [chunks, chunksAux, if_neg (by omega)]
    dsimp only
    rw [hk, Nat.sub_self, hz]
  simp [framePieces, hc]

section
variable {s : State} {e : Slot} {o : Nat} {d : List Byte}

theorem relayWrite_own (hm : w16 e.module = s.myId) (hp : e.pair < 64) (hb : (s.pair e.pair).bound = true) :
    relayWrite s e false o d = { s with landing := regionWrite s.landing (s.pair e.pair).segs o d } := by
  simp [relayWrite, hm, regionOpen, hp, hb]

theorem relayWrite_ownPage (hm : w16 e.module = s.myId) : relayWrite s e true o d = slotWriteBytes e.pair o d s := by
  simp [relayWrite, hm]

theorem relayRead_own {n tag : Nat} (hm : w16 e.module = s.myId) (hp : e.pair < 64) (hb : (s.pair e.pair).bound = true) :
    relayRead s e false o n tag = readDone s e.fn tag (regionRead s.landing (s.pair e.pair).segs o n) := by
  simp [relayRead, hm, regionOpen, hp, hb]

/-- A module out of reach has no route. -/
theorem linkCount_of_unreached {m : W16} (h : reachable s m = false) : linkCount s m = none := by
  simp only [reachable, Bool.or_eq_false_iff] at h
  exact Option.not_isSome_iff_eq_none.1 (by simp [h.2])

/-- A frame to a module with no route is counted and lost (14 R379). -/
theorem sendFrame_unreached {m : W16} (h : reachable s m = false) {f : Frame} (hf : f.dest = m) (q : Nat) :
    sendFrame s q f = bump s .linkUnroutable 0 0 1 := by
  simp [sendFrame, hf, linkCount_of_unreached h]

variable (hm : w16 e.module ≠ s.myId)
include hm

theorem relayWrite_other (h1 : 1 ≤ d.length) (h2 : d.length ≤ 4096) : relayWrite s e false o d =
    let s1 := sendFrame s 3 (mkFrame .mboxWrite (w16 e.module) 0xFF 0xFF (relayAddr e.pair false o) (w32 d.length)
      (writeTag e.fn) d)
    if reachable s (w16 e.module) then s1 else setUnreach s1 e.fn := by
  simp [relayWrite, hm, framePieces_of_access h1 h2]

theorem relayRead_reached {n tag : Nat} (h : reachable s (w16 e.module) = true) : relayRead s e false o n tag =
    sendFrame { s with bridge := { s.bridge with
        relays := s.bridge.relays ++ [{ tag, fn := e.fn, module := e.module, len := n, sent := s.now }] } }
      3 (mkFrame .mboxRead (w16 e.module) 0xFF 0xFF (relayAddr e.pair false o) (w32 n) (w16 tag) []) := by
  simp [relayRead, hm, h]

theorem relayRead_unreached {n tag : Nat} (h : reachable s (w16 e.module) = false) : relayRead s e false o n tag =
    readUnreach (bump s .linkUnroutable 0 0 1) e.fn tag n := by
  simp only [relayRead, hm, h, if_false, Bool.false_eq_true]
  rw [sendFrame_unreached h rfl]

theorem relayWrite_unreached (h1 : 1 ≤ d.length) (h2 : d.length ≤ 4096) (h : reachable s (w16 e.module) = false) :
    relayWrite s e false o d = setUnreach (bump s .linkUnroutable 0 0 1) e.fn := by
  rw [relayWrite_other hm h1 h2]
  simp only [h, if_false, Bool.false_eq_true]
  rw [sendFrame_unreached h rfl]

end

/-! ### Reads without an answer -/

/-- UNREACH of a function and its completer abort (02 R34; 14 R395). -/
theorem setUnreach_eq (s : State) (fn : Nat) : setUnreach s fn = { s with bridge := { s.bridge with
    winErr := if fn ∈ s.bridge.winErr then s.bridge.winErr else s.bridge.winErr ++ [fn]
    aer := setKey s.bridge.aer fn (lookupD s.bridge.aer fn 0 ||| BitVec.ofNat 32 (2 ^ 15)) } } := by
  simp [setUnreach, setAer, aerAbort, w32]

theorem bump_one (s : State) (c : Ctr) :
    bump s c 0 0 1 = { s with ctr := setKey s.ctr ⟨c, 0, 0⟩ (lookupD s.ctr ⟨c, 0, 0⟩ 0 + 1) } := rfl

section
variable {s : State} {tag : Nat} {r : Relay} (hr : s.bridge.relays.find? (fun r => r.tag == tag) = some r)
include hr

theorem relayTimeout_early (h : r.dead = true ∨ s.now < r.sent + relayBound) : relayTimeout tag s = s := by
  rcases h with h | h
  · simp [relayTimeout, hr, h]
  · simp [relayTimeout, hr, Nat.not_le.2 h]

theorem relayTimeout_due (hd : r.dead = false) (h : r.sent + relayBound ≤ s.now) : relayTimeout tag s =
    bump (readUnreach (endRelays s fun x => x.tag == tag) r.fn tag r.len) .bridgeRelayTimeout 0 0 1 := by
  simp [relayTimeout, hr, hd, h]

end

/-- Settles O47: what the endpoint sees, then the place of the access, then whose region it is. -/
theorem hostAccesses : Obligations.HostAccesses := by
  unfold Obligations.HostAccesses
  intro fn bar off e o s hup aer errs
  simp only [exec_hostWindowWrite hup, exec_hostWindowRead hup, exec_relayReadTimeout hup, Host.Outcome.next.injEq]
  refine ⟨fun d => windowWrite_unseen, fun n => windowRead_unseen,
    fun hrate => ⟨fun d h => windowWrite_unsupported h hrate, fun n h => windowRead_unsupported h hrate⟩,
    fun hrate hplace => ⟨fun hm hp hb => ⟨fun d h => ?_, fun n h => ?_⟩, fun hm hreach => ⟨fun d h => ?_, fun n h => ?_⟩,
      fun hm hreach => ⟨fun d h => ?_, fun n h => ?_⟩⟩,
    fun hrate hplace hm d h => (windowWrite_slotPage h hrate hplace).trans (relayWrite_ownPage hm),
    fun hrate hplace => ⟨fun d => windowWrite_nothing hrate hplace, fun n h => windowRead_nothing h hrate hplace⟩,
    fun tag r hr => ⟨relayTimeout_early hr, fun hd hdue => ?_⟩⟩
  · exact (windowWrite_region h hrate hplace).trans (relayWrite_own hm hp hb)
  · exact (windowRead_region h hrate hplace).trans (relayRead_own hm hp hb)
  · obtain ⟨h1, h2⟩ := accessOk_size h
    rw [windowWrite_region h hrate hplace, relayWrite_other hm h1 h2]
    exact if_pos hreach
  · exact (windowRead_region h hrate hplace).trans (relayRead_reached hm hreach)
  · obtain ⟨h1, h2⟩ := accessOk_size h
    rw [windowWrite_region h hrate hplace, relayWrite_unreached hm h1 h2 hreach, setUnreach_eq, bump_one]
  · rw [windowRead_region h hrate hplace, relayRead_unreached hm hreach, readUnreach, setUnreach_eq, bump_one]
    rfl
  · rw [relayTimeout_due hr hd hdue, bump_one, readUnreach, setUnreach_eq]
    simp only [endRelays, readDone, beq_iff_eq]
    rfl

end Sys2Proof.Laws
end

section
/-! SUPPORT. Events of the memories: Landing errors and zeroed segments (05 R124, R129; 15 R416, R424), the patrol scrub (05 R141,
R142), retired channels (05 R148, R149; 15 R419) and the counts of the row cache (08 R230). The section settles O45. -/

namespace Sys2Proof.Laws

open Sys2Proof Sys2Proof.Machine

section
variable {s : State} (hup : s.power.railTripped = false)
include hup

theorem exec_landingUe (g t : Nat) (b : Bool) : exec (.landingUe g t b) s = .next (landingUe g t b s) := live_next hup

theorem exec_segmentZeroed (g : Nat) : exec (.segmentZeroed g) s = .next (zeroedActs g s) := live_next hup

theorem exec_patrolScrub (page : Nat) (found : ScrubResult) :
    exec (.patrolScrub page found) s = .next (patrolScrub page found s) := live_next hup

theorem exec_channelRetire (c : Nat) (dead : Bool) : exec (.channelRetire c dead) s = .next (channelRetire c dead s) :=
  live_next hup

theorem exec_channelCopyComplete (c : Nat) : exec (.channelCopyComplete c) s = .next (channelCopied c s) := live_next hup

theorem exec_cacheCountHalve (i : Nat) : exec (.cacheCountHalve i) s = .next (cacheHalve i s) := live_next hup

end

/-! ### Landing errors -/

/-- A double-bit error counted and dated (15 R416). -/
def errorDated (s : State) (g : Nat) : State :=
  { s with
    ctr := setKey s.ctr ⟨.landingUe, 0, 0⟩ (lookupD s.ctr ⟨.landingUe, 0, 0⟩ 0 + 1)
    segErrs := (s.segErrs.filter fun e => decide (s.now < e.2 + dayCounts)) ++ [(g, s.now)] }

/-- The segment had an error in the last 24 h. -/
def erredBefore (s : State) (g : Nat) : Bool := s.segErrs.any fun e => e.1 == g && decide (s.now < e.2 + dayCounts)

section
variable {s : State} {g : Nat}

theorem landingUe_outside (h : 6144 ≤ g) (t : Nat) (b : Bool) : landingUe g t b s = s := if_pos h

theorem landingUe_eq (h : g < 6144) (t : Nat) (b : Bool) : landingUe g t b s =
    let s3 := match ctrlPart s g with
      | some i => enterFaulted (errorDated s g) i
      | none => errorDated s g
    accessFailed (if erredBefore s g then retireSegment s3 g else s3) t b := if_neg (Nat.not_le.2 h)

theorem landingUe_content (h : g < 6144) (hc : ctrlPart s g = none) (t : Nat) (b : Bool) : landingUe g t b s =
    accessFailed (if erredBefore s g = true then retireSegment (errorDated s g) g else errorDated s g) t b := by
  rw [landingUe_eq h, hc]

theorem landingUe_control (h : g < 6144) {i : Nat} (hc : ctrlPart s g = some i) (t : Nat) (b : Bool) : landingUe g t b s =
    accessFailed (if erredBefore s g = true then retireSegment (enterFaulted (errorDated s g) i) g
      else enterFaulted (errorDated s g) i) t b := by
  rw [landingUe_eq h, hc]

end

/-! ### Zeroed segments -/

/-- A pass over a list that changes nothing at any of its elements changes nothing. -/
theorem foldl_eq_self {α β : Type} {f : β → α → β} {l : List α} {b : β} (h : ∀ a ∈ l, f b a = b) :
    l.foldl f b = b := by
  induction l with
  | nil => rfl
  | cons a l ih =>
    rw [List.foldl_cons, h a List.mem_cons_self]
    exact ih fun x hx => h x (List.mem_cons_of_mem _ hx)

section
variable {s s' : State} {i : Nat}

theorem rebindDone_of_none (h : (s.part i).rebind = none) : rebindDone i s = s := by
  simp [rebindDone, rebindEnds, h]

theorem afterSwitch_of_none (h : (s.part i).rebind = none) : afterSwitch i s s' = s' := by simp [afterSwitch, h]

theorem segmentZeroed_of_none (g : Nat) (hc : s.cmds = []) (hr : ∀ i < 32, (s.part i).rebind = none) :
    segmentZeroed g s = { s with zeroing := s.zeroing.filter (· != g) } := by
  unfold segmentZeroed
  simp only [hc, List.filter_nil, List.foldl_nil]
  exact foldl_eq_self fun i hi => rebindDone_of_none (hr i (List.mem_range.1 hi))

theorem zeroedActs_of_none (g : Nat) (hc : s.cmds = []) (hr : ∀ i < 32, (s.part i).rebind = none) :
    zeroedActs g s = { s with zeroing := s.zeroing.filter (· != g) } := by
  rw [zeroedActs, segmentZeroed_of_none g hc hr]
  exact foldl_eq_self fun i hi => afterSwitch_of_none (hr i (List.mem_range.1 hi))

end

/-! ### The patrol scrub -/

section
variable {s : State} {page : Nat}

theorem patrolScrub_poisoned (found : ScrubResult) (h : page ∈ s.t1.poison) : patrolScrub page found s = s :=
  if_pos (by simp [h])

section
variable {i pg p g : Nat} (hhome : pageHome s page = some (i, pg))
  (hpage : t1Page (s.part i).frames (pg * pageBytes) = some (p, g)) (hwritten : s.t1.written p g = true)
  (hsound : page ∉ s.t1.poison)
include hhome hpage hwritten hsound

/-- A written page that is not poisoned is read. -/
theorem patrolScrub_read (found : ScrubResult) : patrolScrub page found s =
    match found with
    | .clean => s
    | .corrected n => { bump s .memCe 0 (s.t1.channelOf page) n with t1 := { s.t1 with
        correctedAt := (s.t1.correctedAt.filter fun e => decide (s.now < e.2.1 + hourCounts)) ++
          [(s.t1.channelOf page, s.now, n)] } }
    | .uncorrectable => pageLost (pageError s page) i pg := by
  unfold patrolScrub
  simp only [hhome, hpage, hwritten]
  rw [if_neg (by simp [hsound])]
  cases found with
  | clean => rfl
  | corrected n => simp only [bump_t1]
  | uncorrectable => rfl

end

theorem bump_of_pos (s : State) (c : Ctr) (p i n : Nat) (h : n ≠ 0) :
    bump s c p i n = { s with ctr := setKey s.ctr ⟨c, p, i⟩ (lookupD s.ctr ⟨c, p, i⟩ 0 + n) } := if_neg h

/-- An uncorrectable word poisons its page, and is counted and dated for the page's channel (05 R141; 15 R419). -/
theorem pageError_of_sound (h : page ∉ s.t1.poison) : pageError s page = { s with
    t1 := { s.t1 with
      poison := page :: s.t1.poison
      poisonAt := (s.t1.poisonAt.filter fun e => decide (s.now < e.2 + dayCounts)) ++ [(s.t1.channelOf page, s.now)] }
    ctr := setKey s.ctr ⟨.memUe, 0, s.t1.channelOf page⟩ (lookupD s.ctr ⟨.memUe, 0, s.t1.channelOf page⟩ 0 + 1) } := by
  have hc : s.t1.poison.contains page = false := by simp [h]
  simp only [pageError, poisonPage, hc, Bool.false_eq_true, if_false]
  rfl

end

/-! ### Channels -/

section
variable {s : State} {c : Nat}

theorem channelRetire_of_not {dead : Bool}
    (h : 128 ≤ c ∨ c ∈ s.t1.retired ∨ s.t1.copying.isSome = true ∨ (dead = false ∧ channelDue s c = false)) :
    channelRetire c dead s = s := by
  refine if_pos ?_
  rcases h with h | h | h | ⟨h, h'⟩
  · simp [h]
  · simp [h]
  · simp [h]
  · simp [h, h']

theorem channelRetire_of_due (hlt : c < 128) (hr : c ∉ s.t1.retired) (hc : s.t1.copying = none) (hd : channelDue s c = true)
    {l : List Nat} (hl : furtherReserve s = some l) :
    channelRetire c false s = { s with t1 := { s.t1 with copying := some c, reserve := s.t1.reserve ++ l } } := by
  unfold channelRetire
  rw [if_neg (by simp [hr, hc, hd, hlt]), hl]
  rfl

theorem channelCopied_of_copying (h : s.t1.copying = some c) : channelCopied c s = { s with
    t1 := { s.t1 with copying := none, retired := s.t1.retired ++ [c] }
    ident := { s.ident with events := s.ident.events ||| 2, degraded := true } } := if_pos h

theorem channelCopied_of_not (h : s.t1.copying ≠ some c) : channelCopied c s = s := if_neg h

end

/-! ### The row cache -/

section
variable {s : State} {i : Nat}

theorem cacheHalve_below (h : (s.part i).cache.fetches < 65536) : cacheHalve i s = s := if_pos h

theorem cacheHalve_due (h : 65536 ≤ (s.part i).cache.fetches) :
    cacheHalve i s = s.modPart i fun p => { p with cache := (s.part i).cache.halved } := if_neg (Nat.not_lt.2 h)

end

/-- Settles O45: each event by the lemmas of its forms. -/
theorem memoryEvents : Obligations.MemoryEvents := by
  unfold Obligations.MemoryEvents
  refine ⟨fun g t b s hup => ?_, fun s hup => ?_⟩
  · rw [exec_landingUe hup, exec_segmentZeroed hup]
    refine ⟨fun h => by rw [landingUe_outside h], fun h => ⟨fun hc => ?_, fun i hc => ?_⟩, fun hc hr => ?_⟩
    · rw [landingUe_content h hc]
      rfl
    · rw [landingUe_control h hc]
      rfl
    · rw [zeroedActs_of_none g hc hr]
  · simp only [exec_patrolScrub hup, exec_channelRetire hup, exec_channelCopyComplete hup, exec_cacheCountHalve hup,
      Host.Outcome.next.injEq]
    refine ⟨fun page i pg p g hhome hpage hw hs => ⟨?_, fun n hn => ?_, ?_⟩, fun page found => patrolScrub_poisoned found,
      fun c dead => channelRetire_of_not, fun c hlt hr hc hd l hl => channelRetire_of_due hlt hr hc hd hl,
      fun c => channelCopied_of_copying, fun c => channelCopied_of_not, fun i => ⟨cacheHalve_below, cacheHalve_due⟩⟩
    · exact patrolScrub_read hhome hpage hw hs .clean
    · refine (patrolScrub_read hhome hpage hw hs (.corrected n)).trans ?_
      simp only [bump_of_pos _ _ _ _ _ hn]
    · refine (patrolScrub_read hhome hpage hw hs .uncorrectable).trans ?_
      simp only [pageError_of_sound hs]

end Sys2Proof.Laws
end

section
/-! SUPPORT. PEER_FETCH and PEER_UPDATE (05 R156; 06 R161; 08 R231, R235): what a fetch answers, and contributions taken. The
section settles O36. -/

namespace Sys2Proof.Laws

open Sys2Proof Sys2Proof.Machine

section
variable {c : Code} {r : Req} {s : State}

/-! ### Reads of the partition's store that a command's arrival leaves alone -/

theorem findStore_counted (i id : Nat) : findStore (counted r s) i id = findStore s i id := rfl

theorem peerFetchForm_counted (i : Nat) (l : List Byte) : peerFetchForm (counted r s) i l = peerFetchForm s i l := rfl

theorem itemRecord_counted (i : Nat) (st : Store) (item : Nat) : itemRecord (counted r s) i st item = itemRecord s i st item := rfl

theorem peerRange_came (i : Nat) (l : List Byte) : peerRange (came c r s) i l = peerRange s i l := rfl

theorem pagePoisoned_came (i pg : Nat) : pagePoisoned (came c r s) i pg = pagePoisoned s i pg := rfl

theorem t1Bytes_came (i a n : Nat) : (came c r s).t1Bytes i a n = s.t1Bytes i a n := rfl

theorem itemPages_came (i : Nat) (st : Store) (item : Nat) : itemPages (came c r s) i st item = itemPages s i st item := rfl

theorem storeItem_came (i : Nat) (st : Store) (item : Nat) : storeItem (came c r s) i st item = storeItem s i st item := rfl

/-- An item whose passage can be read has its record. -/
theorem itemRecord_of_storeItem {i item : Nat} {st : Store} {y : List Byte × List Byte} (h : storeItem s i st item = some y) :
    (itemRecord s i st item).isSome = true := by
  unfold storeItem at h
  cases hk : itemRecord s i st item with
  | none => simp [hk] at h
  | some k => rfl

/-- None of the pages is poisoned. -/
theorem noneBad {p : Nat → Bool} {l : List Nat} (h : ∀ x ∈ l, p x = false) : (l.filter p).isEmpty = true := by
  simpa [List.isEmpty_iff, List.filter_eq_nil_iff] using h

/-! ### An item's tag and passage -/

section
variable {i t item : Nat} {st : Store}

theorem itemAnswer_damaged (h : st.res.damaged = true) : itemAnswer i st item t s = finishPlain s t .fault 0 := by
  simp [itemAnswer, h]

theorem itemAnswer_intact {y : List Byte × List Byte} (h : st.res.damaged = false)
    (hp : ∀ pg ∈ itemPages s i st item, pagePoisoned s i pg = false) (hy : storeItem s i st item = some y) :
    itemAnswer i st item t s = finish (charge s i .fill (y.1.length + y.2.length)) t .ok 0 (some (passageReply y)) := by
  simp only [itemAnswer, h, noneBad hp, hy, Bool.not_true, Bool.false_eq_true, if_false]

end

/-! ### PEER_FETCH -/

section
variable (hs : engineState s r = true) (h : Accepted .peerFetch r s) (hf : peerFetchForm s (reqPid s r) r.pay = true)
include hs h hf

theorem exec_peerFetch_range (hkind : fld r.pay 0 1 ≠ 1)
    (hp : ∀ pg ∈ rangePages (peerRange s (reqPid s r) r.pay).1 (peerRange s (reqPid s r) r.pay).2,
      pagePoisoned s (reqPid s r) pg = false) :
    exec (.peerFetch r) s = .next (finish
      (charge (came .peerFetch r s) (reqPid s r) .fill (peerRange s (reqPid s r) r.pay).2) s.nextId .ok 0
      (some (s.t1Bytes (reqPid s r) (peerRange s (reqPid s r) r.pay).1 (peerRange s (reqPid s r) r.pay).2))) := by
  have hb := bound_of_accepted h
  have hitem : (fld r.pay 0 1 == 1) = false := by simp [hkind]
  refine (live_enter_accepted h cmdPeerFetch).trans (congrArg _ ?_)
  simp only [cmdPeerFetch, pairPart_counted hb, engineState_counted hb, reqPid_counted hb, peerFetchForm_counted, hitem]
  refine (runCmd_accepted h rfl hf hs rfl rfl).trans ?_
  simp only [peerRange_came, noneBad (p := pagePoisoned (came .peerFetch r s) (reqPid s r)) hp, Bool.false_eq_true, if_false,
    if_true, t1Bytes_came]

theorem exec_peerFetch_item {st : Store} {y : List Byte × List Byte} (hkind : fld r.pay 0 1 = 1)
    (hst : findStore s (reqPid s r) (fld r.pay 1 1) = some st)
    (hy : storeItem s (reqPid s r) st (fld r.pay 8 8) = some y) :
    exec (.peerFetch r) s = .next (itemAnswer (reqPid s r) st (fld r.pay 8 8) s.nextId (came .peerFetch r s)) := by
  have hb := bound_of_accepted h
  refine (live_enter_accepted h cmdPeerFetch).trans (congrArg _ ?_)
  simp only [cmdPeerFetch, pairPart_counted hb, engineState_counted hb, reqPid_counted hb, peerFetchForm_counted, hkind,
    findStore_counted, hst]
  exact runCmd_accepted h rfl hf hs (itemRecord_of_storeItem hy) rfl

end

/-! ### PEER_UPDATE -/

/-- Contributions of a source and, with its last, its EPOCH_END are kept (08 R231). -/
theorem modTable_takeContribs (i id source epoch : Nat) (last : Bool) (cs : List Contribution) :
    modTable s i id (takeContribs source epoch last cs) = { s with
      parts := s.parts.set i { s.part i with tables := (s.part i).tables.map fun t => if t.id = id then { t with
        contribs := t.contribs ++ cs, ends := if last = true then t.ends ++ [(source, epoch)] else t.ends } else t } } := rfl

section
variable {tb : Table} {cs : List Contribution} (hs : engineState s r = true) (h : Accepted .peerUpdate r s)
  (hlen : 16 ≤ r.pay.length) (hfl : fld r.pay 1 1 < 2) (hz : zeroAt r.pay 12 4 = true) (hsrc : fld r.pay 2 2 = r.src.toNat)
  (hcs : peerContribs r.pay (fld r.pay 2 2) (fld r.pay 4 4) (fld r.pay 8 4) 16 = some cs)
  (htb : findTable s (reqPid s r) (fld r.pay 0 1) = some tb) (hheld : holdsShard tb s.myId.toNat = true)
include hs h hlen hfl hz hsrc hcs htb hheld

/-- A well-formed PEER_UPDATE of a table whose shards this module holds takes what comes from a source of it. -/
theorem exec_peerUpdate : exec (.peerUpdate r) s = .next (if tb.sources.contains (fld r.pay 2 2) = true
    then finish (modTable (came .peerUpdate r s) (reqPid s r) tb.id
        (takeContribs (fld r.pay 2 2) (fld r.pay 4 4) (bit (fld r.pay 1 1) 0) cs)) s.nextId .ok (w32 cs.length)
      (some (leBytes 4 tb.applied ++ leBytes 4 0))
    else finish (came .peerUpdate r s) s.nextId .denied 0 (some (leBytes 4 tb.applied ++ leBytes 4 0))) := by
  have hb := bound_of_accepted h
  refine (live_enter_accepted h cmdPeerUpdate).trans (congrArg _ ?_)
  simp only [cmdPeerUpdate, pairPart_counted hb, engineState_counted hb, reqPid_counted hb, findTable_counted, htb, hcs]
  refine (runCmd_accepted h rfl ?_ hs hheld rfl).trans ?_
  · simp [has, hlen, hfl, hz, hsrc]
  · cases hm : tb.sources.contains (fld r.pay 2 2) with
    | true => rfl
    | false => rfl

end

end

/-- Settles O36: the two kinds of a fetch, and the update of a source and of another module. -/
theorem peerCommands : Obligations.PeerCommands := by
  unfold Obligations.PeerCommands
  intro r s hs
  refine ⟨fun h hf hkind => exec_peerFetch_range hs h hf hkind, fun st y h hf hkind hst hy => ?_,
    fun tb cs h hlen hfl hz hsrc hcs htb hheld => ?_⟩
  · have hrun := exec_peerFetch_item hs h hf hkind hst hy
    exact ⟨fun hd => hrun.trans (congrArg _ (itemAnswer_damaged hd)),
      fun hd hp => hrun.trans (congrArg _ (itemAnswer_intact (s := came .peerFetch r s) hd hp hy))⟩
  · have hrun := exec_peerUpdate hs h hlen hfl hz hsrc hcs htb hheld
    exact ⟨fun hm => hrun.trans (congrArg _ (if_neg (by simpa using hm))),
      fun hm => hrun.trans (congrArg _ (if_pos (by simpa using hm)))⟩

end Sys2Proof.Laws
end

section
/-! SUPPORT. Content (05 R144; 07 R194, R207; 08 R220; 09 R255, R264, R265; 11 R309, R311; 02 R54 to R56): how a load begins, and
what a removal leaves. The section settles O30. -/

namespace Sys2Proof.Laws

open Sys2Proof Sys2Proof.Machine

/-! ### Loads -/

/-- The codes of the load commands (02 R57). -/
def loadCodes : List Code := [.modelSwapIn, .indexLoad, .tableLoad, .tokenizerLoad, .grammarLoad]

/-- Every load command is one and the same command over its code. -/
theorem exec_loadCommand {i : Instr} {c : Code} {r : Req} (hi : commandOf i = some (c, r)) (hc : c ∈ loadCodes) (s : State) :
    exec i s = live s (enter c (cmdLoad c) r s) := by
  cases i <;> cases hi
  case modelSwapIn => rfl
  case indexLoad => rfl
  case tableLoad => rfl
  case tokenizerLoad => rfl
  case grammarLoad => rfl
  all_goals exact absurd hc (by decide)

theorem commandPart_load {c : Code} (hc : c ∈ loadCodes) (s : State) (r : Req) : commandPart s c r = pairPart s r := by
  cases c
  case modelSwapIn => rfl
  case indexLoad => rfl
  case tableLoad => rfl
  case tokenizerLoad => rfl
  case grammarLoad => rfl
  all_goals exact absurd hc (by decide)

/-- The frames of an object are whole frames of the partition. -/
theorem t1PlaceObject_fits {s : State} {i bytes frame n : Nat} (h : t1PlaceObject s i bytes = some (frame, n)) :
    n = cdiv bytes frameBytes ∧ frame + n ≤ (s.part i).frames.length := by
  obtain ⟨pg, hpg, he⟩ := Option.map_eq_some_iff.1 h
  obtain ⟨halign, hlimit, -⟩ := lowestFree_free hpg
  cases he
  exact ⟨rfl, by omega⟩

/-- The bytes of a load's source: of a Chipper object first its map (09 R264). -/
def loadStored (x : LoadSrc) : Nat := if x.chipper = true then 8 * (x.len / 4096) else x.len

/-- The frames of a load are reserved; a bitmap also takes its place among the changes of its shard (09 R255). -/
def loadReserved (c : Code) (i t : Nat) (l : List Byte) (frame n : Nat) (s : State) : State :=
  let x := loadSrc c l
  { s with parts := s.parts.set i { s.part i with
      reserved := (s.part i).reserved ++ [(t, frame, n)]
      changes := (s.part i).changes ++ if c = .indexLoad ∧ fld l 1 1 = 1
        then [⟨t, x.id, .bitmapLoad (fld l 3 1) x.chipper ⟨x.space, x.peer, x.addr, frame, n, x.len, x.chipper, false⟩ none,
          (s.part i).stepsFormed, false⟩] else [] } }

/-- A load that could not reach its source leaves nothing behind. -/
def loadDropped (i t : Nat) (s : State) : State :=
  { s with parts := s.parts.set i { s.part i with
      reserved := (s.part i).reserved.filter fun e => e.1 != t
      changes := (s.part i).changes.filter fun e => e.ticket != t } }

section
variable {c : Code} {i t : Nat} {l : List Byte} {s : State} {frame n : Nat}
  (hplace : t1PlaceObject s i (loadRoom c l) = some (frame, n))
include hplace

/-- How a load begins once its frames are found (11 R311). -/
theorem loadStart_placed (hi : i < s.parts.length) : loadStart c i t l s =
    if (loadSrc c l).space = 1 && !t1Ok (s.part i).frames (loadSrc c l).addr (loadStored (loadSrc c l)) then protection s i
    else
      let f := startFill (loadReserved c i t l frame n s) i (loadSrc c l).space (loadSrc c l).peer (loadSrc c l).addr
        (loadStored (loadSrc c l)) (.load t)
      if f.2 then f.1 else finishPlain (loadDropped i t f.1) t .fault 0 := by
  have hres : (if (c == .indexLoad && fld l 1 1 == 1) = true
      then (s.modPart i fun p => { p with reserved := p.reserved ++ [(t, frame, n)] }).modPart i fun p => { p with
        changes := p.changes ++ [⟨t, (loadSrc c l).id, .bitmapLoad (fld l 3 1) (loadSrc c l).chipper
          ⟨(loadSrc c l).space, (loadSrc c l).peer, (loadSrc c l).addr, frame, n, (loadSrc c l).len, (loadSrc c l).chipper,
            false⟩ none, p.stepsFormed, false⟩] }
      else s.modPart i fun p => { p with reserved := p.reserved ++ [(t, frame, n)] }) = loadReserved c i t l frame n s := by
    by_cases hbit : c = .indexLoad ∧ fld l 1 1 = 1
    · rw [if_pos (by simp [hbit]), modPart_modPart hi]
      simp only [loadReserved, if_pos hbit]
      rfl
    · rw [if_neg (by simpa using hbit)]
      simp only [loadReserved, if_neg hbit, List.append_nil]
      rfl
  rw [loadStart, ← hres]
  simp only [hplace]
  rfl

theorem loadStart_protected (hi : i < s.parts.length) (hspace : (loadSrc c l).space = 1)
    (hout : t1Ok (s.part i).frames (loadSrc c l).addr (loadStored (loadSrc c l)) = false) :
    loadStart c i t l s = protection s i := by
  rw [loadStart_placed hplace hi]
  exact if_pos (by simp [hspace, hout])

theorem loadStart_begins (hi : i < s.parts.length) (hin : (loadSrc c l).space = 1 →
      t1Ok (s.part i).frames (loadSrc c l).addr (loadStored (loadSrc c l)) = true) :
    loadStart c i t l s =
      let f := startFill (loadReserved c i t l frame n s) i (loadSrc c l).space (loadSrc c l).peer (loadSrc c l).addr
        (loadStored (loadSrc c l)) (.load t)
      if f.2 then f.1 else finishPlain (loadDropped i t f.1) t .fault 0 := by
  rw [loadStart_placed hplace hi]
  refine if_neg ?_
  by_cases hs : (loadSrc c l).space = 1
  · simp [hin hs]
  · simp [hs]

end

section
variable {i : Instr} {c : Code} {r : Req} {s : State}

theorem loadNeed_counted (hb : (s.pair r.pair).bound = true) : loadNeed (counted r s) c r = loadNeed s c r := by
  unfold loadNeed
  rw [reqPid_counted hb, reqPart_counted hb]
  rfl

/-- The partition of a load is bound, and its command's room check finds the frames. -/
theorem placed_of_loadNeed (h : (loadNeed s c r).room = none) :
    ∃ frame n, t1PlaceObject s (reqPid s r) (loadRoom c r.pay) = some (frame, n) := by
  simp only [loadNeed] at h
  split at h
  · cases h
  · split at h
    · cases h
    · next hsome =>
      obtain ⟨⟨frame, n⟩, hplace⟩ := Option.ne_none_iff_exists'.1 (by simpa using hsome)
      exact ⟨frame, n, hplace⟩

theorem loadState_bound {st : PState} (h : loadState st = true) : st ≠ .unbound := fun e => by subst e; cases h

/-- An accepted load whose own checks pass begins. -/
theorem exec_load (hi : commandOf i = some (c, r)) (hc : c ∈ loadCodes) (h : Accepted c r s) (hf : loadForm c r.pay = true)
    (hst : loadState (reqPart s r).state = true) (hrep : replaceOk s (reqPid s r) c r.pay = true)
    (hfound : loadFound s (reqPid s r) c r.pay = true) (hroom : (loadNeed s c r).room = none) :
    exec i s = .next (loadStart c (reqPid s r) s.nextId r.pay (came c r s)) := by
  have hb := bound_of_accepted h
  rw [exec_loadCommand hi hc, live_enter_accepted h]
  refine congrArg _ ?_
  rw [cmdLoad, loadNeed_counted hb, pairPart_counted hb]
  refine (runCmd_accepted h (commandPart_load hc s r).symm hf (by simp [loadNeed, hst, hrep]) hfound hroom).trans ?_
  rw [reqPid_came hb]

end

/-! ### Removals -/

section
variable {s : State} {i : Nat}

/-- A LOADED partition whose last object is gone is BOUND (02 R54, R55). -/
def lastOut (q : Partition) : Partition := { q with state := if q.state = .loaded then loadedOr q else q.state }

theorem contentOut_modPart (hi : i < s.parts.length) (f : Partition → Partition) :
    contentOut (s.modPart i f) i = s.modPart i fun p => lastOut (f p) := by
  unfold contentOut
  rw [part_modPart_self s hi]
  by_cases hl : (f (s.part i)).state = .loaded
  · rw [if_pos (by simp [hl]), modPart_modPart hi]
    simp only [State.modPart, lastOut, if_pos hl]
  · rw [if_neg (by simpa using hl)]
    simp only [State.modPart, lastOut, if_neg hl]

theorem formDigest_modPart (hi : i < s.parts.length) (f : Partition → Partition) :
    formDigest (s.modPart i f) i = s.modPart i fun p => { f p with digest := digestOfPart (f p) } := modPart_modPart hi _ _

end

theorem unloadState_bound {st : PState} (h : unloadState st = true) : st ≠ .unbound := fun e => by subst e; cases h

/-- A field of one byte. -/
theorem fld_byte_lt (l : List Byte) (o : Nat) : fld l o 1 < 256 := by
  unfold fld
  cases hl : l.drop o with
  | nil => exact Nat.zero_lt_succ _
  | cons b rest => exact (leNat_byte b).trans_lt b.isLt

/-- What CONTENT_UNLOAD takes from a partition, by kind (02 R56). -/
def withoutContent (kind id : Nat) (p : Partition) : Partition :=
  match kind with
  | 0 => { p with tokenizers := p.tokenizers.filter fun x => x.id != id }
  | 1 => { p with grammars := p.grammars.filter fun x => x.id != id }
  | _ => flushCache { p with tables := p.tables.filter fun x => x.id != id } id

/-- Is the object of a CONTENT_UNLOAD there? -/
def contentThere (s : State) (i kind id : Nat) : Bool :=
  match kind with
  | 0 => (findTokenizer s i id).isSome
  | 1 => (findGrammar s i id).isSome
  | _ => (findTable s i id).isSome

section
variable {r : Req} {s : State} {i : Nat} (hpart : pairPart s r = some i)
include hpart

theorem reqPid_of_part : reqPid s r = i := by rw [reqPid, hpart]; rfl

theorem reqPart_of_part : reqPart s r = s.part i := by rw [reqPart, hpart]

variable (hlen : 8 ≤ r.pay.length) (hst : unloadState (s.part i).state = true)
include hlen hst

theorem exec_modelSwapOut_model (h : Accepted .modelSwapOut r s) (hid : fld r.pay 0 1 ≤ 15) (hz : zeroAt r.pay 2 6 = true)
    (hkind : fld r.pay 1 1 = 0) (hthere : (findModel s i (fld r.pay 0 1)).isSome = true)
    (hfree : ∀ c ∈ inFlight s i, ctxUsesModel c (fld r.pay 0 1) = false) :
    exec (.modelSwapOut r) s = .next (finishPlain (contentOut (formDigest ((came .modelSwapOut r s).modPart i fun p =>
      { p with models := p.models.filter fun m => m.id != fld r.pay 0 1 }) i) i) s.nextId .ok (fld r.pay 0 1)) := by
  have hb := bound_of_accepted h
  refine (live_enter_accepted h cmdModelSwapOut).trans (congrArg _ ?_)
  have hused : (inFlight (counted r s) i).any (fun c => ctxUsesModel c (fld r.pay 0 1)) = false :=
    List.any_eq_false.2 fun c hc => by simp [hfree c hc]
  simp only [cmdModelSwapOut, pairPart_counted hb, reqPid_counted hb, reqPart_counted hb, reqPid_of_part hpart,
    reqPart_of_part hpart, hkind, beq_self_eq_true, if_true, hused]
  exact runCmd_accepted h rfl (by simp [has, hlen, hid, hz]) (by simp [hst]) hthere rfl

theorem exec_modelSwapOut_store (h : Accepted .modelSwapOut r s) (hid : fld r.pay 0 1 ≤ 15) (hz : zeroAt r.pay 2 6 = true)
    (hkind : fld r.pay 1 1 = 1) (hthere : (findStore s i (fld r.pay 0 1)).isSome = true)
    (hfree : ∀ c ∈ inFlight s i, ctxUsesIndex c (fld r.pay 0 1) = false) :
    exec (.modelSwapOut r) s = .next (finishPlain (contentOut (formDigest ((came .modelSwapOut r s).modPart i fun p =>
      { p with stores := p.stores.filter fun m => m.id != fld r.pay 0 1 }) i) i) s.nextId .ok (fld r.pay 0 1)) := by
  have hb := bound_of_accepted h
  refine (live_enter_accepted h cmdModelSwapOut).trans (congrArg _ ?_)
  have hused : (inFlight (counted r s) i).any (fun c => ctxUsesIndex c (fld r.pay 0 1)) = false :=
    List.any_eq_false.2 fun c hc => by simp [hfree c hc]
  have hk : (fld r.pay 1 1 == 0) = false := by simp [hkind]
  simp only [cmdModelSwapOut, pairPart_counted hb, reqPid_counted hb, reqPart_counted hb, reqPid_of_part hpart,
    reqPart_of_part hpart, hk, Bool.false_eq_true, if_false, hused]
  exact runCmd_accepted h rfl (by simp [has, hlen, hid, hz, hkind]) (by simp [hst]) hthere rfl

section
variable (h : Accepted .indexUnload r s) (hid : fld r.pay 0 1 ≤ 15) (hz : zeroAt r.pay 3 5 = true)
  {x : Index} (hx : findIndex s i (fld r.pay 0 1) = some x)
include h hid hz hx

theorem exec_indexUnload_image (hkind : fld r.pay 1 1 = 0) (hno : fld r.pay 2 1 = 0)
    (hfree : indexBusy s i (fld r.pay 0 1) = false) :
    exec (.indexUnload r) s = .next (finishPlain (contentOut (formDigest ((came .indexUnload r s).modPart i fun p =>
      { p with indexes := p.indexes.filter fun x => x.id != fld r.pay 0 1 }) i) i) s.nextId .ok (fld r.pay 0 1)) := by
  have hb := bound_of_accepted h
  refine (live_enter_accepted h cmdIndexUnload).trans (congrArg _ ?_)
  have hbusy : indexBusy (counted r s) i (fld r.pay 0 1) = false := hfree
  simp only [cmdIndexUnload, pairPart_counted hb, reqPid_counted hb, reqPart_counted hb, reqPid_of_part hpart,
    reqPart_of_part hpart, findIndex_counted, hx, hkind, beq_self_eq_true, if_true, hbusy]
  exact runCmd_accepted h rfl (by simp [has, hlen, hid, hz, hno]) (by simp [hst]) rfl rfl

theorem exec_indexUnload_bitmap (hbm : fld r.pay 2 1 ≤ 63) (hkind : fld r.pay 1 1 = 1)
    (hthere : x.bitmaps.any (fun e => e.1 == fld r.pay 2 1) = true) :
    exec (.indexUnload r) s = .next ((came .indexUnload r s).modPart i fun p => { p with
      changes := p.changes ++ [⟨s.nextId, fld r.pay 0 1, .bitmapUnload (fld r.pay 2 1), p.stepsFormed, false⟩] }) := by
  have hb := bound_of_accepted h
  refine (live_enter_accepted h cmdIndexUnload).trans (congrArg _ ?_)
  have hk : (fld r.pay 1 1 == 0) = false := by simp [hkind]
  simp only [cmdIndexUnload, pairPart_counted hb, reqPid_counted hb, reqPart_counted hb, reqPid_of_part hpart,
    reqPart_of_part hpart, findIndex_counted, hx, hk, Bool.false_eq_true, if_false]
  exact runCmd_accepted h rfl (by simp [has, hlen, hid, hz, hkind, hbm]) (by simp [hst]) (by simpa using hthere) rfl

end

theorem exec_contentUnload (h : Accepted .contentUnload r s) (hz : zeroAt r.pay 2 6 = true) (hkind : fld r.pay 0 1 ≤ 2)
    (hid : fld r.pay 1 1 ≤ if fld r.pay 0 1 = 0 then 7 else if fld r.pay 0 1 = 1 then 255 else 63)
    (hfree : unloadBusy s i (fld r.pay 0 1) (fld r.pay 1 1) = false)
    (hthere : contentThere s i (fld r.pay 0 1) (fld r.pay 1 1) = true) :
    exec (.contentUnload r) s = .next (finishPlain (contentOut
      ((came .contentUnload r s).modPart i (withoutContent (fld r.pay 0 1) (fld r.pay 1 1))) i) s.nextId .ok (fld r.pay 1 1)) := by
  have hb := bound_of_accepted h
  refine (live_enter_accepted h cmdContentUnload).trans (congrArg _ ?_)
  have hbusy : unloadBusy (counted r s) i (fld r.pay 0 1) (fld r.pay 1 1) = false := hfree
  simp only [cmdContentUnload, pairPart_counted hb, reqPid_counted hb, reqPart_counted hb, reqPid_of_part hpart,
    reqPart_of_part hpart, hbusy, Bool.and_false, Bool.not_false, Bool.and_true]
  exact runCmd_accepted h rfl (by simp [has, hlen, hkind, hid, hz]) hst hthere rfl

end

/-- Settles O30: a load by what its source and its start give, a removal by its kind. -/
theorem contentLoadedAndRemoved : Obligations.ContentLoadedAndRemoved := by
  unfold Obligations.ContentLoadedAndRemoved
  constructor
  · intro i c r s hi hc h hf hst hrep hfound hroom k x stored
    obtain ⟨frame, n, hplace⟩ := placed_of_loadNeed hroom
    obtain ⟨hn, hfits⟩ := t1PlaceObject_fits hplace
    have hrun := exec_load hi hc h hf hst hrep hfound hroom
    have hbound := loadState_bound hst
    have hk : k < s.parts.length := part_lt_of_state (by rw [part_reqPid_of_bound hbound]; exact hbound)
    refine ⟨frame, n, hplace, hn, hfits, ?_⟩
    intro res s1 f
    refine ⟨fun hspace hout => ?_, fun hin => ?_⟩
    · exact hrun.trans (congrArg _ (loadStart_protected (s := came c r s) hplace hk hspace hout))
    · have hbegins := hrun.trans (congrArg _ (loadStart_begins (s := came c r s) hplace hk hin))
      exact ⟨fun hok => hbegins.trans (congrArg _ (if_pos hok)),
        fun hfail => hbegins.trans (congrArg _ (if_neg (Bool.eq_false_iff.1 hfail)))⟩
  intro r s i hpart p id place lastOut
  refine ⟨fun h hlen hid hz hst => ?_, fun h hlen hid hbm hz hst x hx => ?_, fun h hlen hz hst => ?_⟩
  · have hi : i < (came .modelSwapOut r s).parts.length := part_lt_of_state (unloadState_bound hst)
    refine ⟨fun hkind hthere hused => ?_, fun hkind hthere hused => ?_⟩
    · rw [exec_modelSwapOut_model hpart hlen hst h hid hz hkind hthere hused, formDigest_modPart hi, contentOut_modPart hi]
      rfl
    · rw [exec_modelSwapOut_store hpart hlen hst h hid hz hkind hthere hused, formDigest_modPart hi, contentOut_modPart hi]
      rfl
  · have hi : i < (came .indexUnload r s).parts.length := part_lt_of_state (unloadState_bound hst)
    refine ⟨fun hkind hno hfree => ?_, fun hkind hthere => ?_⟩
    · rw [exec_indexUnload_image hpart hlen hst h hid hz hx hkind hno hfree, formDigest_modPart hi, contentOut_modPart hi]
      rfl
    · rw [exec_indexUnload_bitmap hpart hlen hst h hid hz hx hbm hkind hthere]
      rfl
  · have hi : i < (came .contentUnload r s).parts.length := part_lt_of_state (unloadState_bound hst)
    have hbyte : fld r.pay 1 1 < 256 := fld_byte_lt _ _
    intro n hfree
    refine ⟨fun hkind hid hthere => ?_, fun hkind hthere => ?_, fun hkind hid hthere => ?_⟩
    · have hk : fld r.pay 0 1 = 0 := hkind
      rw [exec_contentUnload hpart hlen hst h hz (by omega) (by rw [if_pos hk]; exact hid) hfree (by rw [hk]; exact hthere),
        contentOut_modPart hi, hk]
      rfl
    · have hk : fld r.pay 0 1 = 1 := hkind
      rw [exec_contentUnload hpart hlen hst h hz (by omega) (by simp [hk]; omega) hfree (by rw [hk]; exact hthere),
        contentOut_modPart hi, hk]
      rfl
    · have hk : fld r.pay 0 1 = 2 := hkind
      rw [exec_contentUnload hpart hlen hst h hz (by omega) (by simp [hk]; exact hid) hfree (by rw [hk]; exact hthere),
        contentOut_modPart hi, hk]
      rfl

end Sys2Proof.Laws
end

section
/-! SUPPORT. Rows that the statements above give by families (02 R61; 05 R131; 12 R333; 13 R350; 14 R371, R372, R375): what a load
that begins leaves, and the completion of each row. The section settles O55. -/

namespace Sys2Proof.Laws

open Sys2Proof Sys2Proof.Machine

/-! ### What a peer call leaves alone -/

/-- The partitions, the fills, and the next ticket. -/
def holdings (s : State) : List Partition × List Fill × Nat := (s.parts, s.fills, s.nextId)

@[simp] theorem bump_holdings (s : State) (c : Ctr) (p i n : Nat) : holdings (bump s c p i n) = holdings s := by
  simp [holdings]

@[simp] theorem modPort_holdings (s : State) (i : Nat) (f : Port → Port) : holdings (s.modPort i f) = holdings s := rfl

theorem routeFrame_holdings (s : State) (q : Nat) (f : Frame) : holdings (routeFrame s q f) = holdings s := by
  unfold routeFrame
  split
  · unfold enqueueAt
    split <;> simp
  · simp

theorem sendFrame_holdings (s : State) (q : Nat) (f : Frame) : holdings (sendFrame s q f) = holdings s := by
  unfold sendFrame
  split
  · simp
  · exact routeFrame_holdings _ q _

theorem foldl_sendFrame_holdings {α : Type} (g : α → Frame) (q : Nat) (l : List α) (s : State) :
    holdings (l.foldl (fun s x => sendFrame s q (g x)) s) = holdings s := by
  induction l generalizing s with
  | nil => rfl
  | cons x l ih => exact (ih _).trans (sendFrame_holdings s q (g x))

theorem sendPeer_holdings (s : State) (part : Nat) (target : W16) (c : Code) (tag : Nat) (pay : List Byte) :
    holdings (sendPeer s part target c tag pay) = holdings (charge s part .link pay.length) := by
  unfold sendPeer
  extract_lets small head s1
  have hs1 : holdings s1 = holdings (charge s part .link pay.length) := sendFrame_holdings _ _ _
  split
  · exact hs1
  · exact (foldl_sendFrame_holdings _ _ _ s1).trans hs1

/-- What a change of partitions keeps of each, every partition keeps. -/
theorem keeps_modPart {α : Type} {g : Partition → α} {f : Partition → Partition} (hf : ∀ p, g (f p) = g p)
    (s : State) (i k : Nat) : g ((s.modPart i f).part k) = g (s.part k) := by
  by_cases h : i = k
  · subst h
    by_cases hi : i < s.parts.length
    · rw [part_modPart_self s hi, hf]
    · rw [State.modPart, List.set_eq_of_length_le (Nat.not_lt.1 hi)]
  · rw [part_modPart_ne s h]

theorem modReg_reserved (s : State) (i : Nat) (c : Flowing) (f : Regulator → Regulator) (k : Nat) :
    ((s.modReg i c f).part k).reserved = (s.part k).reserved := by
  unfold State.modReg
  split
  · rfl
  · refine keeps_modPart (g := Partition.reserved) ?_ s i k
    exact fun p => rfl

/-- Accesses that pass leave the fills, the next ticket and the reserved frames (01 R16; 13 R353). -/
theorem charge_link (s : State) (i n k : Nat) : (charge s i .link n).fills = s.fills ∧ (charge s i .link n).nextId = s.nextId ∧
    ((charge s i .link n).part k).reserved = (s.part k).reserved := by
  unfold charge
  split
  · exact ⟨rfl, rfl, rfl⟩
  · refine ⟨?_, ?_, ?_⟩
    · exact bump_fills _ _ _ _ _
    · exact bump_nextId _ _ _ _ _
    · rw [bump_part]
      exact modReg_reserved s i _ _ k

/-- A call to a peer takes the next ticket. -/
theorem placeCall_leaves (s : State) (part : Nat) (target : W16) (replica : Nat) (onReplica : Bool) (forWhat : CallFor) (c : Code)
    (pay : List Byte) (k : Nat) :
    let t := placeCall s part target replica onReplica forWhat c pay
    t.fills = s.fills ∧ t.nextId = s.nextId + 1 ∧ (t.part k).reserved = (s.part k).reserved := by
  unfold placeCall
  extract_lets held t call s1 u
  by_cases hheld : held = true
  · have hu : u = s1 := if_pos hheld
    rw [hu]
    exact ⟨rfl, rfl, rfl⟩
  · have hu : u = sendPeer s1 part target c t pay := if_neg hheld
    have hh := sendPeer_holdings s1 part target c t pay
    simp only [holdings, Prod.mk.injEq] at hh
    obtain ⟨hparts, hfills, hid⟩ := hh
    obtain ⟨cfills, cid, cres⟩ := charge_link s1 part pay.length k
    refine ⟨?_, ?_, ?_⟩
    · rw [hu, hfills, cfills]
    · rw [hu, hid, cid]
    · rw [hu, State.part, hparts]
      exact cres

/-! ### A load that begins -/

/-- A fill from the partition's own T1 share or from a peer starts. -/
theorem startFill_near {s : State} {part space peer addr len : Nat} {w : FillFor} (hs : space = 1 ∨ space = 3) (k : Nat) :
    let f := startFill s part space peer addr len w
    f.2 = true ∧ f.1.fills = s.fills ++ [⟨s.nextId, part, space, peer, addr, len, w, s.now, []⟩] ∧
      f.1.nextId = s.nextId + (if space = 1 then 1 else 2) ∧ (f.1.part k).reserved = (s.part k).reserved := by
  rcases hs with rfl | rfl
  · exact ⟨rfl, rfl, rfl, rfl⟩
  · obtain ⟨hfills, hid, hres⟩ := placeCall_leaves
      { s with nextId := s.nextId + 1, fills := s.fills ++ [⟨s.nextId, part, 3, peer, addr, len, w, s.now, []⟩] }
      part (w16 peer) 0xFFFF false (.fill s.nextId) .peerFetch (fetchRange addr len) k
    exact ⟨rfl, hfills, hid, hres⟩

theorem loadReserved_part {c : Code} {i t : Nat} {l : List Byte} {frame n : Nat} {s : State} (hi : i < s.parts.length) :
    ((loadReserved c i t l frame n s).part i).reserved = (s.part i).reserved ++ [(t, frame, n)] := by
  simp [loadReserved, State.part, hi]

/-! ### Rows -/

theorem bindEffect_zeroing (l : List Byte) (s : State) : (bindEffect l s).zeroing = s.zeroing := rfl

/-- A binding ends once its segments are zeroed (13 R351). -/
theorem bindDone_of_zeroed {s : State} {t : Nat} {l : List Byte} (h : ∀ g ∈ (s.part (bindParse l).part).segs, g ∉ s.zeroing) :
    bindDone s t l = finishPlain (bindPairs l s) t .ok (partStands s (bindParse l).part).length :=
  if_neg (by simpa [awaitsZeroing] using h)

theorem bindDone_of_zeroing {s : State} {t : Nat} {l : List Byte}
    (h : ∃ g ∈ (s.part (bindParse l).part).segs, g ∈ s.zeroing) :
    bindDone s t l = s :=
  if_pos (by simpa [awaitsZeroing] using h)

theorem load_of_mem {i : Instr} {c : Code} {r : Req} (h : (i, c) ∈ [(Instr.modelSwapIn r, Code.modelSwapIn),
    (.indexLoad r, .indexLoad), (.tableLoad r, .tableLoad), (.tokenizerLoad r, .tokenizerLoad), (.grammarLoad r, .grammarLoad)]) :
    commandOf i = some (c, r) ∧ c ∈ loadCodes := by
  simp only [List.mem_cons, Prod.mk.injEq, List.not_mem_nil, or_false] at h
  rcases h with ⟨rfl, rfl⟩ | ⟨rfl, rfl⟩ | ⟨rfl, rfl⟩ | ⟨rfl, rfl⟩ | ⟨rfl, rfl⟩ <;> exact ⟨rfl, by decide⟩

theorem global_of_mem {i : Instr} {c : Code} {r : Req} (h : (i, c) ∈ [(Instr.barrierJoin r, Code.barrierJoin),
    (.broadcastSend r, .broadcastSend), (.snapshotTake r, .snapshotTake), (.groupReset r, .groupReset)]) :
    commandOf i = some (c, r) ∧ c ∈ [Code.barrierJoin, .broadcastSend, .snapshotTake, .groupReset] := by
  simp only [List.mem_cons, Prod.mk.injEq, List.not_mem_nil, or_false] at h
  rcases h with ⟨rfl, rfl⟩ | ⟨rfl, rfl⟩ | ⟨rfl, rfl⟩ | ⟨rfl, rfl⟩ <;> exact ⟨rfl, by decide⟩

/-- A row that brings a frame of its own kind. -/
theorem frameOf_of_row {i : Instr} {port : Nat} {f : Frame}
    (h : (i, f.kind) ∈ [(Instr.mboxWrite port f, FrameKind.mboxWrite), (.mboxRead port f, .mboxRead),
        (.readData port f, .readData), (.peerReq port f, .peerReq), (.peerData port f, .peerData), (.message port f, .message),
        (.hostWrite port f, .hostWrite), (.hostRead port f, .hostRead)] ∨
      f.kind = .blaze ∧ (i = .blazeUp port f ∧ fld f.data 0 1 = 1 ∨ i = .blazeDown port f ∧ fld f.data 0 1 = 2)) :
    frameOf i = some (f.kind, port, f) := by
  rcases h with h | ⟨hk, ⟨rfl, hd⟩ | ⟨rfl, hd⟩⟩
  · simp only [List.mem_cons, Prod.mk.injEq, List.not_mem_nil, or_false] at h
    rcases h with ⟨rfl, hk⟩ | ⟨rfl, hk⟩ | ⟨rfl, hk⟩ | ⟨rfl, hk⟩ | ⟨rfl, hk⟩ | ⟨rfl, hk⟩ | ⟨rfl, hk⟩ | ⟨rfl, hk⟩ <;>
      rw [hk] <;> rfl
  · rw [hk]
    exact if_pos hd
  · rw [hk]
    exact if_pos hd

/-- Settles O55: each family by the lemma of its rows. -/
theorem rowsComplete : Obligations.RowsComplete := by
  unfold Obligations.RowsComplete
  refine ⟨fun off v s hup => ⟨fun pair => exec_registerWrite hup _ _ _, fun fn => exec_registerWrite hup _ _ _,
    exec_registerWrite hup _ _ _⟩, fun r s => ⟨?_, ?_, ?_, ?_, ?_⟩, ?_⟩
  · intro b u h hf hst hroom
    rw [exec_partitionBind h hf hst hroom]
    exact ⟨fun hz => congrArg _ (bindDone_of_zeroed hz), fun hz => congrArg _ (bindDone_of_zeroing hz)⟩
  · intro i h hf hst
    exact exec_partitionUnbind h hf hst
  · intro u h hf hp hst
    exact exec_partitionRecover h hf hp hst
  · intro i c hmem h hf hst hrep hfound hroom k x stored hspace
    obtain ⟨hi, hc⟩ := load_of_mem hmem
    obtain ⟨frame, n, hplace⟩ := placed_of_loadNeed hroom
    have hbound := loadState_bound hst
    have hk : k < s.parts.length := part_lt_of_state (by rw [part_reqPid_of_bound hbound]; exact hbound)
    have hin : x.space = 1 → t1Ok (s.part k).frames x.addr stored = true := fun h1 => by
      rcases hspace with h3 | ⟨-, hok⟩
      · omega
      · exact hok
    obtain ⟨hok, hfills, hid, hres⟩ := startFill_near (s := loadReserved c k s.nextId r.pay frame n (came c r s)) (part := k)
      (peer := x.peer) (addr := x.addr) (len := stored) (w := .load s.nextId) (show x.space = 1 ∨ x.space = 3 by omega) k
    refine ⟨_, frame, n, ?_, (t1PlaceObject_fits hplace).1, hres.trans (loadReserved_part (s := came c r s) hk), hid, hfills⟩
    rw [exec_load hi hc h hf hst hrep hfound hroom]
    exact congrArg _ ((loadStart_begins (s := came c r s) hplace hk hin).trans (if_pos hok))
  · intro i c hmem h k p g hf hst hnew hroom s1
    obtain ⟨hi, hc⟩ := global_of_mem hmem
    have hrun := (globalCommands.1 i c r s hi hc h hf hst).1 hnew hroom
    refine ⟨fun hfree => hrun.trans (congrArg _ (if_neg ?_)), fun hbusy => hrun.trans (congrArg _ (if_pos ?_))⟩
    · simpa using hfree
    · simpa using hbusy
  · intro i port f s hrow hup hport hdis hn hdest hdue t
    have hseq : lookupD (received s port (frameFlits f)).flowRx (flowKey f) 0 = f.flowSeq := hdue.symm
    rw [exec_frame s (frameOf_of_row hrow), live_next hup, receive_of_awaited hport rfl hn (.inl hdis), if_pos hdest]
    refine congrArg _ ((flowArrive_due hseq.symm).trans ?_)
    simp only [hseq]
    rfl

end Sys2Proof.Laws
end
